-- ==== Sys2Proof/Word.lean ====
section
/-! DEFINITION. The word types of the CRH-8256 model: bytes, register words, link words. -/

namespace Sys2Proof

/-- One byte. -/
abbrev Byte := BitVec 8

/-- A register: 32 or 64 bits (R716); a 32-bit register uses the low half. -/
abbrev RegWord := BitVec 64

/-- A 64-bit word of the Fjarut link (R462). -/
abbrev LinkWord := BitVec 64

/-- A channel handle (R17). -/
abbrev Handle := BitVec 32

end Sys2Proof
end

