-- ==== Sys2Proof/Syntax.lean ====
section
/-! DEFINITION. The commands the block takes from outside: one constructor of `Instr` for each row of
spec/opcode_table.json, with the operands that the outside world supplies with it. What a DMA read of
host memory returns, what a link receives and what a sensor reads are operands; what the block drives
out is held in its state. -/

namespace Sys2Proof

/-- How a pip fails (R189). -/
inductive PipCause where
  | storeError | residue | handshake | selfTest
  deriving DecidableEq, Repr

/-- The two ends of a fabric link whose handshake times out (R201). -/
inductive FabLink where
  | pip (p : Nat)        -- a pip's own link
  | cupHub (c : Nat)     -- between cup hub c and its quarter hub
  | quarterHub (q : Nat) -- between quarter hub q and the crossbar
  | xbar (half : Nat)    -- between the crossbar halves, seen by half 0 (north) or 1 (south)
  deriving DecidableEq, Repr

/-- Who issued an HBM read (R250). -/
inductive HbmReader where
  | pip (p : Nat)
  | calUnit (q : Nat)
  | blit
  | clipStage
  | devRegion (block : Nat)
  | scrubber
  | surfaceUnit (xfer : Nat) (fetched : List Byte)
  | capture (layer : Nat)
  deriving DecidableEq, Repr

/-- What the symbol code finds on a read (R247). -/
inductive EccResult where
  | clean | corrected | uncorrectable
  deriving DecidableEq, Repr

/-- A drive as a scan of a root port finds it (R551). -/
structure DriveInfo where
  port : Nat
  sizeBytes : Nat
  blockBytes : Nat
  serial : Nat
  deriving DecidableEq, Repr, Inhabited

/-- What decoding one JPEG XS slice gave (R545, R546); the samples are in frame-surface layout. -/
inductive XsResult where
  | rows (firstRow : Nat) (bytes : List Byte)
  | unsupported
  | failed
  deriving DecidableEq, Repr

/-- An Announce data set, in the order the default best master choice compares it (R645). -/
structure Announce where
  priority1 : Nat
  clockClass : Nat
  accuracy : Nat
  variance : Nat
  priority2 : Nat
  gmId : BitVec 64
  stepsRemoved : Nat
  deriving DecidableEq, Repr

/-- A PTP message as the timestamp unit of a port gives it (R645). Times are ns on the PTP timescale. -/
inductive PtpMsg where
  | announce (domain : Nat) (a : Announce)
  | sync (domain : Nat) (gmId : BitVec 64) (twoStep : Bool) (originNs rxNs : Nat)
  | followUp (domain : Nat) (gmId : BitVec 64) (originNs : Nat)
  | delayResp (domain : Nat) (gmId : BitVec 64) (rxNs : Nat)
  | other
  deriving DecidableEq, Repr

/-- A write of PCIe configuration space (R676, R751). -/
inductive CfgWrite where
  | numVfs (n : Nat)
  | vfEnable (on : Bool)
  | msixEnable (fn : Nat) (on : Bool)
  | msixFunctionMask (fn : Nat) (on : Bool)
  | busMaster (fn : Nat) (on : Bool)
  | msixVectorMask (fn vec : Nat) (on : Bool)
  | other (fn : Nat)
  deriving DecidableEq, Repr

/-- A ring that coalesces its interrupts (R704, R756). -/
inductive CoalRing where
  | completion (c : Nat)
  | event (r : Nat)
  deriving DecidableEq, Repr

/-- Three register copies as a scrub finds them (R735). -/
structure TmrCopies where
  addr : Nat
  a : RegWord
  b : RegWord
  c : RegWord
  deriving DecidableEq, Repr

/-- What the boot ROM finds in a banker slot (R817, R818): the image held there. -/
structure SlotImage where
  image : List Byte
  deriving DecidableEq, Repr

/-- The header of a table-link message (R548) but for its TYPE and LEN. -/
structure TableHdr where
  src : Nat
  dst : Nat
  hops : Nat
  epoch : Nat
  seq : Nat
  deriving DecidableEq, Repr

/-- A request for the ruler (R549, FORWARD). The spec lists what a request may ask for and gives its body no
layout, so the content stands here as data. -/
inductive TableReq where
  | imageLoad (image : List Byte)
  /-- a layer create on device dev, with the function that owns it and its record -/
  | layerCreate (dev queue tag owner : Nat) (priv : Bool) (record : List Byte)
  | layerUpdate (dev queue tag handle : Nat) (record : List Byte)
  | layerDestroy (dev queue tag handle : Nat)
  /-- whether device dev has admitted its share of a layer offered (R115) -/
  | share (dev handle : Nat) (ok : Bool)
  | demotion (handle turn : Nat)
  | layerOff (handle : Nat)
  /-- a change of cadence, QUIET or TIME_SRC (R417, R643), in ns per period as a fraction, µs and source -/
  | timing (num den quiet src : Nat)
  /-- alarm inputs on at device dev (R631) -/
  | alarms (dev : Nat) (on0 on1 : Bool)
  deriving DecidableEq, Repr

/-- A decision of the ruler (R549, STATE), as data for the same reason. -/
inductive TableDecision where
  /-- a layer that device dev asked for, to take a share of: handle, CSEQ, owner, whether its request was
  privileged, record -/
  | offer (dev handle cseq owner : Nat) (priv : Bool) (record : List Byte)
  /-- the offer stands, or falls on every device -/
  | settled (handle : Nat) (ok : Bool)
  /-- a layer of device dev as it now stands -/
  | layer (dev handle owner : Nat) (record : List Byte)
  | gone (handle : Nat)
  /-- the answer to a request of device dev -/
  | answer (dev queue tag status handle : Nat)
  | bright (b : Nat)
  | demotion (handle turn : Nat)
  | layerOff (handle : Nat)
  | alarms (on0 on1 : Bool)
  | image (image : List Byte) (turn : Nat)
  /-- a timing change and its Ne -/
  | timing (ne num den quiet src : Nat)
  deriving DecidableEq, Repr

/-- What start-up meets in the silicon and at the pins (R840, R843): the outcomes that the spec leaves
to the part, to its supplies and to the other devices of its table. -/
structure StartEnv where
  /-- banker slots A and B as read from MRAM pass R818 -/
  slotAValid : Bool
  slotBValid : Bool
  /-- physical slots that fail their self-test: cup × 9 + slot (R804) -/
  badSlots : List Nat
  /-- switched domains that fail power-good (R830) -/
  badDomains : List Nat
  /-- stacks that fail training (R246) -/
  badStacks : List Nat
  /-- stack temperatures at the start of training, °C (R238) -/
  stackTemps : List Int
  /-- band and control word each synthesizer locks at, and its Tj (R657); one triple for each synthesizer -/
  bands : List (Nat × Nat × Nat)
  /-- trial pace of each cup, 1/1024 lpx/ns (R128) -/
  trialPaces : List Nat
  /-- device indices this device sees over table links at RUN, with the epoch each holds and the port that leads to it
  directly, 8 for one seen through another member (R445) -/
  peers : List (Nat × Nat × Nat)
  /-- DEV_IDX pins (R867) -/
  devIndex : Nat
  /-- drives found on the root ports (R551) -/
  drives : List DriveInfo
  /-- milliseconds from the start of start-up to RUN (R841) -/
  suMs : Nat
  deriving DecidableEq, Repr, Inhabited

/-- A command. One constructor for each row of spec/opcode_table.json, in the table's order. -/
inductive Instr where
  | presentInstant (badLine : Option Nat)
  | rebandDone (syn band cw tj : Nat)
  | retrainDone (stack : Nat) (ok : Bool)
  | composeWindowOpen
  | reserveSelftestDone (cup : Nat) (ok : Bool)
  | composeDeadline
  | pushCutoff
  | pushDeadline
  | patchComposed (pip corrected : Nat)
  | patchCalibrate (quarter : Nat)
  | stealAttempt (pip : Nat)
  | pipFail (pip : Nat) (cause : PipCause)
  | handshakeTimeout (link : FabLink)
  | paceSample (counts : List Nat)
  | shortfall (quarter : Nat)
  | planRebuildDone (quarter : Nat)
  | trial (req : Nat)
  | trialDone (paces : List Nat)
  | resume (req : Nat)
  | hbmTempRead (temps : List Int)
  | hbmReadReturn (addr : Nat) (ecc : EccResult) (reader : HbmReader)
  | hbmUnlockTimeout (stack : Nat)
  | scrubDone
  | surfaceZeroFillDone
  | commit (profile : Nat)
  | ageReading (unit : Nat)
  | calLoadBodyRead (unit : Nat) (body : Option (List Byte))
  | calLoadWriteDone (unit : Nat)
  | pushFrameStart (snake : Nat)
  | underrun (snake : Nat)
  | presentFrameStart (snake pos : Nat)
  | cadenceFrameStart (snake pos : Nat)
  | ackReceived (snake : Nat) (side : LinkWord)
  | ackTimeout (snake pos seq : Nat)
  | nak (snake owner : Nat) (words : List LinkWord)
  | echo (snake owner : Nat) (words : List LinkWord)
  | holdTimeExpiry (square : Nat)
  | codewordLock (snake : Nat)
  | codewordLockLost (snake : Nat)
  | releaseWaitDone (snake : Nat)
  | enumReply (snake owner : Nat) (words : List LinkWord)
  | enumReplyTimeout (snake : Nat)
  | rttMeasureDone (snake : Nat) (sum64 : Nat)
  | sqLost (snake pos : Nat)
  | restart (snake pos : Nat)
  | measure (snake : Nat)
  | maintSend (snake : Nat)
  | maintReply (snake owner : Nat) (words : List LinkWord)
  | maintTimeout (snake : Nat)
  | snakeSynthTimeout (quad : Nat)
  | fiCtlWrite (snake offset : Nat) (value : BitVec 32)
  | snkSenseWrite (snake : Nat) (value : BitVec 32)
  | turnMessage (port : Nat) (bytes : List Byte)
  | tablePeerLost (peer : Nat)
  | hello (port : Nat) (bytes : List Byte)
  | forward (port : Nat) (hdr : TableHdr) (req : TableReq)
  | state (port : Nat) (hdr : TableHdr) (decisions : List TableDecision)
  | frame (port : Nat) (bytes : List Byte)
  | ambient (port : Nat) (hdr : TableHdr) (lux : List Nat)
  | ingestFrameReceive (port : Nat) (bytes : List Byte)
  | frameReady (chan : Nat)
  | xsSliceDecoded (chan : Nat) (result : XsResult)
  | policeWindowEnd
  | legLost (chan leg : Nat)
  | stale (chan : Nat)
  | ingestLinkChange (port : Nat) (up : Bool)
  | format
  | rescan (drives : List DriveInfo)
  | formatDone
  | driveTimeout (port : Nat)
  | driveLinkLoss (port : Nat)
  | clipFrameRead (chan : Nat) (data : List Byte)
  | clipWriteDone (poisoned : Bool)
  | dGo (value : BitVec 32)
  | directDone
  | nop (chan : Nat) (cmd : List Byte)
  | copy (chan : Nat) (cmd : List Byte)
  | fill (chan : Nat) (cmd : List Byte)
  | rop (chan : Nat) (cmd : List Byte)
  | waitPl (chan : Nat) (cmd : List Byte)
  | waitTurn (chan : Nat) (cmd : List Byte)
  | blitOpDone
  | blitOwnPoll (chan : Nat) (own : Bool)
  | blitWaitTimeout (chan : Nat)
  | blitFault
  | senseFrameReceive (snake owner : Nat) (words : List LinkWord)
  | senseStale (square : Nat)
  | healthFrameReceive (snake owner : Nat) (words : List LinkWord)
  | teleStale (square : Nat)
  | alarmSample (level0 level1 : Bool)
  | clear (value : BitVec 32)
  | ptpMessage (port : Nat) (msg : PtpMsg)
  | ptpFail
  | refInEdge (input : Nat) (errorNs : Int) (widthNs : Nat)
  | refWindowEnd (input cycles : Nat)
  | refEdgeMissing (input : Nat)
  | step (req : Nat)
  | slew (req : Nat)
  | atSecond (req : Nat)
  | secondBoundary
  | slewDone
  | lock (syn : Nat)
  | refLost (syn : Nat)
  | unlock (syn : Nat)
  | range90 (syn cw : Nat)
  | hop (syn target : Nat)
  | hopDone (syn band cw tj : Nat)
  | refModeWrite (syn : Nat) (value : BitVec 32)
  | snap (req : Nat)
  | snapDone
  | registerWrite (req offset value bytes : Nat)
  | lockSet (req offset : Nat)
  | rcRead (req offset bytes : Nat)
  | lowWordRead (req offset : Nat)
  | timeNsRead (req : Nat) (nextPres : Bool)
  | postedWriteApply (block : Nat)
  | tmrScrub (upsets : List TmrCopies)
  | pendClear (req word : Nat) (value : BitVec 32)
  | eventHoldoffEnd (event : Nat)
  | eventRingHeadWrite (req ring : Nat) (value : BitVec 32)
  | eventRingConfigWrite (req ring offset : Nat) (value : BitVec 32)
  | coalTimeout (ring : CoalRing)
  | sqDoorbell (fn queue value bytes : Nat)
  | pqPiWrite (queue value : Nat)
  | cqHeadDoorbell (fn ring value bytes : Nat)
  | blitDoorbell (fn index value bytes : Nat)
  | senseDoorbell (fn index value bytes : Nat)
  | sqCfgWrite (req queue offset : Nat) (value : BitVec 32)
  | cqCfgWrite (req ring offset : Nat) (value : BitVec 32)
  | ownPoll (queue : Nat) (own : Bool) (waited1ms : Bool)
  | fetchErr (queue : Nat)
  | fence (queue : Nat) (entry : List Byte)
  | destroy (queue : Nat) (entry : List Byte)
  | readmit (queue : Nat) (entry : List Byte)
  | layerCreate (queue : Nat) (entry : List Byte)
  | layerUpdate (queue : Nat) (entry : List Byte)
  | ingestCreate (queue : Nat) (entry : List Byte)
  | clipCreate (queue : Nat) (entry : List Byte)
  | clipUpdate (queue : Nat) (entry : List Byte)
  | blitCreate (queue : Nat) (entry : List Byte)
  | senseCreate (queue : Nat) (entry : List Byte)
  | surfaceCreate (queue : Nat) (entry : List Byte)
  | checkCreate (queue : Nat) (entry : List Byte)
  | storeLoad (queue : Nat) (entry : List Byte) (body : Option (List Byte))
  | calLoad (queue : Nat) (entry : List Byte)
  | clipWrite (queue : Nat) (entry : List Byte) (pack : Option (List Byte))
  | clipDelete (queue : Nat) (entry : List Byte)
  | surfaceWrite (queue : Nat) (entry : List Byte)
  | surfaceRead (queue : Nat) (entry : List Byte)
  | flr (fn : Nat)
  | pcieLinkLoss
  | pcieLinkUp (speed width : Nat)
  | pciePerst
  | ctrlFrameReceive (port : Nat) (bytes : List Byte)
  | read (transport : Nat) (msg : List Byte)
  | write (transport : Nat) (msg : List Byte)
  | segWrite (transport : Nat) (msg : List Byte)
  | segRead (transport : Nat) (msg : List Byte)
  | time (transport : Nat) (msg : List Byte)
  | imageLoad (role : Nat) (image : List Byte)
  | dictLockSet (role : Nat)
  | verify (role : Nat)
  | activate (role : Nat)
  | confirm (role : Nat)
  | abort (role : Nat)
  | bankerRestartCmd (role : Nat)
  | pipFailCmd (role pip : Nat)
  | warmResetCmd (role value : Nat) (env : StartEnv)
  | chainVerify (role seq : Nat)
  | send (len : Nat)
  | mbxAbort
  | segIdleTimeout (role client index sub : Nat)
  | bankerWatchdog
  | bankerRestartDone
  | substitution (pip : Nat)
  | hubOut (cup : Nat) (quarterHub xbarHalf : Bool)
  | dieTempRead (temps : List Int)
  | voltageRead (mv : List Nat)
  | wearMove
  | mramScrub (corrected : List Nat) (badLine : Option Nat)
  | ledgerSecondEnd
  | trialConfirmTimeout
  | activateRestart
  | powerOnReset (env : StartEnv)
  | warm (req : Nat) (env : StartEnv)
  | pfail
  | pfailClear (env : StartEnv)
  | autoWarmTimeout (env : StartEnv)
  | paceLoopTick
  | vcorePowerSample (mv milliAmp : Nat)
  | pmbErr
  | pmbusTimeout
  | domErr (domain : Nat)
  | domOffReqWrite (req word : Nat) (value : BitVec 32)
  | hold60s
  | fullSearch (syn band cw tj : Nat)
  | delayReq (port : Nat)
  | aerError (uncorrectable : Bool)
  | configurationSpaceWrite (w : CfgWrite)
  | driveLinkUp (drive : DriveInfo)
  | surfaceTransferDone (xfer : Nat) (data : Option (List Byte))
  deriving DecidableEq, Repr

end Sys2Proof
end

