-- ==== Sys2Proof/Decode.lean ====
section
/-! DEFINITION. The commands that words spell: none, because no row of spec/opcode_table.json gives bits. The
bytes of queue entries, frames and messages are operands, and the meanings of their commands read them. -/

namespace Sys2Proof

/-- The command that a word spells by the bits of the table: the table gives no row any. -/
def decodeTableWord (_nbits _w : Nat) : Option Instr := none

end Sys2Proof
end

