-- ==== Sys2Proof/Config.lean ====
section
/-! DEFINITION. What one part fixes for itself and what the spec leaves open: constants with no body, so
that no proof can see a value. Each has its row in notes/assumptions. -/

namespace Sys2Proof.Config

/-- Word w of the fuse bank as the part left the factory (R815): device identifier, vendor and device ID,
stepping, MAC addresses, `MON_SCALE`, trim. -/
opaque fuseWord : Nat → BitVec 32

/-- The factory key of bits [767:512], which no read returns (R815). -/
opaque factoryKey : Nat → BitVec 8

/-- A value that the spec leaves open, told apart by what it stands for and by a count of such values
used so far. -/
opaque freeValue : Nat → Nat → BitVec 64

/-- The rail that voltage monitor j reads (R800 gives 48 monitors, no assignment): 0 VCORE, 1 VSRAM, 2 VSERDES,
3 VPLL, 4 VMRAM, 5 VIO, 6 VAUX, anything else an HBM rail. -/
opaque monitorRail : Nat → Nat

/-- Windows of the HBM rails, as JEDEC HBM4 gives (R859): operating low and high, absolute low and high, in
tenths of a millivolt. -/
opaque hbmRail : Nat → Nat × Nat × Nat × Nat

/-- Fuse bit i of this part fails its verify when it is blown (R816). -/
opaque fuseFails : Nat → Bool

/-- What start-up meets at a warm reset that a write of an object asks for, by a count of open values used (R840, R851). -/
opaque startEnv : Nat → StartEnv

/-- The banker image that slot A (0) or B (1) left the factory with (R810, R817). -/
opaque shippedSlot : Nat → List Byte

end Sys2Proof.Config
end

