-- ==== Sys2Proof/Machine/Fld.lean ====
section
/-! DEFINITION. Register fields: access classes, reset values, and the shape of a row of the register map. -/

namespace Sys2Proof.Machine

/-- Access classes of R14. -/
inductive Acc where
  | rw | ro | rc | w1s | w1c | wo | rwl
  deriving DecidableEq, Repr

/-- The value of a field at reset, as its register table gives it. -/
inductive Rst where
  | lit (n : Nat)
  | rev          -- "Stepping" in a REV field: letter and digit (R7)
  | stepDigit
  | stepLetter
  | devId        -- word i of the device identifier (R8)
  | monScale     -- fused for each cup (R815)
  | fuse         -- fuse word w (R815)
  | slotMod8     -- p mod 8 for pip p (R226)
  | hopLive      -- R656
  deriving DecidableEq, Repr

/-- Fuse bits [hi:lo] within the factory words, for fields that one word or two hold (R815). -/
def fuseBits (hi lo : Nat) : Nat :=
  let w := lo / 32
  let v := (Config.fuseWord w).toNat + (Config.fuseWord (w + 1)).toNat * 2 ^ 32
  (v / 2 ^ (lo % 32)) % 2 ^ (hi - lo + 1)

/-- The reset value at the indices of a register array, outermost first. -/
def Rst.val : Rst → List Nat → Nat
  | .lit n, _ => n
  | .rev, _ => fuseBits 175 160
  | .stepDigit, _ => fuseBits 167 160
  | .stepLetter, _ => fuseBits 175 168
  | .devId, i => fuseBits (32 * i.headD 0 + 31) (32 * i.headD 0)
  | .monScale, i => fuseBits (1047 + 24 * i.headD 0) (1024 + 24 * i.headD 0)
  | .fuse, i => (Config.fuseWord (i.headD 0)).toNat
  | .slotMod8, i => i.headD 0 % 8
  | .hopLive, i => let s := i.headD 0; if s = 0 ∨ (73 ≤ s ∧ s ≤ 80) then 0 else 1

/-- A named register field: canonical address of its register, top and bottom bit, value at reset. -/
structure Fld where
  addr : Nat
  hi : Nat
  lo : Nat
  rst : Nat
  deriving DecidableEq, Repr

/-- A field of a row of the register map. -/
structure FieldDef where
  hi : Nat
  lo : Nat
  acc : Acc
  rst : Rst
  min : Nat
  max : Nat
  step : Nat
  deriving DecidableEq, Repr

/-- A row of the register map: address of the first register, strides and counts of the arrays it stands
in (outermost first), whether it is 64 bits wide, whether it is triplicated, its fields. -/
structure RegRow where
  addr : Nat
  dims : List (Nat × Nat)
  wide : Bool
  tmr : Bool
  fields : List FieldDef
  deriving DecidableEq, Repr

/-- A run of SNAP holding registers and the counters that they hold. -/
structure SnapRow where
  hold : Nat
  dims : List (Nat × Nat)
  counter : Nat
  count : Nat
  deriving DecidableEq, Repr

end Sys2Proof.Machine
end

