-- ==== Sys2Proof/Machine/RegMap.lean ====
section
/-! DEFINITION. The register map: every register that the tables of spec/ list, with its address, the strides and
counts of the arrays it stands in, its width, whether it is triplicated, and for each field its bits, access
class (R14), reset value and the range the table states (minimum, maximum, step). Offsets that no row lists
read as 0 and ignore writes. -/

namespace Sys2Proof.Machine

/-- The global block, R745. -/
def regRows0_0 : List RegRow := [
  ⟨0x0, [], false, false,
    [⟨31, 16, .ro, .lit 0xa00, 0, 65535, 1⟩,
     ⟨15, 0, .ro, .rev, 0, 65535, 1⟩]⟩,
  ⟨0x4, [], false, false,
    [⟨0, 0, .w1s, .lit 0, 0, 1, 1⟩]⟩,
  ⟨0x8, [], false, true,
    [⟨15, 0, .rwl, .lit 0, 0, 65535, 1⟩]⟩,
  ⟨0xc, [], false, false,
    [⟨0, 0, .rc, .lit 0, 0, 1, 1⟩,
     ⟨1, 1, .rc, .lit 0, 0, 1, 1⟩,
     ⟨2, 2, .rc, .lit 0, 0, 1, 1⟩,
     ⟨3, 3, .rc, .lit 0, 0, 1, 1⟩,
     ⟨4, 4, .rc, .lit 0, 0, 1, 1⟩,
     ⟨5, 5, .rc, .lit 0, 0, 1, 1⟩]⟩,
  ⟨0x10, [], false, false,
    [⟨0, 0, .wo, .lit 0, 0, 1, 1⟩]⟩,
  ⟨0x14, [], false, false,
    [⟨0, 0, .ro, .lit 0, 0, 1, 1⟩]⟩,
  ⟨0x18, [], false, false,
    [⟨19, 0, .ro, .lit 0, 0, 0xfffff, 1⟩,
     ⟨24, 20, .ro, .lit 0, 0, 31, 1⟩,
     ⟨30, 25, .ro, .lit 0, 0, 63, 1⟩]⟩,
  ⟨0x1c, [], false, false,
    [⟨31, 0, .ro, .lit 0, 0, 0xffffffff, 1⟩]⟩,
  ⟨0x20, [], false, false,
    [⟨1, 0, .ro, .lit 0, 0, 3, 1⟩]⟩,
  ⟨0x28, [], true, false,
    [⟨63, 0, .ro, .lit 0, 0, 0xffffffffffffffff, 1⟩]⟩,
  ⟨0x30, [], false, false,
    [⟨7, 0, .ro, .stepDigit, 0, 255, 1⟩,
     ⟨15, 8, .ro, .stepLetter, 0, 255, 1⟩]⟩,
  ⟨0x40, [(0x4, 4)], false, false,
    [⟨31, 0, .ro, .devId, 0, 0xffffffff, 1⟩]⟩,
  ⟨0x100, [], true, false,
    [⟨63, 0, .ro, .lit 0, 0, 0xffffffffffffffff, 1⟩]⟩,
  ⟨0x108, [], true, false,
    [⟨63, 0, .ro, .lit 0, 0, 0xffffffffffffffff, 1⟩]⟩,
  ⟨0x110, [], true, false,
    [⟨63, 0, .ro, .lit 0, 0, 0xffffffffffffffff, 1⟩]⟩,
  ⟨0x118, [], true, false,
    [⟨63, 0, .ro, .lit 0, 0, 0xffffffffffffffff, 1⟩]⟩,
  ⟨0x180, [(0x8, 4)], true, false,
    [⟨63, 0, .ro, .lit 0, 0, 0xffffffffffffffff, 1⟩]⟩]

/-- The event block, R760. -/
def regRows1_0 : List RegRow := [
  ⟨0x100000, [], false, false,
    [⟨31, 16, .ro, .lit 0xa01, 0, 65535, 1⟩,
     ⟨15, 0, .ro, .rev, 0, 65535, 1⟩]⟩,
  ⟨0x100004, [], false, false,
    [⟨0, 0, .w1s, .lit 0, 0, 1, 1⟩]⟩,
  ⟨0x100008, [], false, true,
    [⟨0, 0, .rwl, .lit 1, 0, 1, 1⟩]⟩,
  ⟨0x10000c, [], false, false,
    [⟨0, 0, .rc, .lit 0, 0, 1, 1⟩,
     ⟨1, 1, .rc, .lit 0, 0, 1, 1⟩,
     ⟨2, 2, .rc, .lit 0, 0, 1, 1⟩,
     ⟨3, 3, .rc, .lit 0, 0, 1, 1⟩,
     ⟨4, 4, .rc, .lit 0, 0, 1, 1⟩,
     ⟨5, 5, .rc, .lit 0, 0, 1, 1⟩,
     ⟨6, 6, .rc, .lit 0, 0, 1, 1⟩]⟩,
  ⟨0x100100, [], true, false,
    [⟨63, 0, .ro, .lit 0, 0, 0xffffffffffffffff, 1⟩]⟩,
  ⟨0x100108, [], true, false,
    [⟨63, 0, .ro, .lit 0, 0, 0xffffffffffffffff, 1⟩]⟩,
  ⟨0x100110, [], true, false,
    [⟨63, 0, .ro, .lit 0, 0, 0xffffffffffffffff, 1⟩]⟩,
  ⟨0x100118, [], true, false,
    [⟨63, 0, .ro, .lit 0, 0, 0xffffffffffffffff, 1⟩]⟩,
  ⟨0x100200, [(0x4, 32)], false, false,
    [⟨31, 0, .w1c, .lit 0, 0, 0xffffffff, 1⟩]⟩,
  ⟨0x100400, [(0x20, 32)], false, false,
    [⟨31, 0, .rw, .lit 0, 0, 0xffffffff, 1⟩]⟩,
  ⟨0x100404, [(0x20, 32)], false, false,
    [⟨31, 0, .rw, .lit 0, 0, 0xffffffff, 1⟩]⟩,
  ⟨0x100408, [(0x20, 32)], false, false,
    [⟨4, 0, .rw, .lit 4, 0, 31, 1⟩,
     ⟨5, 5, .rw, .lit 0, 0, 1, 1⟩,
     ⟨6, 6, .rw, .lit 0, 0, 1, 1⟩,
     ⟨17, 7, .rw, .lit 0, 0, 2047, 1⟩]⟩,
  ⟨0x10040c, [(0x20, 32)], false, false,
    [⟨8, 0, .rw, .lit 1, 1, 256, 1⟩,
     ⟨18, 9, .rw, .lit 0, 0, 1000, 1⟩]⟩,
  ⟨0x100410, [(0x20, 32)], false, false,
    [⟨15, 0, .ro, .lit 0, 0, 65535, 1⟩,
     ⟨31, 16, .rw, .lit 0, 0, 65535, 1⟩]⟩,
  ⟨0x100414, [(0x20, 32)], false, false,
    [⟨0, 0, .ro, .lit 1, 0, 1, 1⟩,
     ⟨1, 1, .rc, .lit 0, 0, 1, 1⟩]⟩,
  ⟨0x101000, [(0x4, 1024)], false, true,
    [⟨0, 0, .rwl, .lit 1, 0, 1, 1⟩,
     ⟨1, 1, .rwl, .lit 0, 0, 1, 1⟩,
     ⟨6, 2, .rwl, .lit 0, 0, 31, 1⟩,
     ⟨17, 7, .rwl, .lit 0, 0, 2047, 1⟩,
     ⟨18, 18, .rwl, .lit 0, 0, 1, 1⟩,
     ⟨23, 19, .rwl, .lit 0, 0, 31, 1⟩,
     ⟨24, 24, .rwl, .lit 1, 0, 1, 1⟩,
     ⟨28, 25, .rwl, .lit 0, 0, 15, 1⟩]⟩,
  ⟨0x100180, [(0x8, 4)], true, false,
    [⟨63, 0, .ro, .lit 0, 0, 0xffffffffffffffff, 1⟩]⟩]

/-- The queue block, R714. -/
def regRows2_0 : List RegRow := [
  ⟨0x200000, [], false, false,
    [⟨31, 16, .ro, .lit 0xa02, 0, 65535, 1⟩,
     ⟨15, 0, .ro, .rev, 0, 65535, 1⟩]⟩,
  ⟨0x200004, [], false, false,
    [⟨0, 0, .w1s, .lit 0, 0, 1, 1⟩]⟩,
  ⟨0x200008, [], false, true,
    [⟨0, 0, .rwl, .lit 1, 0, 1, 1⟩,
     ⟨8, 1, .rwl, .lit 0x40, 1, 255, 1⟩]⟩,
  ⟨0x20000c, [], false, false,
    [⟨0, 0, .rc, .lit 0, 0, 1, 1⟩,
     ⟨1, 1, .rc, .lit 0, 0, 1, 1⟩,
     ⟨2, 2, .rc, .lit 0, 0, 1, 1⟩,
     ⟨3, 3, .rc, .lit 0, 0, 1, 1⟩,
     ⟨4, 4, .rc, .lit 0, 0, 1, 1⟩,
     ⟨5, 5, .rc, .lit 0, 0, 1, 1⟩,
     ⟨6, 6, .rc, .lit 0, 0, 1, 1⟩,
     ⟨7, 7, .rc, .lit 0, 0, 1, 1⟩,
     ⟨8, 8, .rc, .lit 0, 0, 1, 1⟩,
     ⟨9, 9, .rc, .lit 0, 0, 1, 1⟩,
     ⟨10, 10, .rc, .lit 0, 0, 1, 1⟩]⟩,
  ⟨0x200010, [], false, false,
    [⟨3, 0, .ro, .lit 0, 0, 15, 1⟩,
     ⟨8, 4, .ro, .lit 0, 0, 31, 1⟩,
     ⟨9, 9, .ro, .lit 0, 0, 1, 1⟩,
     ⟨14, 10, .ro, .lit 0, 0, 31, 1⟩]⟩,
  ⟨0x200100, [], true, false,
    [⟨63, 0, .ro, .lit 0, 0, 0xffffffffffffffff, 1⟩]⟩,
  ⟨0x200108, [], true, false,
    [⟨63, 0, .ro, .lit 0, 0, 0xffffffffffffffff, 1⟩]⟩,
  ⟨0x200110, [], true, false,
    [⟨63, 0, .ro, .lit 0, 0, 0xffffffffffffffff, 1⟩]⟩,
  ⟨0x200118, [], true, false,
    [⟨63, 0, .ro, .lit 0, 0, 0xffffffffffffffff, 1⟩]⟩,
  ⟨0x200120, [], true, false,
    [⟨63, 0, .ro, .lit 0, 0, 0xffffffffffffffff, 1⟩]⟩,
  ⟨0x200128, [], true, false,
    [⟨63, 0, .ro, .lit 0, 0, 0xffffffffffffffff, 1⟩]⟩,
  ⟨0x200200, [(0x4, 32)], false, false,
    [⟨31, 0, .rc, .lit 0, 0, 0xffffffff, 1⟩]⟩,
  ⟨0x200280, [(0x4, 8)], false, false,
    [⟨31, 0, .rc, .lit 0, 0, 0xffffffff, 1⟩]⟩,
  ⟨0x210000, [(0x20, 1024)], false, false,
    [⟨31, 0, .rw, .lit 0, 0, 0xffffffff, 1⟩]⟩,
  ⟨0x210004, [(0x20, 1024)], false, false,
    [⟨31, 0, .rw, .lit 0, 0, 0xffffffff, 1⟩]⟩,
  ⟨0x210008, [(0x20, 1024)], false, false,
    [⟨4, 0, .rw, .lit 4, 0, 31, 1⟩,
     ⟨7, 5, .rw, .lit 0, 0, 7, 1⟩,
     ⟨8, 8, .rw, .lit 0, 0, 1, 1⟩,
     ⟨9, 9, .rw, .lit 0, 0, 1, 1⟩]⟩,
  ⟨0x21000c, [(0x20, 1024)], false, false,
    [⟨7, 0, .rwl, .lit 1, 1, 255, 1⟩,
     ⟨14, 8, .rwl, .lit 8, 1, 64, 1⟩]⟩,
  ⟨0x210010, [(0x20, 1024)], false, false,
    [⟨1, 0, .ro, .lit 0, 0, 3, 1⟩,
     ⟨31, 16, .ro, .lit 0, 0, 65535, 1⟩]⟩,
  ⟨0x210014, [(0x20, 1024)], false, false,
    [⟨15, 0, .ro, .lit 0, 0, 65535, 1⟩,
     ⟨23, 16, .ro, .lit 0, 0, 255, 1⟩]⟩,
  ⟨0x210018, [(0x20, 1024)], false, false,
    [⟨0, 0, .rc, .lit 0, 0, 1, 1⟩,
     ⟨1, 1, .rc, .lit 0, 0, 1, 1⟩,
     ⟨2, 2, .rc, .lit 0, 0, 1, 1⟩,
     ⟨3, 3, .rc, .lit 0, 0, 1, 1⟩,
     ⟨4, 4, .rc, .lit 0, 0, 1, 1⟩]⟩,
  ⟨0x218000, [(0x20, 256)], false, false,
    [⟨31, 0, .rw, .lit 0, 0, 0xffffffff, 1⟩]⟩,
  ⟨0x218004, [(0x20, 256)], false, false,
    [⟨31, 0, .rw, .lit 0, 0, 0xffffffff, 1⟩]⟩,
  ⟨0x218008, [(0x20, 256)], false, false,
    [⟨4, 0, .rw, .lit 4, 0, 31, 1⟩,
     ⟨5, 5, .rw, .lit 0, 0, 1, 1⟩,
     ⟨6, 6, .rw, .lit 0, 0, 1, 1⟩,
     ⟨17, 7, .rw, .lit 0, 0, 2047, 1⟩]⟩,
  ⟨0x21800c, [(0x20, 256)], false, false,
    [⟨8, 0, .rw, .lit 1, 1, 256, 1⟩,
     ⟨18, 9, .rw, .lit 0, 0, 1000, 1⟩]⟩,
  ⟨0x218010, [(0x20, 256)], false, false,
    [⟨15, 0, .ro, .lit 0, 0, 65535, 1⟩,
     ⟨31, 16, .ro, .lit 0, 0, 65535, 1⟩]⟩,
  ⟨0x218014, [(0x20, 256)], false, false,
    [⟨0, 0, .ro, .lit 1, 0, 1, 1⟩,
     ⟨9, 1, .ro, .lit 0, 0, 511, 1⟩,
     ⟨25, 10, .ro, .lit 0, 0, 65535, 1⟩]⟩,
  ⟨0x218018, [(0x20, 256)], false, false,
    [⟨0, 0, .rc, .lit 0, 0, 1, 1⟩,
     ⟨1, 1, .rc, .lit 0, 0, 1, 1⟩,
     ⟨2, 2, .rc, .lit 0, 0, 1, 1⟩,
     ⟨3, 3, .rc, .lit 0, 0, 1, 1⟩]⟩,
  ⟨0x21a000, [(0x20, 8)], false, false,
    [⟨31, 0, .rw, .lit 0, 0, 0xffffffff, 1⟩]⟩,
  ⟨0x21a004, [(0x20, 8)], false, false,
    [⟨31, 0, .rw, .lit 0, 0, 0xffffffff, 1⟩]⟩,
  ⟨0x21a008, [(0x20, 8)], false, false,
    [⟨4, 0, .rw, .lit 4, 0, 31, 1⟩,
     ⟨7, 5, .rw, .lit 0, 0, 7, 1⟩,
     ⟨8, 8, .rw, .lit 0, 0, 1, 1⟩,
     ⟨9, 9, .rw, .lit 0, 0, 1, 1⟩]⟩]

/-- The queue block, R714, continued. -/
def regRows2_1 : List RegRow := [
  ⟨0x21a00c, [(0x20, 8)], false, false,
    [⟨15, 0, .rw, .lit 0, 0, 65535, 1⟩]⟩,
  ⟨0x21a010, [(0x20, 8)], false, false,
    [⟨1, 0, .ro, .lit 0, 0, 3, 1⟩,
     ⟨31, 16, .ro, .lit 0, 0, 65535, 1⟩]⟩,
  ⟨0x21a014, [(0x20, 8)], false, false,
    [⟨7, 0, .ro, .lit 0, 0, 255, 1⟩]⟩,
  ⟨0x21a018, [(0x20, 8)], false, false,
    [⟨0, 0, .rc, .lit 0, 0, 1, 1⟩,
     ⟨2, 2, .rc, .lit 0, 0, 1, 1⟩,
     ⟨3, 3, .rc, .lit 0, 0, 1, 1⟩,
     ⟨4, 4, .rc, .lit 0, 0, 1, 1⟩]⟩,
  ⟨0x200180, [(0x8, 6)], true, false,
    [⟨63, 0, .ro, .lit 0, 0, 0xffffffffffffffff, 1⟩]⟩]

/-- The admission block, R181. -/
def regRows3_0 : List RegRow := [
  ⟨0x300000, [], false, false,
    [⟨31, 16, .ro, .lit 0xa03, 0, 65535, 1⟩,
     ⟨15, 0, .ro, .rev, 0, 65535, 1⟩]⟩,
  ⟨0x300004, [], false, false,
    [⟨0, 0, .w1s, .lit 0, 0, 1, 1⟩]⟩,
  ⟨0x300008, [], false, false,
    [⟨9, 0, .rwl, .lit 0x384, 720, 900, 10⟩,
     ⟨14, 10, .rwl, .lit 4, 1, 16, 1⟩,
     ⟨25, 16, .rwl, .lit 0x40, 8, 1000, 1⟩]⟩,
  ⟨0x30000c, [], false, false,
    [⟨3, 0, .wo, .lit 0, 0, 15, 1⟩]⟩,
  ⟨0x300010, [], false, false,
    [⟨2, 0, .ro, .lit 0, 0, 7, 1⟩,
     ⟨3, 3, .ro, .lit 0, 0, 1, 1⟩]⟩,
  ⟨0x300014, [], false, false,
    [⟨0, 0, .rc, .lit 0, 0, 1, 1⟩,
     ⟨1, 1, .rc, .lit 0, 0, 1, 1⟩,
     ⟨2, 2, .rc, .lit 0, 0, 1, 1⟩,
     ⟨3, 3, .rc, .lit 0, 0, 1, 1⟩,
     ⟨4, 4, .rc, .lit 0, 0, 1, 1⟩,
     ⟨5, 5, .rc, .lit 0, 0, 1, 1⟩,
     ⟨6, 6, .rc, .lit 0, 0, 1, 1⟩,
     ⟨7, 7, .rc, .lit 0, 0, 1, 1⟩,
     ⟨8, 8, .rc, .lit 0, 0, 1, 1⟩,
     ⟨9, 9, .rc, .lit 0, 0, 1, 1⟩,
     ⟨10, 10, .rc, .lit 0, 0, 1, 1⟩]⟩,
  ⟨0x300018, [], false, false,
    [⟨7, 0, .ro, .lit 0, 0, 255, 1⟩,
     ⟨15, 8, .ro, .lit 0, 0, 255, 1⟩,
     ⟨19, 16, .ro, .lit 0, 0, 15, 1⟩,
     ⟨27, 20, .ro, .lit 0, 0, 255, 1⟩,
     ⟨30, 28, .ro, .lit 0, 0, 7, 1⟩,
     ⟨31, 31, .ro, .lit 0, 0, 1, 1⟩]⟩,
  ⟨0x30001c, [], false, false,
    [⟨31, 0, .ro, .lit 0, 0, 0xffffffff, 1⟩]⟩,
  ⟨0x300020, [(0x4, 4)], false, false,
    [⟨15, 0, .ro, .lit 0, 0, 65535, 1⟩,
     ⟨23, 16, .ro, .lit 0x40, 0, 255, 1⟩]⟩,
  ⟨0x300030, [(0x4, 4)], false, false,
    [⟨15, 0, .ro, .lit 0, 0, 65535, 1⟩]⟩,
  ⟨0x300040, [(0x4, 4)], false, false,
    [⟨31, 0, .ro, .lit 0, 0, 0xffffffff, 1⟩]⟩,
  ⟨0x300050, [(0x4, 8)], false, false,
    [⟨31, 0, .ro, .lit 0, 0, 0xffffffff, 1⟩]⟩,
  ⟨0x300070, [(0x4, 8)], false, false,
    [⟨15, 0, .ro, .lit 0, 0, 65535, 1⟩,
     ⟨31, 16, .ro, .lit 0, 0, 65535, 1⟩]⟩,
  ⟨0x300100, [], true, false,
    [⟨63, 0, .ro, .lit 0, 0, 0xffffffffffffffff, 1⟩]⟩,
  ⟨0x300108, [], true, false,
    [⟨63, 0, .ro, .lit 0, 0, 0xffffffffffffffff, 1⟩]⟩,
  ⟨0x300110, [], true, false,
    [⟨63, 0, .ro, .lit 0, 0, 0xffffffffffffffff, 1⟩]⟩,
  ⟨0x300118, [], true, false,
    [⟨63, 0, .ro, .lit 0, 0, 0xffffffffffffffff, 1⟩]⟩,
  ⟨0x300120, [], true, false,
    [⟨63, 0, .ro, .lit 0, 0, 0xffffffffffffffff, 1⟩]⟩,
  ⟨0x300128, [], true, false,
    [⟨63, 0, .ro, .lit 0, 0, 0xffffffffffffffff, 1⟩]⟩,
  ⟨0x300180, [(0x8, 6)], true, false,
    [⟨63, 0, .ro, .lit 0, 0, 0xffffffffffffffff, 1⟩]⟩]

/-- The fabric and pips block, R226. -/
def regRows4_0 : List RegRow := [
  ⟨0x400000, [], false, false,
    [⟨31, 16, .ro, .lit 0xa04, 0, 65535, 1⟩,
     ⟨15, 0, .ro, .rev, 0, 65535, 1⟩]⟩,
  ⟨0x400004, [], false, false,
    [⟨0, 0, .w1s, .lit 0, 0, 1, 1⟩]⟩,
  ⟨0x400008, [], false, false,
    [⟨0, 0, .ro, .lit 0, 0, 1, 1⟩,
     ⟨1, 1, .rc, .lit 0, 0, 1, 1⟩]⟩,
  ⟨0x40000c, [], false, true,
    [⟨0, 0, .rwl, .lit 1, 0, 1, 1⟩,
     ⟨1, 1, .rwl, .lit 1, 0, 1, 1⟩,
     ⟨25, 16, .rwl, .lit 0x64, 20, 1000, 1⟩]⟩,
  ⟨0x400010, [], false, false,
    [⟨0, 0, .rc, .lit 0, 0, 1, 1⟩,
     ⟨1, 1, .rc, .lit 0, 0, 1, 1⟩,
     ⟨2, 2, .rc, .lit 0, 0, 1, 1⟩,
     ⟨3, 3, .rc, .lit 0, 0, 1, 1⟩,
     ⟨4, 4, .rc, .lit 0, 0, 1, 1⟩,
     ⟨5, 5, .rc, .lit 0, 0, 1, 1⟩]⟩,
  ⟨0x400020, [(0x4, 4)], false, false,
    [⟨7, 0, .ro, .lit 0x40, 0, 255, 1⟩,
     ⟨15, 8, .ro, .lit 8, 0, 255, 1⟩]⟩,
  ⟨0x400030, [(0x4, 4)], false, false,
    [⟨20, 0, .ro, .lit 0, 0, 0x1fffff, 1⟩,
     ⟨31, 21, .ro, .lit 0, 0, 2047, 1⟩]⟩,
  ⟨0x400100, [], true, false,
    [⟨63, 0, .ro, .lit 0, 0, 0xffffffffffffffff, 1⟩]⟩,
  ⟨0x400108, [], true, false,
    [⟨63, 0, .ro, .lit 0, 0, 0xffffffffffffffff, 1⟩]⟩,
  ⟨0x400110, [], true, false,
    [⟨63, 0, .ro, .lit 0, 0, 0xffffffffffffffff, 1⟩]⟩,
  ⟨0x400118, [], true, false,
    [⟨63, 0, .ro, .lit 0, 0, 0xffffffffffffffff, 1⟩]⟩,
  ⟨0x400120, [], true, false,
    [⟨63, 0, .ro, .lit 0, 0, 0xffffffffffffffff, 1⟩]⟩,
  ⟨0x401000, [(0x100, 32)], false, true,
    [⟨31, 0, .ro, .lit 0x76543210, 0, 0xffffffff, 1⟩]⟩,
  ⟨0x401004, [(0x100, 32)], false, false,
    [⟨7, 0, .ro, .lit 0xff, 0, 255, 1⟩,
     ⟨8, 8, .ro, .lit 1, 0, 1, 1⟩,
     ⟨9, 9, .ro, .lit 0, 0, 1, 1⟩]⟩,
  ⟨0x401008, [(0x100, 32)], false, false,
    [⟨0, 0, .rc, .lit 0, 0, 1, 1⟩,
     ⟨1, 1, .rc, .lit 0, 0, 1, 1⟩,
     ⟨2, 2, .rc, .lit 0, 0, 1, 1⟩,
     ⟨3, 3, .rc, .lit 0, 0, 1, 1⟩,
     ⟨4, 4, .rc, .lit 0, 0, 1, 1⟩,
     ⟨5, 5, .rc, .lit 0, 0, 1, 1⟩,
     ⟨6, 6, .rc, .lit 0, 0, 1, 1⟩]⟩,
  ⟨0x40100c, [(0x100, 32)], false, false,
    [⟨15, 0, .ro, .lit 0, 0, 65535, 1⟩,
     ⟨16, 16, .ro, .lit 0, 0, 1, 1⟩]⟩,
  ⟨0x401010, [(0x100, 32)], false, false,
    [⟨15, 0, .rc, .lit 0xffff, 0, 65535, 1⟩]⟩,
  ⟨0x401014, [(0x100, 32)], false, false,
    [⟨15, 0, .rc, .lit 0, 0, 65535, 1⟩]⟩,
  ⟨0x401018, [(0x100, 32)], false, false,
    [⟨15, 0, .ro, .lit 0, 0, 65535, 1⟩]⟩,
  ⟨0x40101c, [(0x100, 32)], false, false,
    [⟨23, 0, .ro, .monScale, 0, 0xffffff, 1⟩]⟩,
  ⟨0x401040, [(0x100, 32)], true, false,
    [⟨63, 0, .ro, .lit 0, 0, 0xffffffffffffffff, 1⟩]⟩,
  ⟨0x401048, [(0x100, 32)], true, false,
    [⟨63, 0, .ro, .lit 0, 0, 0xffffffffffffffff, 1⟩]⟩,
  ⟨0x401050, [(0x100, 32)], true, false,
    [⟨63, 0, .ro, .lit 0, 0, 0xffffffffffffffff, 1⟩]⟩,
  ⟨0x410000, [(0x100, 256)], false, false,
    [⟨2, 0, .ro, .lit 0, 0, 7, 1⟩,
     ⟨7, 4, .ro, .slotMod8, 0, 15, 1⟩,
     ⟨9, 8, .ro, .lit 0, 0, 3, 1⟩]⟩,
  ⟨0x410004, [(0x100, 256)], false, false,
    [⟨0, 0, .rc, .lit 0, 0, 1, 1⟩,
     ⟨1, 1, .rc, .lit 0, 0, 1, 1⟩,
     ⟨2, 2, .rc, .lit 0, 0, 1, 1⟩]⟩,
  ⟨0x410008, [(0x100, 256)], false, false,
    [⟨15, 0, .ro, .lit 0, 0, 65535, 1⟩,
     ⟨31, 16, .ro, .lit 0, 0, 65535, 1⟩]⟩,
  ⟨0x410040, [(0x100, 256)], true, false,
    [⟨63, 0, .ro, .lit 0, 0, 0xffffffffffffffff, 1⟩]⟩,
  ⟨0x410048, [(0x100, 256)], true, false,
    [⟨63, 0, .ro, .lit 0, 0, 0xffffffffffffffff, 1⟩]⟩,
  ⟨0x410050, [(0x100, 256)], true, false,
    [⟨63, 0, .ro, .lit 0, 0, 0xffffffffffffffff, 1⟩]⟩,
  ⟨0x400180, [(0x8, 5)], true, false,
    [⟨63, 0, .ro, .lit 0, 0, 0xffffffffffffffff, 1⟩]⟩]

/-- The fabric and pips block, R226, continued. -/
def regRows4_1 : List RegRow := [
  ⟨0x401080, [(0x100, 32), (0x8, 3)], true, false,
    [⟨63, 0, .ro, .lit 0, 0, 0xffffffffffffffff, 1⟩]⟩,
  ⟨0x410080, [(0x100, 256), (0x8, 3)], true, false,
    [⟨63, 0, .ro, .lit 0, 0, 0xffffffffffffffff, 1⟩]⟩]

/-- The memory block, R279. -/
def regRows5_0 : List RegRow := [
  ⟨0x500000, [], false, false,
    [⟨31, 16, .ro, .lit 0xa05, 0, 65535, 1⟩,
     ⟨15, 0, .ro, .rev, 0, 65535, 1⟩]⟩,
  ⟨0x500004, [], false, false,
    [⟨0, 0, .w1s, .lit 0, 0, 1, 1⟩]⟩,
  ⟨0x500008, [], false, true,
    [⟨0, 0, .rwl, .lit 1, 0, 1, 1⟩,
     ⟨15, 8, .rwl, .lit 0x18, 1, 168, 1⟩,
     ⟨31, 16, .rwl, .lit 0x400, 1, 65535, 1⟩]⟩,
  ⟨0x50000c, [], false, false,
    [⟨0, 0, .rc, .lit 0, 0, 1, 1⟩,
     ⟨1, 1, .rc, .lit 0, 0, 1, 1⟩,
     ⟨2, 2, .rc, .lit 0, 0, 1, 1⟩,
     ⟨3, 3, .rc, .lit 0, 0, 1, 1⟩,
     ⟨4, 4, .rc, .lit 0, 0, 1, 1⟩,
     ⟨5, 5, .rc, .lit 0, 0, 1, 1⟩]⟩,
  ⟨0x500020, [(0x8, 8)], true, false,
    [⟨63, 0, .ro, .lit 0x9f0000000, 0, 0xffffffffffffffff, 1⟩]⟩,
  ⟨0x500060, [(0x8, 8)], true, false,
    [⟨63, 0, .ro, .lit 0x9f0000000, 0, 0xffffffffffffffff, 1⟩]⟩,
  ⟨0x500100, [], true, false,
    [⟨63, 0, .ro, .lit 0, 0, 0xffffffffffffffff, 1⟩]⟩,
  ⟨0x500108, [], true, false,
    [⟨63, 0, .ro, .lit 0, 0, 0xffffffffffffffff, 1⟩]⟩,
  ⟨0x500110, [], true, false,
    [⟨63, 0, .ro, .lit 0, 0, 0xffffffffffffffff, 1⟩]⟩,
  ⟨0x500118, [], true, false,
    [⟨63, 0, .ro, .lit 0, 0, 0xffffffffffffffff, 1⟩]⟩,
  ⟨0x501000, [(0x100, 8)], false, false,
    [⟨2, 0, .ro, .lit 0, 0, 7, 1⟩,
     ⟨3, 3, .ro, .lit 0, 0, 1, 1⟩,
     ⟨5, 4, .ro, .lit 0, 0, 3, 1⟩,
     ⟨15, 8, .ro, .lit 0, 0, 255, 1⟩,
     ⟨23, 16, .ro, .lit 0, 0, 255, 1⟩]⟩,
  ⟨0x501004, [(0x100, 8)], false, false,
    [⟨0, 0, .rc, .lit 0, 0, 1, 1⟩,
     ⟨1, 1, .rc, .lit 0, 0, 1, 1⟩,
     ⟨2, 2, .rc, .lit 0, 0, 1, 1⟩,
     ⟨3, 3, .rc, .lit 0, 0, 1, 1⟩,
     ⟨4, 4, .rc, .lit 0, 0, 1, 1⟩,
     ⟨5, 5, .rc, .lit 0, 0, 1, 1⟩,
     ⟨6, 6, .rc, .lit 0, 0, 1, 1⟩]⟩,
  ⟨0x501008, [(0x100, 8)], false, false,
    [⟨31, 0, .ro, .lit 0, 0, 0xffffffff, 1⟩]⟩,
  ⟨0x50100c, [(0x100, 8)], false, false,
    [⟨6, 0, .ro, .lit 0, 0, 127, 1⟩]⟩,
  ⟨0x501010, [(0x100, 8)], false, false,
    [⟨31, 0, .ro, .lit 0, 0, 0xffffffff, 1⟩]⟩,
  ⟨0x501040, [(0x100, 8)], true, false,
    [⟨63, 0, .ro, .lit 0, 0, 0xffffffffffffffff, 1⟩]⟩,
  ⟨0x501048, [(0x100, 8)], true, false,
    [⟨63, 0, .ro, .lit 0, 0, 0xffffffffffffffff, 1⟩]⟩,
  ⟨0x501050, [(0x100, 8)], true, false,
    [⟨63, 0, .ro, .lit 0, 0, 0xffffffffffffffff, 1⟩]⟩,
  ⟨0x501058, [(0x100, 8)], true, false,
    [⟨63, 0, .ro, .lit 0, 0, 0xffffffffffffffff, 1⟩]⟩,
  ⟨0x501060, [(0x100, 8)], true, false,
    [⟨63, 0, .ro, .lit 0, 0, 0xffffffffffffffff, 1⟩]⟩,
  ⟨0x500180, [(0x8, 4)], true, false,
    [⟨63, 0, .ro, .lit 0, 0, 0xffffffffffffffff, 1⟩]⟩,
  ⟨0x501080, [(0x100, 8), (0x8, 5)], true, false,
    [⟨63, 0, .ro, .lit 0, 0, 0xffffffffffffffff, 1⟩]⟩]

/-- The composition block, R342. -/
def regRows6_0 : List RegRow := [
  ⟨0x600000, [], false, false,
    [⟨31, 16, .ro, .lit 0xa06, 0, 65535, 1⟩,
     ⟨15, 0, .ro, .rev, 0, 65535, 1⟩]⟩,
  ⟨0x600004, [], false, false,
    [⟨0, 0, .w1s, .lit 0, 0, 1, 1⟩]⟩,
  ⟨0x600008, [], false, false,
    [⟨0, 0, .ro, .lit 0, 0, 1, 1⟩,
     ⟨1, 1, .rc, .lit 0, 0, 1, 1⟩]⟩,
  ⟨0x60000c, [], false, true,
    [⟨0, 0, .rwl, .lit 1, 0, 1, 1⟩,
     ⟨1, 1, .rwl, .lit 0, 0, 1, 1⟩,
     ⟨2, 2, .rwl, .lit 1, 0, 1, 1⟩]⟩,
  ⟨0x600010, [], false, false,
    [⟨0, 0, .rc, .lit 0, 0, 1, 1⟩,
     ⟨1, 1, .rc, .lit 0, 0, 1, 1⟩,
     ⟨2, 2, .rc, .lit 0, 0, 1, 1⟩,
     ⟨3, 3, .rc, .lit 0, 0, 1, 1⟩,
     ⟨4, 4, .rc, .lit 0, 0, 1, 1⟩,
     ⟨5, 5, .rc, .lit 0, 0, 1, 1⟩,
     ⟨6, 6, .rc, .lit 0, 0, 1, 1⟩,
     ⟨7, 7, .rc, .lit 0, 0, 1, 1⟩,
     ⟨8, 8, .rc, .lit 0, 0, 1, 1⟩,
     ⟨9, 9, .rc, .lit 0, 0, 1, 1⟩]⟩,
  ⟨0x600020, [], false, false,
    [⟨31, 0, .ro, .lit 0x1ff, 0, 0xffffffff, 1⟩]⟩,
  ⟨0x600024, [], false, false,
    [⟨15, 0, .ro, .lit 0xf, 0, 65535, 1⟩]⟩,
  ⟨0x600028, [], true, false,
    [⟨63, 0, .ro, .lit 0x7f, 0, 0xffffffffffffffff, 1⟩]⟩,
  ⟨0x600030, [], false, false,
    [⟨31, 0, .ro, .lit 0, 0, 0xffffffff, 1⟩]⟩,
  ⟨0x600100, [], true, false,
    [⟨63, 0, .ro, .lit 0, 0, 0xffffffffffffffff, 1⟩]⟩,
  ⟨0x600108, [], true, false,
    [⟨63, 0, .ro, .lit 0, 0, 0xffffffffffffffff, 1⟩]⟩,
  ⟨0x600110, [], true, false,
    [⟨63, 0, .ro, .lit 0, 0, 0xffffffffffffffff, 1⟩]⟩,
  ⟨0x600118, [], true, false,
    [⟨63, 0, .ro, .lit 0, 0, 0xffffffffffffffff, 1⟩]⟩,
  ⟨0x600120, [], true, false,
    [⟨63, 0, .ro, .lit 0, 0, 0xffffffffffffffff, 1⟩]⟩,
  ⟨0x601000, [(0x40, 64)], false, false,
    [⟨31, 0, .ro, .lit 0, 0, 0xffffffff, 1⟩]⟩,
  ⟨0x601004, [(0x40, 64)], false, false,
    [⟨1, 0, .ro, .lit 0, 0, 3, 1⟩,
     ⟨2, 2, .ro, .lit 0, 0, 1, 1⟩,
     ⟨3, 3, .ro, .lit 0, 0, 1, 1⟩,
     ⟨4, 4, .ro, .lit 0, 0, 1, 1⟩,
     ⟨5, 5, .ro, .lit 0, 0, 1, 1⟩,
     ⟨7, 6, .ro, .lit 0, 0, 3, 1⟩,
     ⟨15, 8, .ro, .lit 0, 0, 255, 1⟩]⟩,
  ⟨0x601008, [(0x40, 64)], false, false,
    [⟨31, 0, .ro, .lit 0, 0, 0xffffffff, 1⟩]⟩,
  ⟨0x601010, [(0x40, 64)], true, false,
    [⟨63, 0, .ro, .lit 0, 0, 0xffffffffffffffff, 1⟩]⟩,
  ⟨0x601018, [(0x40, 64)], true, false,
    [⟨63, 0, .ro, .lit 0, 0, 0xffffffffffffffff, 1⟩]⟩,
  ⟨0x600180, [(0x8, 5)], true, false,
    [⟨63, 0, .ro, .lit 0, 0, 0xffffffffffffffff, 1⟩]⟩,
  ⟨0x601020, [(0x40, 64), (0x8, 2)], true, false,
    [⟨63, 0, .ro, .lit 0, 0, 0xffffffffffffffff, 1⟩]⟩]

/-- The calibration block, R390. -/
def regRows7_0 : List RegRow := [
  ⟨0x700000, [], false, false,
    [⟨31, 16, .ro, .lit 0xa07, 0, 65535, 1⟩,
     ⟨15, 0, .ro, .rev, 0, 65535, 1⟩]⟩,
  ⟨0x700004, [], false, false,
    [⟨0, 0, .w1s, .lit 0, 0, 1, 1⟩]⟩,
  ⟨0x700008, [], false, false,
    [⟨0, 0, .ro, .lit 0, 0, 1, 1⟩,
     ⟨1, 1, .rc, .lit 0, 0, 1, 1⟩]⟩,
  ⟨0x70000c, [], false, true,
    [⟨5, 0, .rwl, .lit 0, 0, 63, 1⟩,
     ⟨10, 6, .rwl, .lit 0, 0, 31, 1⟩,
     ⟨11, 11, .rwl, .lit 0, 0, 1, 1⟩,
     ⟨12, 12, .rwl, .lit 1, 0, 1, 1⟩,
     ⟨13, 13, .rwl, .lit 1, 0, 1, 1⟩]⟩,
  ⟨0x700010, [], false, false,
    [⟨0, 0, .rc, .lit 0, 0, 1, 1⟩,
     ⟨1, 1, .rc, .lit 0, 0, 1, 1⟩,
     ⟨2, 2, .rc, .lit 0, 0, 1, 1⟩,
     ⟨3, 3, .rc, .lit 0, 0, 1, 1⟩,
     ⟨4, 4, .rc, .lit 0, 0, 1, 1⟩,
     ⟨5, 5, .rc, .lit 0, 0, 1, 1⟩,
     ⟨6, 6, .rc, .lit 0, 0, 1, 1⟩,
     ⟨7, 7, .rc, .lit 0, 0, 1, 1⟩,
     ⟨8, 8, .rc, .lit 0, 0, 1, 1⟩,
     ⟨9, 9, .rc, .lit 0, 0, 1, 1⟩,
     ⟨10, 10, .rc, .lit 0, 0, 1, 1⟩]⟩,
  ⟨0x700014, [], false, false,
    [⟨3, 0, .wo, .lit 0, 0, 15, 1⟩,
     ⟨15, 8, .wo, .lit 0, 0, 255, 1⟩]⟩,
  ⟨0x700018, [], false, false,
    [⟨15, 0, .ro, .lit 0, 0, 65535, 1⟩,
     ⟨31, 16, .ro, .lit 0, 0, 65535, 1⟩]⟩,
  ⟨0x70001c, [], false, false,
    [⟨31, 0, .ro, .lit 0, 0, 0xffffffff, 1⟩]⟩,
  ⟨0x700020, [], false, false,
    [⟨15, 0, .ro, .lit 0xffff, 0, 65535, 1⟩,
     ⟨31, 16, .ro, .lit 0xffff, 0, 65535, 1⟩]⟩,
  ⟨0x700024, [], false, false,
    [⟨15, 0, .ro, .lit 0, 0, 65535, 1⟩]⟩,
  ⟨0x700100, [], true, false,
    [⟨63, 0, .ro, .lit 0, 0, 0xffffffffffffffff, 1⟩]⟩,
  ⟨0x700108, [], true, false,
    [⟨63, 0, .ro, .lit 0, 0, 0xffffffffffffffff, 1⟩]⟩,
  ⟨0x700110, [], true, false,
    [⟨63, 0, .ro, .lit 0, 0, 0xffffffffffffffff, 1⟩]⟩,
  ⟨0x700118, [], true, false,
    [⟨63, 0, .ro, .lit 0, 0, 0xffffffffffffffff, 1⟩]⟩,
  ⟨0x700120, [], true, false,
    [⟨63, 0, .ro, .lit 0, 0, 0xffffffffffffffff, 1⟩]⟩,
  ⟨0x700128, [], true, false,
    [⟨63, 0, .ro, .lit 0, 0, 0xffffffffffffffff, 1⟩]⟩,
  ⟨0x700130, [], true, false,
    [⟨63, 0, .ro, .lit 0, 0, 0xffffffffffffffff, 1⟩]⟩,
  ⟨0x700138, [], true, false,
    [⟨63, 0, .ro, .lit 0, 0, 0xffffffffffffffff, 1⟩]⟩,
  ⟨0x700200, [], false, false,
    [⟨2, 0, .rw, .lit 0, 0, 7, 1⟩,
     ⟨11, 8, .rw, .lit 0, 0, 15, 1⟩,
     ⟨12, 12, .rw, .lit 0, 0, 1, 1⟩,
     ⟨31, 16, .rw, .lit 0, 0, 65535, 1⟩]⟩,
  ⟨0x700204, [], false, false,
    [⟨15, 0, .rw, .lit 0, 0, 65535, 1⟩,
     ⟨31, 16, .rw, .lit 0, 0, 65535, 1⟩]⟩,
  ⟨0x700208, [], false, false,
    [⟨15, 0, .rw, .lit 0, 0, 65535, 1⟩,
     ⟨31, 16, .rw, .lit 0, 0, 65535, 1⟩]⟩,
  ⟨0x70020c, [], false, false,
    [⟨15, 0, .rw, .lit 0x8000, 0, 65535, 1⟩,
     ⟨31, 16, .rw, .lit 8, 0, 65535, 1⟩]⟩,
  ⟨0x701000, [(0x20, 256)], false, false,
    [⟨2, 0, .ro, .lit 0, 0, 7, 1⟩,
     ⟨11, 8, .ro, .lit 0, 0, 15, 1⟩,
     ⟨12, 12, .ro, .lit 0, 0, 1, 1⟩,
     ⟨31, 16, .ro, .lit 0, 0, 65535, 1⟩]⟩,
  ⟨0x701004, [(0x20, 256)], false, false,
    [⟨15, 0, .ro, .lit 0, 0, 65535, 1⟩,
     ⟨31, 16, .ro, .lit 0, 0, 65535, 1⟩]⟩,
  ⟨0x701008, [(0x20, 256)], false, false,
    [⟨15, 0, .ro, .lit 0, 0, 65535, 1⟩,
     ⟨31, 16, .ro, .lit 0, 0, 65535, 1⟩]⟩,
  ⟨0x70100c, [(0x20, 256)], false, false,
    [⟨15, 0, .ro, .lit 0, 0, 65535, 1⟩,
     ⟨31, 16, .ro, .lit 0, 0, 65535, 1⟩]⟩,
  ⟨0x700180, [(0x8, 8)], true, false,
    [⟨63, 0, .ro, .lit 0, 0, 0xffffffffffffffff, 1⟩]⟩]

/-- The push block, R457. -/
def regRows8_0 : List RegRow := [
  ⟨0x800000, [], false, false,
    [⟨31, 16, .ro, .lit 0xa08, 0, 65535, 1⟩,
     ⟨15, 0, .ro, .rev, 0, 65535, 1⟩]⟩,
  ⟨0x800004, [], false, false,
    [⟨0, 0, .w1s, .lit 0, 0, 1, 1⟩]⟩,
  ⟨0x800008, [], false, false,
    [⟨0, 0, .ro, .lit 0, 0, 1, 1⟩,
     ⟨1, 1, .rc, .lit 0, 0, 1, 1⟩]⟩,
  ⟨0x80000c, [], false, true,
    [⟨0, 0, .rwl, .lit 0, 0, 1, 1⟩,
     ⟨1, 1, .rwl, .lit 1, 0, 1, 1⟩,
     ⟨2, 2, .rwl, .lit 1, 0, 1, 1⟩,
     ⟨7, 3, .rwl, .lit 8, 4, 20, 1⟩,
     ⟨15, 8, .rwl, .lit 0x60, 72, 192, 1⟩,
     ⟨26, 16, .rwl, .lit 0x200, 0, 1536, 1⟩]⟩,
  ⟨0x800010, [], false, true,
    [⟨4, 0, .rwl, .lit 4, 1, 16, 1⟩,
     ⟨15, 8, .rwl, .lit 8, 1, 255, 1⟩,
     ⟨31, 16, .rwl, .lit 0x78, 1, 65535, 1⟩]⟩,
  ⟨0x800014, [], false, false,
    [⟨0, 0, .rc, .lit 0, 0, 1, 1⟩,
     ⟨1, 1, .rc, .lit 0, 0, 1, 1⟩,
     ⟨2, 2, .rc, .lit 0, 0, 1, 1⟩,
     ⟨3, 3, .rc, .lit 0, 0, 1, 1⟩,
     ⟨4, 4, .rc, .lit 0, 0, 1, 1⟩,
     ⟨5, 5, .rc, .lit 0, 0, 1, 1⟩,
     ⟨6, 6, .rc, .lit 0, 0, 1, 1⟩,
     ⟨7, 7, .rc, .lit 0, 0, 1, 1⟩,
     ⟨8, 8, .rc, .lit 0, 0, 1, 1⟩,
     ⟨9, 9, .rc, .lit 0, 0, 1, 1⟩]⟩,
  ⟨0x800018, [], false, false,
    [⟨0, 0, .ro, .lit 0, 0, 1, 1⟩,
     ⟨3, 1, .ro, .lit 0, 0, 7, 1⟩,
     ⟨5, 4, .ro, .lit 0, 0, 3, 1⟩,
     ⟨8, 6, .ro, .lit 0, 0, 7, 1⟩,
     ⟨9, 9, .ro, .lit 0, 0, 1, 1⟩,
     ⟨12, 10, .ro, .lit 0, 0, 7, 1⟩]⟩,
  ⟨0x80001c, [], false, false,
    [⟨31, 0, .ro, .lit 0, 0, 0xffffffff, 1⟩]⟩,
  ⟨0x800020, [], true, false,
    [⟨63, 0, .ro, .lit 0, 0, 0xffffffffffffffff, 1⟩]⟩,
  ⟨0x800028, [], true, false,
    [⟨63, 0, .ro, .lit 0, 0, 0xffffffffffffffff, 1⟩]⟩,
  ⟨0x800030, [], false, false,
    [⟨31, 0, .ro, .lit 0, 0, 0xffffffff, 1⟩]⟩,
  ⟨0x800038, [], true, false,
    [⟨63, 0, .ro, .lit 0, 0, 0xffffffffffffffff, 1⟩]⟩,
  ⟨0x800040, [], false, false,
    [⟨31, 0, .ro, .lit 0, 0, 0xffffffff, 1⟩]⟩,
  ⟨0x800044, [], false, false,
    [⟨31, 0, .ro, .lit 0, 0, 0xffffffff, 1⟩]⟩,
  ⟨0x800048, [], false, false,
    [⟨15, 0, .ro, .lit 0, 0, 65535, 1⟩]⟩,
  ⟨0x800100, [], true, false,
    [⟨63, 0, .ro, .lit 0, 0, 0xffffffffffffffff, 1⟩]⟩,
  ⟨0x800108, [], true, false,
    [⟨63, 0, .ro, .lit 0, 0, 0xffffffffffffffff, 1⟩]⟩,
  ⟨0x800110, [], true, false,
    [⟨63, 0, .ro, .lit 0, 0, 0xffffffffffffffff, 1⟩]⟩,
  ⟨0x800118, [], true, false,
    [⟨63, 0, .ro, .lit 0, 0, 0xffffffffffffffff, 1⟩]⟩,
  ⟨0x800120, [], true, false,
    [⟨63, 0, .ro, .lit 0, 0, 0xffffffffffffffff, 1⟩]⟩,
  ⟨0x800128, [], true, false,
    [⟨63, 0, .ro, .lit 0, 0, 0xffffffffffffffff, 1⟩]⟩,
  ⟨0x800130, [], true, false,
    [⟨63, 0, .ro, .lit 0, 0, 0xffffffffffffffff, 1⟩]⟩,
  ⟨0x800138, [], true, false,
    [⟨63, 0, .ro, .lit 0, 0, 0xffffffffffffffff, 1⟩]⟩,
  ⟨0x800200, [(0x10, 4)], false, false,
    [⟨15, 0, .rw, .lit 0, 0, 65535, 1⟩,
     ⟨31, 16, .rw, .lit 0, 0, 65535, 1⟩]⟩,
  ⟨0x800204, [(0x10, 4)], false, false,
    [⟨0, 0, .rw, .lit 0, 0, 1, 1⟩,
     ⟨1, 1, .rw, .lit 0, 0, 1, 1⟩]⟩,
  ⟨0x800208, [(0x10, 4)], false, false,
    [⟨31, 0, .ro, .lit 0, 0, 0xffffffff, 1⟩]⟩,
  ⟨0x810000, [(0x100, 256)], false, false,
    [⟨16, 0, .ro, .lit 0, 0, 0x1ffff, 1⟩,
     ⟨17, 17, .ro, .lit 0, 0, 1, 1⟩,
     ⟨18, 18, .ro, .lit 0, 0, 1, 1⟩]⟩,
  ⟨0x810004, [(0x100, 256)], false, false,
    [⟨0, 0, .rc, .lit 0, 0, 1, 1⟩,
     ⟨1, 1, .rc, .lit 0, 0, 1, 1⟩,
     ⟨2, 2, .rc, .lit 0, 0, 1, 1⟩,
     ⟨3, 3, .rc, .lit 0, 0, 1, 1⟩,
     ⟨4, 4, .rc, .lit 0, 0, 1, 1⟩,
     ⟨5, 5, .rc, .lit 0, 0, 1, 1⟩,
     ⟨6, 6, .rc, .lit 0, 0, 1, 1⟩,
     ⟨7, 7, .rc, .lit 0, 0, 1, 1⟩]⟩,
  ⟨0x810008, [(0x100, 256)], false, false,
    [⟨13, 0, .ro, .lit 0, 0, 16383, 1⟩]⟩,
  ⟨0x81000c, [(0x100, 256)], false, false,
    [⟨6, 0, .ro, .lit 0, 0, 127, 1⟩]⟩]

/-- The push block, R457, continued. -/
def regRows8_1 : List RegRow := [
  ⟨0x810010, [(0x100, 256)], false, false,
    [⟨17, 0, .ro, .lit 0, 0, 0x3ffff, 1⟩]⟩,
  ⟨0x810040, [(0x100, 256)], true, false,
    [⟨63, 0, .ro, .lit 0, 0, 0xffffffffffffffff, 1⟩]⟩,
  ⟨0x810048, [(0x100, 256)], true, false,
    [⟨63, 0, .ro, .lit 0, 0, 0xffffffffffffffff, 1⟩]⟩,
  ⟨0x810050, [(0x100, 256)], true, false,
    [⟨63, 0, .ro, .lit 0, 0, 0xffffffffffffffff, 1⟩]⟩,
  ⟨0x810058, [(0x100, 256)], true, false,
    [⟨63, 0, .ro, .lit 0, 0, 0xffffffffffffffff, 1⟩]⟩,
  ⟨0x800180, [(0x8, 8)], true, false,
    [⟨63, 0, .ro, .lit 0, 0, 0xffffffffffffffff, 1⟩]⟩,
  ⟨0x810080, [(0x100, 256), (0x8, 4)], true, false,
    [⟨63, 0, .ro, .lit 0, 0, 0xffffffffffffffff, 1⟩]⟩]

/-- The snake block, R522. -/
def regRows9_0 : List RegRow := [
  ⟨0x900000, [(0x1000, 256)], false, false,
    [⟨31, 16, .ro, .lit 0xa09, 0, 65535, 1⟩,
     ⟨15, 0, .ro, .rev, 0, 65535, 1⟩]⟩,
  ⟨0x900004, [(0x1000, 256)], false, false,
    [⟨0, 0, .w1s, .lit 0, 0, 1, 1⟩]⟩,
  ⟨0x900008, [(0x1000, 256)], false, true,
    [⟨0, 0, .rwl, .lit 1, 0, 1, 1⟩,
     ⟨3, 1, .rwl, .lit 2, 0, 7, 1⟩,
     ⟨10, 4, .rwl, .lit 6, 5, 100, 1⟩,
     ⟨11, 11, .rwl, .lit 1, 0, 1, 1⟩,
     ⟨21, 12, .rwl, .lit 0x64, 20, 1000, 1⟩,
     ⟨25, 22, .rwl, .lit 3, 1, 15, 1⟩]⟩,
  ⟨0x90000c, [(0x1000, 256)], false, false,
    [⟨15, 0, .rwl, .lit 0x64, 10, 10000, 1⟩,
     ⟨25, 16, .rwl, .lit 0xf0, 0, 1000, 1⟩,
     ⟨28, 26, .rwl, .lit 3, 3, 5, 1⟩]⟩,
  ⟨0x900010, [(0x1000, 256)], false, false,
    [⟨3, 0, .wo, .lit 0, 0, 15, 1⟩,
     ⟨9, 4, .wo, .lit 0, 0, 63, 1⟩]⟩,
  ⟨0x900014, [(0x1000, 256)], false, false,
    [⟨2, 0, .ro, .lit 0, 0, 7, 1⟩,
     ⟨3, 3, .ro, .lit 0, 0, 1, 1⟩,
     ⟨10, 4, .ro, .lit 0, 0, 127, 1⟩,
     ⟨16, 11, .ro, .lit 0, 0, 63, 1⟩]⟩,
  ⟨0x900018, [(0x1000, 256)], false, false,
    [⟨0, 0, .rc, .lit 0, 0, 1, 1⟩,
     ⟨1, 1, .rc, .lit 0, 0, 1, 1⟩,
     ⟨2, 2, .rc, .lit 0, 0, 1, 1⟩,
     ⟨3, 3, .rc, .lit 0, 0, 1, 1⟩,
     ⟨4, 4, .rc, .lit 0, 0, 1, 1⟩,
     ⟨5, 5, .rc, .lit 0, 0, 1, 1⟩,
     ⟨6, 6, .rc, .lit 0, 0, 1, 1⟩,
     ⟨7, 7, .rc, .lit 0, 0, 1, 1⟩,
     ⟨8, 8, .rc, .lit 0, 0, 1, 1⟩,
     ⟨9, 9, .rc, .lit 0, 0, 1, 1⟩,
     ⟨10, 10, .rc, .lit 0, 0, 1, 1⟩,
     ⟨11, 11, .rc, .lit 0, 0, 1, 1⟩,
     ⟨12, 12, .rc, .lit 0, 0, 1, 1⟩,
     ⟨13, 13, .rc, .lit 0, 0, 1, 1⟩,
     ⟨14, 14, .rc, .lit 0, 0, 1, 1⟩,
     ⟨15, 15, .rc, .lit 0, 0, 1, 1⟩,
     ⟨16, 16, .rc, .lit 0, 0, 1, 1⟩,
     ⟨17, 17, .rc, .lit 0, 0, 1, 1⟩,
     ⟨18, 18, .rc, .lit 0, 0, 1, 1⟩,
     ⟨19, 19, .rc, .lit 0, 0, 1, 1⟩]⟩,
  ⟨0x90001c, [(0x1000, 256)], false, false,
    [⟨31, 0, .ro, .lit 0, 0, 0xffffffff, 1⟩]⟩,
  ⟨0x900020, [(0x1000, 256)], false, false,
    [⟨31, 0, .ro, .lit 0, 0, 0xffffffff, 1⟩]⟩,
  ⟨0x900040, [(0x1000, 256)], false, false,
    [⟨0, 0, .rwl, .lit 0, 0, 1, 1⟩,
     ⟨3, 1, .rwl, .lit 0, 0, 7, 1⟩,
     ⟨7, 4, .rwl, .lit 0, 0, 15, 1⟩,
     ⟨13, 8, .rwl, .lit 0, 0, 63, 1⟩,
     ⟨14, 14, .rwl, .lit 0, 0, 1, 1⟩,
     ⟨31, 16, .rwl, .lit 1, 1, 65535, 1⟩]⟩,
  ⟨0x900044, [(0x1000, 256)], false, false,
    [⟨15, 0, .rwl, .lit 1, 0, 65535, 1⟩,
     ⟨19, 16, .rwl, .lit 1, 1, 15, 1⟩]⟩,
  ⟨0x900048, [(0x1000, 256)], false, false,
    [⟨15, 0, .ro, .lit 0, 0, 65535, 1⟩]⟩,
  ⟨0x900100, [(0x1000, 256)], true, false,
    [⟨63, 0, .ro, .lit 0, 0, 0xffffffffffffffff, 1⟩]⟩,
  ⟨0x900108, [(0x1000, 256)], true, false,
    [⟨63, 0, .ro, .lit 0, 0, 0xffffffffffffffff, 1⟩]⟩,
  ⟨0x900110, [(0x1000, 256)], true, false,
    [⟨63, 0, .ro, .lit 0, 0, 0xffffffffffffffff, 1⟩]⟩,
  ⟨0x900118, [(0x1000, 256)], true, false,
    [⟨63, 0, .ro, .lit 0, 0, 0xffffffffffffffff, 1⟩]⟩,
  ⟨0x900120, [(0x1000, 256)], true, false,
    [⟨63, 0, .ro, .lit 0, 0, 0xffffffffffffffff, 1⟩]⟩,
  ⟨0x900128, [(0x1000, 256)], true, false,
    [⟨63, 0, .ro, .lit 0, 0, 0xffffffffffffffff, 1⟩]⟩,
  ⟨0x900130, [(0x1000, 256)], true, false,
    [⟨63, 0, .ro, .lit 0, 0, 0xffffffffffffffff, 1⟩]⟩,
  ⟨0x900138, [(0x1000, 256)], true, false,
    [⟨63, 0, .ro, .lit 0, 0, 0xffffffffffffffff, 1⟩]⟩,
  ⟨0x900140, [(0x1000, 256)], true, false,
    [⟨63, 0, .ro, .lit 0, 0, 0xffffffffffffffff, 1⟩]⟩,
  ⟨0x900148, [(0x1000, 256)], true, false,
    [⟨63, 0, .ro, .lit 0, 0, 0xffffffffffffffff, 1⟩]⟩,
  ⟨0x900150, [(0x1000, 256)], true, false,
    [⟨63, 0, .ro, .lit 0, 0, 0xffffffffffffffff, 1⟩]⟩,
  ⟨0x900200, [(0x1000, 256)], false, false,
    [⟨5, 0, .rw, .lit 0, 0, 63, 1⟩,
     ⟨11, 8, .rw, .lit 0, 0, 15, 1⟩,
     ⟨20, 16, .rw, .lit 0, 0, 31, 1⟩]⟩,
  ⟨0x900204, [(0x1000, 256)], false, false,
    [⟨31, 0, .rw, .lit 0, 0, 0xffffffff, 1⟩]⟩,
  ⟨0x900208, [(0x1000, 256)], false, false,
    [⟨3, 0, .ro, .lit 0, 0, 15, 1⟩]⟩,
  ⟨0x900240, [(0x1000, 256), (0x8, 32)], true, false,
    [⟨63, 0, .rw, .lit 0, 0, 0xffffffffffffffff, 1⟩]⟩,
  ⟨0x900400, [(0x1000, 256), (0x20, 64)], true, false,
    [⟨63, 0, .ro, .lit 0, 0, 0xffffffffffffffff, 1⟩]⟩,
  ⟨0x900408, [(0x1000, 256), (0x20, 64)], false, false,
    [⟨31, 0, .ro, .lit 0, 0, 0xffffffff, 1⟩]⟩,
  ⟨0x90040c, [(0x1000, 256), (0x20, 64)], false, false,
    [⟨31, 0, .ro, .lit 0, 0, 0xffffffff, 1⟩]⟩]

/-- The snake block, R522, continued. -/
def regRows9_1 : List RegRow := [
  ⟨0x900410, [(0x1000, 256), (0x20, 64)], false, false,
    [⟨31, 0, .ro, .lit 0, 0, 0xffffffff, 1⟩]⟩,
  ⟨0x900414, [(0x1000, 256), (0x20, 64)], false, false,
    [⟨15, 0, .ro, .lit 0, 0, 65535, 1⟩,
     ⟨31, 16, .ro, .lit 0, 0, 65535, 1⟩]⟩,
  ⟨0x900418, [(0x1000, 256), (0x20, 64)], false, false,
    [⟨15, 0, .ro, .lit 0, 0, 65535, 1⟩,
     ⟨18, 16, .ro, .lit 0, 0, 7, 1⟩]⟩,
  ⟨0x90041c, [(0x1000, 256), (0x20, 64)], false, false,
    [⟨11, 0, .ro, .lit 0, 0, 4095, 1⟩,
     ⟨23, 12, .ro, .lit 0, 0, 4095, 1⟩]⟩,
  ⟨0x900180, [(0x1000, 256), (0x8, 11)], true, false,
    [⟨63, 0, .ro, .lit 0, 0, 0xffffffffffffffff, 1⟩]⟩]

/-- The ingest block, R567. -/
def regRows10_0 : List RegRow := [
  ⟨0xa00000, [], false, false,
    [⟨31, 16, .ro, .lit 0xa0a, 0, 65535, 1⟩,
     ⟨15, 0, .ro, .rev, 0, 65535, 1⟩]⟩,
  ⟨0xa00004, [], false, false,
    [⟨0, 0, .w1s, .lit 0, 0, 1, 1⟩]⟩,
  ⟨0xa00008, [], false, true,
    [⟨13, 0, .rwl, .lit 0x64, 10, 10000, 1⟩,
     ⟨23, 14, .rwl, .lit 0x14, 1, 1000, 1⟩,
     ⟨24, 24, .rwl, .lit 1, 0, 1, 1⟩,
     ⟨25, 25, .rwl, .lit 1, 0, 1, 1⟩]⟩,
  ⟨0xa0000c, [], false, false,
    [⟨9, 0, .rwl, .lit 0x32, 1, 1000, 1⟩,
     ⟨16, 10, .rwl, .lit 1, 0, 100, 1⟩]⟩,
  ⟨0xa00010, [], false, false,
    [⟨0, 0, .rc, .lit 0, 0, 1, 1⟩,
     ⟨1, 1, .rc, .lit 0, 0, 1, 1⟩,
     ⟨2, 2, .rc, .lit 0, 0, 1, 1⟩,
     ⟨3, 3, .rc, .lit 0, 0, 1, 1⟩,
     ⟨4, 4, .rc, .lit 0, 0, 1, 1⟩,
     ⟨5, 5, .rc, .lit 0, 0, 1, 1⟩,
     ⟨6, 6, .rc, .lit 0, 0, 1, 1⟩]⟩,
  ⟨0xa01000, [(0x100, 8)], false, false,
    [⟨0, 0, .ro, .lit 0, 0, 1, 1⟩,
     ⟨1, 1, .ro, .lit 0, 0, 1, 1⟩,
     ⟨8, 2, .ro, .lit 0, 0, 127, 1⟩]⟩,
  ⟨0xa01004, [(0x100, 8)], false, false,
    [⟨31, 0, .rwl, .lit 0, 0, 0xffffffff, 1⟩]⟩,
  ⟨0xa01008, [(0x100, 8)], false, false,
    [⟨0, 0, .rc, .lit 0, 0, 1, 1⟩,
     ⟨1, 1, .rc, .lit 0, 0, 1, 1⟩,
     ⟨2, 2, .rc, .lit 0, 0, 1, 1⟩,
     ⟨3, 3, .rc, .lit 0, 0, 1, 1⟩,
     ⟨4, 4, .rc, .lit 0, 0, 1, 1⟩,
     ⟨5, 5, .rc, .lit 0, 0, 1, 1⟩,
     ⟨6, 6, .rc, .lit 0, 0, 1, 1⟩,
     ⟨7, 7, .rc, .lit 0, 0, 1, 1⟩]⟩,
  ⟨0xa01040, [(0x100, 8)], true, false,
    [⟨63, 0, .ro, .lit 0, 0, 0xffffffffffffffff, 1⟩]⟩,
  ⟨0xa01048, [(0x100, 8)], true, false,
    [⟨63, 0, .ro, .lit 0, 0, 0xffffffffffffffff, 1⟩]⟩,
  ⟨0xa01050, [(0x100, 8)], true, false,
    [⟨63, 0, .ro, .lit 0, 0, 0xffffffffffffffff, 1⟩]⟩,
  ⟨0xa01058, [(0x100, 8)], true, false,
    [⟨63, 0, .ro, .lit 0, 0, 0xffffffffffffffff, 1⟩]⟩,
  ⟨0xa01060, [(0x100, 8)], true, false,
    [⟨63, 0, .ro, .lit 0, 0, 0xffffffffffffffff, 1⟩]⟩,
  ⟨0xa01068, [(0x100, 8)], true, false,
    [⟨63, 0, .ro, .lit 0, 0, 0xffffffffffffffff, 1⟩]⟩,
  ⟨0xa01070, [(0x100, 8)], true, false,
    [⟨63, 0, .ro, .lit 0, 0, 0xffffffffffffffff, 1⟩]⟩,
  ⟨0xa01078, [(0x100, 8)], true, false,
    [⟨63, 0, .ro, .lit 0, 0, 0xffffffffffffffff, 1⟩]⟩,
  ⟨0xa01080, [(0x100, 8)], true, false,
    [⟨63, 0, .ro, .lit 0, 0, 0xffffffffffffffff, 1⟩]⟩,
  ⟨0xa01088, [(0x100, 8)], true, false,
    [⟨63, 0, .ro, .lit 0, 0, 0xffffffffffffffff, 1⟩]⟩,
  ⟨0xa01090, [(0x100, 8)], true, false,
    [⟨63, 0, .ro, .lit 0, 0, 0xffffffffffffffff, 1⟩]⟩,
  ⟨0xa01098, [(0x100, 8)], true, false,
    [⟨63, 0, .ro, .lit 0, 0, 0xffffffffffffffff, 1⟩]⟩,
  ⟨0xa02000, [(0x100, 8)], false, false,
    [⟨4, 0, .ro, .lit 0, 0, 31, 1⟩,
     ⟨31, 16, .ro, .lit 0, 0, 65535, 1⟩]⟩,
  ⟨0xa02004, [(0x100, 8)], false, false,
    [⟨0, 0, .rc, .lit 0, 0, 1, 1⟩,
     ⟨1, 1, .rc, .lit 0, 0, 1, 1⟩]⟩,
  ⟨0xa02040, [(0x100, 8)], true, false,
    [⟨63, 0, .ro, .lit 0, 0, 0xffffffffffffffff, 1⟩]⟩,
  ⟨0xa02048, [(0x100, 8)], true, false,
    [⟨63, 0, .ro, .lit 0, 0, 0xffffffffffffffff, 1⟩]⟩,
  ⟨0xa02050, [(0x100, 8)], true, false,
    [⟨63, 0, .ro, .lit 0, 0, 0xffffffffffffffff, 1⟩]⟩,
  ⟨0xa010a0, [(0x100, 8), (0x8, 12)], true, false,
    [⟨63, 0, .ro, .lit 0, 0, 0xffffffffffffffff, 1⟩]⟩,
  ⟨0xa02080, [(0x100, 8), (0x8, 3)], true, false,
    [⟨63, 0, .ro, .lit 0, 0, 0xffffffffffffffff, 1⟩]⟩]

/-- The clip store block, R568. -/
def regRows11_0 : List RegRow := [
  ⟨0xb00000, [], false, false,
    [⟨31, 16, .ro, .lit 0xa0b, 0, 65535, 1⟩,
     ⟨15, 0, .ro, .rev, 0, 65535, 1⟩]⟩,
  ⟨0xb00004, [], false, false,
    [⟨0, 0, .w1s, .lit 0, 0, 1, 1⟩]⟩,
  ⟨0xb00008, [], false, true,
    [⟨13, 0, .rwl, .lit 0x1f4, 10, 10000, 1⟩,
     ⟨14, 14, .rwl, .lit 1, 0, 1, 1⟩]⟩,
  ⟨0xb0000c, [], false, false,
    [⟨3, 0, .wo, .lit 0, 0, 15, 1⟩]⟩,
  ⟨0xb00010, [], false, false,
    [⟨1, 0, .ro, .lit 0, 0, 3, 1⟩,
     ⟨15, 8, .ro, .lit 0, 0, 255, 1⟩,
     ⟨23, 16, .ro, .lit 0, 0, 255, 1⟩]⟩,
  ⟨0xb00014, [], false, false,
    [⟨0, 0, .rc, .lit 0, 0, 1, 1⟩,
     ⟨1, 1, .rc, .lit 0, 0, 1, 1⟩,
     ⟨2, 2, .rc, .lit 0, 0, 1, 1⟩,
     ⟨3, 3, .rc, .lit 0, 0, 1, 1⟩,
     ⟨4, 4, .rc, .lit 0, 0, 1, 1⟩,
     ⟨5, 5, .rc, .lit 0, 0, 1, 1⟩,
     ⟨6, 6, .rc, .lit 0, 0, 1, 1⟩,
     ⟨7, 7, .rc, .lit 0, 0, 1, 1⟩,
     ⟨8, 8, .rc, .lit 0, 0, 1, 1⟩]⟩,
  ⟨0xb00018, [], false, false,
    [⟨16, 0, .ro, .lit 0, 0, 0x1ffff, 1⟩]⟩,
  ⟨0xb00020, [], true, false,
    [⟨63, 0, .ro, .lit 0, 0, 0xffffffffffffffff, 1⟩]⟩,
  ⟨0xb00028, [], true, false,
    [⟨63, 0, .ro, .lit 0, 0, 0xffffffffffffffff, 1⟩]⟩,
  ⟨0xb00100, [], true, false,
    [⟨63, 0, .ro, .lit 0, 0, 0xffffffffffffffff, 1⟩]⟩,
  ⟨0xb00108, [], true, false,
    [⟨63, 0, .ro, .lit 0, 0, 0xffffffffffffffff, 1⟩]⟩,
  ⟨0xb00110, [], true, false,
    [⟨63, 0, .ro, .lit 0, 0, 0xffffffffffffffff, 1⟩]⟩,
  ⟨0xb00118, [], true, false,
    [⟨63, 0, .ro, .lit 0, 0, 0xffffffffffffffff, 1⟩]⟩,
  ⟨0xb00120, [], true, false,
    [⟨63, 0, .ro, .lit 0, 0, 0xffffffffffffffff, 1⟩]⟩,
  ⟨0xb01000, [(0x100, 8)], false, false,
    [⟨2, 0, .ro, .lit 0, 0, 7, 1⟩,
     ⟨3, 3, .ro, .lit 0, 0, 1, 1⟩,
     ⟨15, 8, .ro, .lit 0, 0, 255, 1⟩]⟩,
  ⟨0xb01004, [(0x100, 8)], false, false,
    [⟨0, 0, .rc, .lit 0, 0, 1, 1⟩,
     ⟨1, 1, .rc, .lit 0, 0, 1, 1⟩,
     ⟨2, 2, .rc, .lit 0, 0, 1, 1⟩,
     ⟨3, 3, .rc, .lit 0, 0, 1, 1⟩,
     ⟨4, 4, .rc, .lit 0, 0, 1, 1⟩]⟩,
  ⟨0xb01008, [(0x100, 8)], true, false,
    [⟨63, 0, .ro, .lit 0, 0, 0xffffffffffffffff, 1⟩]⟩,
  ⟨0xb01040, [(0x100, 8)], true, false,
    [⟨63, 0, .ro, .lit 0, 0, 0xffffffffffffffff, 1⟩]⟩,
  ⟨0xb01048, [(0x100, 8)], true, false,
    [⟨63, 0, .ro, .lit 0, 0, 0xffffffffffffffff, 1⟩]⟩,
  ⟨0xb01050, [(0x100, 8)], true, false,
    [⟨63, 0, .ro, .lit 0, 0, 0xffffffffffffffff, 1⟩]⟩,
  ⟨0xb01058, [(0x100, 8)], true, false,
    [⟨63, 0, .ro, .lit 0, 0, 0xffffffffffffffff, 1⟩]⟩,
  ⟨0xb00180, [(0x8, 5)], true, false,
    [⟨63, 0, .ro, .lit 0, 0, 0xffffffffffffffff, 1⟩]⟩,
  ⟨0xb01080, [(0x100, 8), (0x8, 4)], true, false,
    [⟨63, 0, .ro, .lit 0, 0, 0xffffffffffffffff, 1⟩]⟩]

/-- The block engine block, R602. -/
def regRows12_0 : List RegRow := [
  ⟨0xc00000, [], false, false,
    [⟨31, 16, .ro, .lit 0xa0c, 0, 65535, 1⟩,
     ⟨15, 0, .ro, .rev, 0, 65535, 1⟩]⟩,
  ⟨0xc00004, [], false, false,
    [⟨0, 0, .w1s, .lit 0, 0, 1, 1⟩]⟩,
  ⟨0xc00008, [], false, false,
    [⟨0, 0, .ro, .lit 0, 0, 1, 1⟩,
     ⟨1, 1, .rc, .lit 0, 0, 1, 1⟩]⟩,
  ⟨0xc0000c, [], false, true,
    [⟨0, 0, .rwl, .lit 1, 0, 1, 1⟩,
     ⟨16, 1, .rwl, .lit 0x3e8, 1, 60000, 1⟩]⟩,
  ⟨0xc00010, [], false, false,
    [⟨0, 0, .rc, .lit 0, 0, 1, 1⟩,
     ⟨1, 1, .rc, .lit 0, 0, 1, 1⟩,
     ⟨2, 2, .rc, .lit 0, 0, 1, 1⟩,
     ⟨3, 3, .rc, .lit 0, 0, 1, 1⟩,
     ⟨4, 4, .rc, .lit 0, 0, 1, 1⟩,
     ⟨5, 5, .rc, .lit 0, 0, 1, 1⟩,
     ⟨6, 6, .rc, .lit 0, 0, 1, 1⟩,
     ⟨7, 7, .rc, .lit 0, 0, 1, 1⟩,
     ⟨8, 8, .rc, .lit 0, 0, 1, 1⟩]⟩,
  ⟨0xc00014, [], false, false,
    [⟨0, 0, .ro, .lit 0, 0, 1, 1⟩,
     ⟨1, 1, .ro, .lit 0, 0, 1, 1⟩,
     ⟨14, 2, .ro, .lit 0, 0, 8191, 1⟩]⟩,
  ⟨0xc00100, [], true, false,
    [⟨63, 0, .ro, .lit 0, 0, 0xffffffffffffffff, 1⟩]⟩,
  ⟨0xc00108, [], true, false,
    [⟨63, 0, .ro, .lit 0, 0, 0xffffffffffffffff, 1⟩]⟩,
  ⟨0xc00110, [], true, false,
    [⟨63, 0, .ro, .lit 0, 0, 0xffffffffffffffff, 1⟩]⟩,
  ⟨0xc00118, [], true, false,
    [⟨63, 0, .ro, .lit 0, 0, 0xffffffffffffffff, 1⟩]⟩,
  ⟨0xc00120, [], true, false,
    [⟨63, 0, .ro, .lit 0, 0, 0xffffffffffffffff, 1⟩]⟩,
  ⟨0xc00128, [], true, false,
    [⟨63, 0, .ro, .lit 0, 0, 0xffffffffffffffff, 1⟩]⟩,
  ⟨0xc00800, [], false, false,
    [⟨31, 0, .rw, .lit 0, 0, 0xffffffff, 1⟩]⟩,
  ⟨0xc00804, [], false, false,
    [⟨31, 0, .rw, .lit 0, 0, 0xffffffff, 1⟩]⟩,
  ⟨0xc00808, [], false, false,
    [⟨15, 0, .rw, .lit 0, 0, 65535, 1⟩,
     ⟨31, 16, .rw, .lit 0, 0, 65535, 1⟩]⟩,
  ⟨0xc0080c, [], false, false,
    [⟨15, 0, .rw, .lit 0, 0, 65535, 1⟩,
     ⟨31, 16, .rw, .lit 0, 0, 65535, 1⟩]⟩,
  ⟨0xc00810, [], false, false,
    [⟨15, 0, .rw, .lit 0, 0, 65535, 1⟩,
     ⟨31, 16, .rw, .lit 0, 0, 65535, 1⟩]⟩,
  ⟨0xc00818, [], true, false,
    [⟨63, 0, .rw, .lit 0, 0, 0xffffffffffffffff, 1⟩]⟩,
  ⟨0xc00820, [], false, false,
    [⟨3, 0, .rw, .lit 0, 0, 15, 1⟩,
     ⟨5, 4, .rw, .lit 0, 0, 3, 1⟩,
     ⟨15, 8, .rw, .lit 0, 0, 255, 1⟩]⟩,
  ⟨0xc00824, [], false, false,
    [⟨0, 0, .wo, .lit 0, 0, 1, 1⟩]⟩,
  ⟨0xc00828, [], false, false,
    [⟨0, 0, .ro, .lit 0, 0, 1, 1⟩,
     ⟨1, 1, .rc, .lit 0, 0, 1, 1⟩,
     ⟨15, 8, .ro, .lit 0, 0, 255, 1⟩]⟩,
  ⟨0xc0082c, [], false, false,
    [⟨31, 0, .ro, .lit 0, 0, 0xffffffff, 1⟩]⟩,
  ⟨0xc10000, [(0x10, 4096)], false, false,
    [⟨31, 0, .ro, .lit 0, 0, 0xffffffff, 1⟩]⟩,
  ⟨0xc10004, [(0x10, 4096)], false, false,
    [⟨1, 0, .ro, .lit 0, 0, 3, 1⟩,
     ⟨2, 2, .ro, .lit 0, 0, 1, 1⟩,
     ⟨4, 3, .ro, .lit 0, 0, 3, 1⟩]⟩,
  ⟨0xc10008, [(0x10, 4096)], false, false,
    [⟨15, 0, .ro, .lit 0, 0, 65535, 1⟩]⟩,
  ⟨0xc1000c, [(0x10, 4096)], false, false,
    [⟨0, 0, .rc, .lit 0, 0, 1, 1⟩,
     ⟨1, 1, .rc, .lit 0, 0, 1, 1⟩,
     ⟨2, 2, .rc, .lit 0, 0, 1, 1⟩]⟩,
  ⟨0xc00180, [(0x8, 6)], true, false,
    [⟨63, 0, .ro, .lit 0, 0, 0xffffffffffffffff, 1⟩]⟩]

/-- The sensing block, R636. -/
def regRows13_0 : List RegRow := [
  ⟨0xd00000, [], false, false,
    [⟨31, 16, .ro, .lit 0xa0d, 0, 65535, 1⟩,
     ⟨15, 0, .ro, .rev, 0, 65535, 1⟩]⟩,
  ⟨0xd00004, [], false, false,
    [⟨0, 0, .w1s, .lit 0, 0, 1, 1⟩]⟩,
  ⟨0xd00008, [], false, true,
    [⟨0, 0, .rwl, .lit 1, 0, 1, 1⟩,
     ⟨1, 1, .rwl, .lit 1, 0, 1, 1⟩]⟩,
  ⟨0xd0000c, [], false, false,
    [⟨0, 0, .rc, .lit 0, 0, 1, 1⟩,
     ⟨1, 1, .rc, .lit 0, 0, 1, 1⟩,
     ⟨2, 2, .rc, .lit 0, 0, 1, 1⟩,
     ⟨3, 3, .rc, .lit 0, 0, 1, 1⟩,
     ⟨4, 4, .rc, .lit 0, 0, 1, 1⟩,
     ⟨5, 5, .rc, .lit 0, 0, 1, 1⟩,
     ⟨6, 6, .rc, .lit 0, 0, 1, 1⟩,
     ⟨7, 7, .rc, .lit 0, 0, 1, 1⟩,
     ⟨8, 8, .rc, .lit 0, 0, 1, 1⟩,
     ⟨9, 9, .rc, .lit 0, 0, 1, 1⟩,
     ⟨10, 10, .rc, .lit 0, 0, 1, 1⟩,
     ⟨11, 11, .rc, .lit 0, 0, 1, 1⟩,
     ⟨12, 12, .rc, .lit 0, 0, 1, 1⟩,
     ⟨13, 13, .rc, .lit 0, 0, 1, 1⟩]⟩,
  ⟨0xd00010, [], false, false,
    [⟨0, 0, .ro, .lit 0, 0, 1, 1⟩,
     ⟨4, 4, .ro, .lit 0, 0, 1, 1⟩,
     ⟨1, 1, .ro, .lit 0, 0, 1, 1⟩,
     ⟨5, 5, .ro, .lit 0, 0, 1, 1⟩,
     ⟨2, 2, .ro, .lit 0, 0, 1, 1⟩,
     ⟨6, 6, .ro, .lit 0, 0, 1, 1⟩,
     ⟨3, 3, .ro, .lit 0, 0, 1, 1⟩,
     ⟨7, 7, .ro, .lit 0, 0, 1, 1⟩]⟩,
  ⟨0xd00014, [], false, false,
    [⟨0, 0, .wo, .lit 0, 0, 1, 1⟩,
     ⟨1, 1, .wo, .lit 0, 0, 1, 1⟩]⟩,
  ⟨0xd00018, [], false, false,
    [⟨13, 0, .rw, .lit 0, 0, 16383, 1⟩]⟩,
  ⟨0xd0001c, [], false, false,
    [⟨1, 0, .ro, .lit 0, 0, 3, 1⟩,
     ⟨10, 2, .ro, .lit 0, 0, 511, 1⟩,
     ⟨23, 11, .ro, .lit 0, 0, 8191, 1⟩,
     ⟨24, 24, .ro, .lit 0, 0, 1, 1⟩,
     ⟨25, 25, .ro, .lit 0, 0, 1, 1⟩]⟩,
  ⟨0xd00020, [], false, false,
    [⟨15, 0, .ro, .lit 0, 0, 65535, 1⟩,
     ⟨31, 16, .ro, .lit 0, 0, 65535, 1⟩]⟩,
  ⟨0xd00024, [], false, false,
    [⟨31, 0, .ro, .lit 0xffffffff, 0, 0xffffffff, 1⟩]⟩,
  ⟨0xd00028, [], false, false,
    [⟨31, 0, .ro, .lit 0, 0, 0xffffffff, 1⟩]⟩,
  ⟨0xd00040, [(0x4, 8)], false, false,
    [⟨31, 0, .rc, .lit 0, 0, 0xffffffff, 1⟩]⟩,
  ⟨0xd00100, [], true, false,
    [⟨63, 0, .ro, .lit 0, 0, 0xffffffffffffffff, 1⟩]⟩,
  ⟨0xd00108, [], true, false,
    [⟨63, 0, .ro, .lit 0, 0, 0xffffffffffffffff, 1⟩]⟩,
  ⟨0xd00110, [], true, false,
    [⟨63, 0, .ro, .lit 0, 0, 0xffffffffffffffff, 1⟩]⟩,
  ⟨0xd00118, [], true, false,
    [⟨63, 0, .ro, .lit 0, 0, 0xffffffffffffffff, 1⟩]⟩,
  ⟨0xd00120, [], true, false,
    [⟨63, 0, .ro, .lit 0, 0, 0xffffffffffffffff, 1⟩]⟩,
  ⟨0xd00128, [], true, false,
    [⟨63, 0, .ro, .lit 0, 0, 0xffffffffffffffff, 1⟩]⟩,
  ⟨0xd00130, [], true, false,
    [⟨63, 0, .ro, .lit 0, 0, 0xffffffffffffffff, 1⟩]⟩,
  ⟨0xd00138, [], true, false,
    [⟨63, 0, .ro, .lit 0, 0, 0xffffffffffffffff, 1⟩]⟩,
  ⟨0xd01000, [(0x40, 256)], false, false,
    [⟨31, 0, .ro, .lit 0, 0, 0xffffffff, 1⟩]⟩,
  ⟨0xd01004, [(0x40, 256)], false, false,
    [⟨1, 0, .ro, .lit 0, 0, 3, 1⟩,
     ⟨2, 2, .ro, .lit 0, 0, 1, 1⟩,
     ⟨11, 3, .ro, .lit 0, 0, 511, 1⟩]⟩,
  ⟨0xd01008, [(0x40, 256)], false, false,
    [⟨31, 0, .ro, .lit 0, 0, 0xffffffff, 1⟩]⟩,
  ⟨0xd0100c, [(0x40, 256)], false, false,
    [⟨31, 0, .ro, .lit 0, 0, 0xffffffff, 1⟩]⟩,
  ⟨0xd01010, [(0x40, 256)], false, false,
    [⟨0, 0, .rc, .lit 0, 0, 1, 1⟩,
     ⟨1, 1, .rc, .lit 0, 0, 1, 1⟩]⟩,
  ⟨0xd01018, [(0x40, 256)], true, false,
    [⟨63, 0, .ro, .lit 0, 0, 0xffffffffffffffff, 1⟩]⟩,
  ⟨0xd01020, [(0x40, 256)], true, false,
    [⟨63, 0, .ro, .lit 0, 0, 0xffffffffffffffff, 1⟩]⟩,
  ⟨0xd00180, [(0x8, 8)], true, false,
    [⟨63, 0, .ro, .lit 0, 0, 0xffffffffffffffff, 1⟩]⟩,
  ⟨0xd01028, [(0x40, 256), (0x8, 2)], true, false,
    [⟨63, 0, .ro, .lit 0, 0, 0xffffffffffffffff, 1⟩]⟩]

/-- The time block, R671. -/
def regRows14_0 : List RegRow := [
  ⟨0xe00000, [], false, false,
    [⟨31, 16, .ro, .lit 0xa10, 0, 65535, 1⟩,
     ⟨15, 0, .ro, .rev, 0, 65535, 1⟩]⟩,
  ⟨0xe00004, [], false, false,
    [⟨0, 0, .w1s, .lit 0, 0, 1, 1⟩]⟩,
  ⟨0xe00008, [], false, true,
    [⟨6, 0, .rwl, .lit 0x64, 1, 100, 1⟩,
     ⟨27, 8, .rwl, .lit 0x64, 1, 0xf4240, 1⟩]⟩,
  ⟨0xe0000c, [], false, false,
    [⟨0, 0, .rc, .lit 0, 0, 1, 1⟩,
     ⟨1, 1, .rc, .lit 0, 0, 1, 1⟩,
     ⟨2, 2, .rc, .lit 0, 0, 1, 1⟩,
     ⟨3, 3, .rc, .lit 0, 0, 1, 1⟩,
     ⟨4, 4, .rc, .lit 0, 0, 1, 1⟩,
     ⟨5, 5, .rc, .lit 0, 0, 1, 1⟩,
     ⟨6, 6, .rc, .lit 0, 0, 1, 1⟩,
     ⟨7, 7, .rc, .lit 0, 0, 1, 1⟩,
     ⟨8, 8, .rc, .lit 0, 0, 1, 1⟩]⟩,
  ⟨0xe00010, [], false, false,
    [⟨1, 0, .ro, .lit 1, 0, 3, 1⟩,
     ⟨4, 2, .ro, .lit 0, 0, 7, 1⟩,
     ⟨8, 5, .ro, .lit 0, 0, 15, 1⟩,
     ⟨9, 9, .ro, .lit 0, 0, 1, 1⟩,
     ⟨10, 10, .ro, .lit 0, 0, 1, 1⟩,
     ⟨12, 11, .ro, .lit 0, 0, 3, 1⟩]⟩,
  ⟨0xe00014, [], false, false,
    [⟨31, 0, .ro, .lit 0, 0, 0xffffffff, 1⟩]⟩,
  ⟨0xe00018, [], false, false,
    [⟨31, 0, .ro, .lit 0, 0, 0xffffffff, 1⟩]⟩,
  ⟨0xe0001c, [], false, false,
    [⟨15, 0, .ro, .lit 0, 0, 65535, 1⟩]⟩,
  ⟨0xe00020, [], false, false,
    [⟨31, 0, .rw, .lit 0, 0, 0xffffffff, 1⟩]⟩,
  ⟨0xe00024, [], false, false,
    [⟨31, 0, .rw, .lit 0, 0, 0xffffffff, 1⟩]⟩,
  ⟨0xe00028, [], false, false,
    [⟨15, 0, .rw, .lit 0, 0, 65535, 1⟩]⟩,
  ⟨0xe0002c, [], false, false,
    [⟨1, 0, .wo, .lit 0, 0, 3, 1⟩]⟩,
  ⟨0xe00030, [], false, false,
    [⟨31, 0, .ro, .lit 0, 0, 0xffffffff, 1⟩]⟩,
  ⟨0xe00034, [], false, false,
    [⟨31, 0, .ro, .lit 0, 0, 0xffffffff, 1⟩]⟩,
  ⟨0xe00038, [], false, false,
    [⟨31, 0, .ro, .lit 0, 0, 0xffffffff, 1⟩]⟩,
  ⟨0xe00040, [], true, false,
    [⟨63, 0, .ro, .lit 0, 0, 0xffffffffffffffff, 1⟩]⟩,
  ⟨0xe00048, [], false, false,
    [⟨31, 0, .ro, .lit 0, 0, 0xffffffff, 1⟩]⟩,
  ⟨0xe0004c, [], false, false,
    [⟨31, 0, .ro, .lit 0, 0, 0xffffffff, 1⟩]⟩,
  ⟨0xe00050, [], false, false,
    [⟨15, 0, .ro, .lit 0, 0, 65535, 1⟩]⟩,
  ⟨0xe00100, [], true, false,
    [⟨63, 0, .ro, .lit 0, 0, 0xffffffffffffffff, 1⟩]⟩,
  ⟨0xe00108, [], true, false,
    [⟨63, 0, .ro, .lit 0, 0, 0xffffffffffffffff, 1⟩]⟩,
  ⟨0xe00110, [], true, false,
    [⟨63, 0, .ro, .lit 0, 0, 0xffffffffffffffff, 1⟩]⟩,
  ⟨0xe00118, [], true, false,
    [⟨63, 0, .ro, .lit 0, 0, 0xffffffffffffffff, 1⟩]⟩,
  ⟨0xe00180, [], true, false,
    [⟨63, 0, .ro, .lit 0, 0, 0xffffffffffffffff, 1⟩]⟩,
  ⟨0xe00188, [], false, false,
    [⟨31, 0, .ro, .lit 0, 0, 0xffffffff, 1⟩]⟩,
  ⟨0xe0018c, [], false, false,
    [⟨31, 0, .ro, .lit 0, 0, 0xffffffff, 1⟩]⟩,
  ⟨0xe00190, [], false, false,
    [⟨15, 0, .ro, .lit 0, 0, 65535, 1⟩]⟩,
  ⟨0xe001a0, [(0x8, 4)], true, false,
    [⟨63, 0, .ro, .lit 0, 0, 0xffffffffffffffff, 1⟩]⟩]

/-- The synthesizer block, R672. -/
def regRows15_0 : List RegRow := [
  ⟨0xf00000, [], false, false,
    [⟨31, 16, .ro, .lit 0xa11, 0, 65535, 1⟩,
     ⟨15, 0, .ro, .rev, 0, 65535, 1⟩]⟩,
  ⟨0xf00004, [], false, false,
    [⟨0, 0, .w1s, .lit 0, 0, 1, 1⟩]⟩,
  ⟨0xf00008, [], false, false,
    [⟨0, 0, .rc, .lit 0, 0, 1, 1⟩,
     ⟨1, 1, .rc, .lit 0, 0, 1, 1⟩,
     ⟨2, 2, .rc, .lit 0, 0, 1, 1⟩,
     ⟨3, 3, .rc, .lit 0, 0, 1, 1⟩,
     ⟨4, 4, .rc, .lit 0, 0, 1, 1⟩]⟩,
  ⟨0xf00010, [(0x4, 3)], false, false,
    [⟨31, 0, .ro, .lit 0, 0, 0xffffffff, 1⟩]⟩,
  ⟨0xf00020, [(0x4, 3)], false, false,
    [⟨31, 0, .ro, .lit 0, 0, 0xffffffff, 1⟩]⟩,
  ⟨0xf01000, [(0x80, 85)], false, true,
    [⟨6, 0, .rwl, .lit 0x14, 5, 100, 1⟩,
     ⟨19, 8, .rwl, .lit 0x100, 16, 4095, 1⟩,
     ⟨21, 20, .rwl, .lit 1, 0, 2, 1⟩,
     ⟨22, 22, .rwl, .hopLive, 0, 1, 1⟩]⟩,
  ⟨0xf01004, [(0x80, 85)], false, false,
    [⟨3, 0, .wo, .lit 0, 0, 15, 1⟩,
     ⟨5, 4, .wo, .lit 0, 0, 3, 1⟩]⟩,
  ⟨0xf01008, [(0x80, 85)], false, false,
    [⟨2, 0, .ro, .lit 0, 0, 7, 1⟩,
     ⟨3, 3, .ro, .lit 1, 0, 1, 1⟩,
     ⟨5, 4, .ro, .lit 0, 0, 3, 1⟩,
     ⟨11, 6, .ro, .lit 0, 0, 63, 1⟩,
     ⟨23, 12, .ro, .lit 0, 0, 4095, 1⟩,
     ⟨24, 24, .ro, .lit 0, 0, 1, 1⟩]⟩,
  ⟨0xf0100c, [(0x80, 85)], false, false,
    [⟨15, 0, .ro, .lit 0, 0, 65535, 1⟩]⟩,
  ⟨0xf01010, [(0x80, 85)], false, false,
    [⟨0, 0, .rc, .lit 0, 0, 1, 1⟩,
     ⟨1, 1, .rc, .lit 0, 0, 1, 1⟩,
     ⟨2, 2, .rc, .lit 0, 0, 1, 1⟩,
     ⟨3, 3, .rc, .lit 0, 0, 1, 1⟩,
     ⟨4, 4, .rc, .lit 0, 0, 1, 1⟩,
     ⟨5, 5, .rc, .lit 0, 0, 1, 1⟩,
     ⟨6, 6, .rc, .lit 0, 0, 1, 1⟩,
     ⟨7, 7, .rc, .lit 0, 0, 1, 1⟩]⟩,
  ⟨0xf01020, [(0x80, 85), (0x4, 4)], false, false,
    [⟨5, 0, .ro, .lit 0, 0, 63, 1⟩,
     ⟨17, 6, .ro, .lit 0, 0, 4095, 1⟩,
     ⟨18, 18, .ro, .lit 0, 0, 1, 1⟩,
     ⟨31, 24, .ro, .lit 0, 0, 255, 1⟩]⟩,
  ⟨0xf01040, [(0x80, 85)], true, false,
    [⟨63, 0, .ro, .lit 0, 0, 0xffffffffffffffff, 1⟩]⟩,
  ⟨0xf01048, [(0x80, 85)], true, false,
    [⟨63, 0, .ro, .lit 0, 0, 0xffffffffffffffff, 1⟩]⟩,
  ⟨0xf01060, [(0x80, 85), (0x8, 2)], true, false,
    [⟨63, 0, .ro, .lit 0, 0, 0xffffffffffffffff, 1⟩]⟩]

/-- The power block, R855. -/
def regRows16_0 : List RegRow := [
  ⟨0x1000000, [], false, false,
    [⟨31, 16, .ro, .lit 0xa12, 0, 65535, 1⟩,
     ⟨15, 0, .ro, .rev, 0, 65535, 1⟩]⟩,
  ⟨0x1000004, [], false, false,
    [⟨0, 0, .w1s, .lit 0, 0, 1, 1⟩]⟩,
  ⟨0x1000008, [], false, true,
    [⟨9, 0, .rwl, .lit 0x226, 550, 900, 5⟩,
     ⟨18, 10, .rwl, .lit 0x14a, 150, 360, 1⟩,
     ⟨25, 19, .rwl, .lit 0x69, 85, 105, 1⟩,
     ⟨26, 26, .rwl, .lit 1, 0, 1, 1⟩]⟩,
  ⟨0x100000c, [], false, false,
    [⟨0, 0, .rc, .lit 0, 0, 1, 1⟩,
     ⟨1, 1, .rc, .lit 0, 0, 1, 1⟩,
     ⟨2, 2, .rc, .lit 0, 0, 1, 1⟩,
     ⟨3, 3, .rc, .lit 0, 0, 1, 1⟩,
     ⟨4, 4, .rc, .lit 0, 0, 1, 1⟩,
     ⟨5, 5, .rc, .lit 0, 0, 1, 1⟩,
     ⟨6, 6, .rc, .lit 0, 0, 1, 1⟩,
     ⟨7, 7, .rc, .lit 0, 0, 1, 1⟩,
     ⟨8, 8, .rc, .lit 0, 0, 1, 1⟩,
     ⟨9, 9, .rc, .lit 0, 0, 1, 1⟩,
     ⟨10, 10, .rc, .lit 0, 0, 1, 1⟩,
     ⟨11, 11, .rc, .lit 0, 0, 1, 1⟩]⟩,
  ⟨0x1000010, [], false, false,
    [⟨3, 0, .wo, .lit 0, 0, 15, 1⟩]⟩,
  ⟨0x1000014, [], false, false,
    [⟨3, 0, .ro, .lit 0, 0, 15, 1⟩,
     ⟨6, 4, .ro, .lit 0, 0, 7, 1⟩,
     ⟨7, 7, .ro, .lit 0, 0, 1, 1⟩,
     ⟨8, 8, .ro, .lit 0, 0, 1, 1⟩]⟩,
  ⟨0x1000018, [], false, false,
    [⟨9, 0, .ro, .lit 0, 0, 1023, 1⟩,
     ⟨25, 16, .ro, .lit 0, 0, 1023, 1⟩]⟩,
  ⟨0x100001c, [], false, false,
    [⟨15, 0, .ro, .lit 0, 0, 65535, 1⟩]⟩,
  ⟨0x1000020, [], false, false,
    [⟨31, 0, .ro, .lit 0, 0, 0xffffffff, 1⟩]⟩,
  ⟨0x1000040, [(0x4, 5)], false, false,
    [⟨31, 0, .ro, .lit 0, 0, 0xffffffff, 1⟩]⟩,
  ⟨0x1000060, [(0x4, 5)], false, false,
    [⟨31, 0, .rw, .lit 0, 0, 0xffffffff, 1⟩]⟩,
  ⟨0x1000080, [(0x4, 5)], false, false,
    [⟨31, 0, .ro, .lit 0, 0, 0xffffffff, 1⟩]⟩,
  ⟨0x1000100, [], true, false,
    [⟨63, 0, .ro, .lit 0, 0, 0xffffffffffffffff, 1⟩]⟩,
  ⟨0x1000108, [], true, false,
    [⟨63, 0, .ro, .lit 0, 0, 0xffffffffffffffff, 1⟩]⟩,
  ⟨0x1000110, [], true, false,
    [⟨63, 0, .ro, .lit 0, 0, 0xffffffffffffffff, 1⟩]⟩,
  ⟨0x1000118, [], true, false,
    [⟨63, 0, .ro, .lit 0, 0, 0xffffffffffffffff, 1⟩]⟩,
  ⟨0x1000120, [], true, false,
    [⟨63, 0, .ro, .lit 0, 0, 0xffffffffffffffff, 1⟩]⟩,
  ⟨0x1000180, [(0x8, 5)], true, false,
    [⟨63, 0, .ro, .lit 0, 0, 0xffffffffffffffff, 1⟩]⟩]

/-- The mailbox block, R795. -/
def regRows17_0 : List RegRow := [
  ⟨0x1100000, [], false, false,
    [⟨31, 16, .ro, .lit 0xa13, 0, 65535, 1⟩,
     ⟨15, 0, .ro, .rev, 0, 65535, 1⟩]⟩,
  ⟨0x1100004, [], false, false,
    [⟨0, 0, .w1s, .lit 0, 0, 1, 1⟩]⟩,
  ⟨0x1100008, [], false, true,
    [⟨0, 0, .rwl, .lit 1, 0, 1, 1⟩]⟩,
  ⟨0x110000c, [], false, false,
    [⟨0, 0, .rc, .lit 0, 0, 1, 1⟩,
     ⟨1, 1, .rc, .lit 0, 0, 1, 1⟩,
     ⟨2, 2, .rc, .lit 0, 0, 1, 1⟩,
     ⟨3, 3, .rc, .lit 0, 0, 1, 1⟩,
     ⟨4, 4, .rc, .lit 0, 0, 1, 1⟩,
     ⟨5, 5, .rc, .lit 0, 0, 1, 1⟩,
     ⟨6, 6, .rc, .lit 0, 0, 1, 1⟩,
     ⟨7, 7, .rc, .lit 0, 0, 1, 1⟩]⟩,
  ⟨0x1100010, [], false, false,
    [⟨1, 0, .wo, .lit 0, 0, 3, 1⟩,
     ⟨26, 16, .wo, .lit 0, 0, 2047, 1⟩]⟩,
  ⟨0x1100014, [], false, false,
    [⟨1, 0, .ro, .lit 0, 0, 3, 1⟩,
     ⟨26, 16, .ro, .lit 0, 0, 2047, 1⟩]⟩,
  ⟨0x1100100, [], true, false,
    [⟨63, 0, .ro, .lit 0, 0, 0xffffffffffffffff, 1⟩]⟩,
  ⟨0x1100108, [], true, false,
    [⟨63, 0, .ro, .lit 0, 0, 0xffffffffffffffff, 1⟩]⟩,
  ⟨0x1100110, [], true, false,
    [⟨63, 0, .ro, .lit 0, 0, 0xffffffffffffffff, 1⟩]⟩,
  ⟨0x1101000, [(0x4, 512)], false, false,
    [⟨31, 0, .rw, .lit 0, 0, 0xffffffff, 1⟩]⟩,
  ⟨0x1101800, [(0x4, 512)], false, false,
    [⟨31, 0, .ro, .lit 0, 0, 0xffffffff, 1⟩]⟩,
  ⟨0x1100180, [(0x8, 3)], true, false,
    [⟨63, 0, .ro, .lit 0, 0, 0xffffffffffffffff, 1⟩]⟩]

/-- The store and fuses block, R827. -/
def regRows18_0 : List RegRow := [
  ⟨0x1200000, [], false, false,
    [⟨31, 16, .ro, .lit 0xa14, 0, 65535, 1⟩,
     ⟨15, 0, .ro, .rev, 0, 65535, 1⟩]⟩,
  ⟨0x1200004, [], false, false,
    [⟨0, 0, .w1s, .lit 0, 0, 1, 1⟩]⟩,
  ⟨0x1200008, [], false, true,
    [⟨12, 0, .rwl, .lit 0xfa0, 100, 4000, 1⟩,
     ⟨13, 13, .rwl, .lit 1, 0, 1, 1⟩]⟩,
  ⟨0x120000c, [], false, false,
    [⟨0, 0, .rc, .lit 0, 0, 1, 1⟩,
     ⟨1, 1, .rc, .lit 0, 0, 1, 1⟩,
     ⟨2, 2, .rc, .lit 0, 0, 1, 1⟩,
     ⟨3, 3, .rc, .lit 0, 0, 1, 1⟩,
     ⟨4, 4, .rc, .lit 0, 0, 1, 1⟩,
     ⟨5, 5, .rc, .lit 0, 0, 1, 1⟩,
     ⟨6, 6, .rc, .lit 0, 0, 1, 1⟩,
     ⟨7, 7, .rc, .lit 0, 0, 1, 1⟩,
     ⟨8, 8, .rc, .lit 0, 0, 1, 1⟩,
     ⟨9, 9, .rc, .lit 0, 0, 1, 1⟩]⟩,
  ⟨0x1200010, [], false, false,
    [⟨1, 0, .ro, .lit 0, 0, 3, 1⟩,
     ⟨8, 2, .ro, .lit 0, 0, 127, 1⟩,
     ⟨9, 9, .ro, .lit 0, 0, 1, 1⟩,
     ⟨12, 10, .ro, .lit 0, 0, 7, 1⟩]⟩,
  ⟨0x1200014, [], false, false,
    [⟨12, 0, .ro, .lit 0, 0, 8191, 1⟩]⟩,
  ⟨0x1200018, [], false, false,
    [⟨31, 0, .ro, .lit 0, 0, 0xffffffff, 1⟩]⟩,
  ⟨0x1200020, [], true, false,
    [⟨63, 0, .ro, .lit 0, 0, 0xffffffffffffffff, 1⟩]⟩,
  ⟨0x1200028, [], true, false,
    [⟨63, 0, .ro, .lit 0, 0, 0xffffffffffffffff, 1⟩]⟩,
  ⟨0x1200100, [], true, false,
    [⟨63, 0, .ro, .lit 0, 0, 0xffffffffffffffff, 1⟩]⟩,
  ⟨0x1200108, [], true, false,
    [⟨63, 0, .ro, .lit 0, 0, 0xffffffffffffffff, 1⟩]⟩,
  ⟨0x1200110, [], true, false,
    [⟨63, 0, .ro, .lit 0, 0, 0xffffffffffffffff, 1⟩]⟩,
  ⟨0x1200118, [], true, false,
    [⟨63, 0, .ro, .lit 0, 0, 0xffffffffffffffff, 1⟩]⟩,
  ⟨0x1200120, [], true, false,
    [⟨63, 0, .ro, .lit 0, 0, 0xffffffffffffffff, 1⟩]⟩,
  ⟨0x1200800, [(0x4, 512)], false, false,
    [⟨31, 0, .ro, .fuse, 0, 0xffffffff, 1⟩]⟩,
  ⟨0x1200180, [(0x8, 5)], true, false,
    [⟨63, 0, .ro, .lit 0, 0, 0xffffffffffffffff, 1⟩]⟩]

/-- The registers of a block, by BAR0 offset shifted right by 20. -/
def regRows : Nat → List RegRow
  | 0 => regRows0_0
  | 1 => regRows1_0
  | 2 => regRows2_0 ++ regRows2_1
  | 3 => regRows3_0
  | 4 => regRows4_0 ++ regRows4_1
  | 5 => regRows5_0
  | 6 => regRows6_0
  | 7 => regRows7_0
  | 8 => regRows8_0 ++ regRows8_1
  | 9 => regRows9_0 ++ regRows9_1
  | 10 => regRows10_0
  | 11 => regRows11_0
  | 12 => regRows12_0
  | 13 => regRows13_0
  | 14 => regRows14_0
  | 15 => regRows15_0
  | 16 => regRows16_0
  | 17 => regRows17_0
  | 18 => regRows18_0
  | _ => []

/-- SNAP holding registers (R740): first holding register, strides and counts of its array, first counter, how many. -/
def snapRows : List SnapRow := [
  ⟨0x300180, [], 0x300100, 6⟩,
  ⟨0x400180, [], 0x400100, 5⟩,
  ⟨0x401080, [(0x100, 32)], 0x401040, 3⟩,
  ⟨0x410080, [(0x100, 256)], 0x410040, 3⟩,
  ⟨0x500180, [], 0x500100, 4⟩,
  ⟨0x501080, [(0x100, 8)], 0x501040, 5⟩,
  ⟨0x600180, [], 0x600100, 5⟩,
  ⟨0x601020, [(0x40, 64)], 0x601010, 2⟩,
  ⟨0x700180, [], 0x700100, 8⟩,
  ⟨0x800180, [], 0x800100, 8⟩,
  ⟨0x810080, [(0x100, 256)], 0x810040, 4⟩,
  ⟨0x900180, [(0x1000, 256)], 0x900100, 11⟩,
  ⟨0xa010a0, [(0x100, 8)], 0xa01040, 12⟩,
  ⟨0xa02080, [(0x100, 8)], 0xa02040, 3⟩,
  ⟨0xb00180, [], 0xb00100, 5⟩,
  ⟨0xb01080, [(0x100, 8)], 0xb01040, 4⟩,
  ⟨0xc00180, [], 0xc00100, 6⟩,
  ⟨0xd00180, [], 0xd00100, 8⟩,
  ⟨0xd01028, [(0x40, 256)], 0xd01018, 2⟩,
  ⟨0xe001a0, [], 0xe00100, 4⟩,
  ⟨0xf01060, [(0x80, 85)], 0xf01040, 2⟩,
  ⟨0x200180, [], 0x200100, 6⟩,
  ⟨0x180, [], 0x100, 4⟩,
  ⟨0x100180, [], 0x100100, 4⟩,
  ⟨0x1100180, [], 0x1100100, 3⟩,
  ⟨0x1200180, [], 0x1200100, 5⟩,
  ⟨0x1000180, [], 0x1000100, 5⟩]

end Sys2Proof.Machine
end

