-- ==== Sys2Proof/Machine/State.lean ====
section
/-! DEFINITION. The state of the block, its faults and refusals, and the state after reset. Whatever a
register holds is held in `regs` alone; the other fields are the state that the spec gives beside the
registers. -/

namespace Sys2Proof.Machine

/-- Why the machine stops. -/
inductive Fault where
  /-- Raised by HBM_READ_RETURN for an address that no stack holds (R228, 384 GiB): no such flit exists. Safe:
  the machine stops where the hardware has nothing to return. -/
  | hbmAddress (addr : Nat)
  deriving DecidableEq, Repr

/-- Why a command has no meaning. -/
inductive Refusal where
  /-- Answered by exec for a command that has no meaning yet. Safe. -/
  | notModelled (mnemonic : String)
  /-- Answered by every command that names a unit the part does not have: pip 256, snake 256, queue 1,032,
  synthesizer 85, port 8, function 32, and so on. The world cannot send it. Safe. -/
  | noSuchUnit
  /-- Answered by the queue-entry commands whose entry spells another opcode of R693 than the command's row, and by
  the commands of an upstream frame whose good frame is of another type of R478: that is another row's command. Safe. -/
  | otherRow
  deriving DecidableEq, Repr

/-! ### What the block drives out -/

/-- Something the block sent out of the package. The list of these in the state is the model's record of
the outside's view; nothing inside reads it. -/
inductive OutMsg where
  /-- a DMA write of bytes to host memory under a function's requester ID -/
  | hostWrite (fn addr : Nat) (bytes : List Byte)
  /-- an MSI-X message -/
  | msix (fn vec : Nat)
  /-- a frame sent down a snake, as 64-bit words -/
  | snakeFrame (snake : Nat) (words : List LinkWord)
  /-- symbols of the codewords of the last frame of a snake that fault injection has inverted (R517) -/
  | symErr (snake symbols : Nat)
  /-- a frame sent on a control port -/
  | ctrlFrame (port : Nat) (bytes : List Byte)
  /-- a message sent on a table link, by ingest port -/
  | tableMsg (port : Nat) (bytes : List Byte)
  /-- FORWARD, STATE and AMBIENT messages, whose bodies the spec gives no layout -/
  | tableReq (port : Nat) (hdr : TableHdr) (req : TableReq)
  | tableState (port : Nat) (hdr : TableHdr) (decisions : List TableDecision)
  | tableAmbient (port : Nat) (hdr : TableHdr) (lux : List Nat)
  /-- an ARP reply of an ingest port to a hardware and a protocol address; the port's own hardware address is not given -/
  | arpReply (port : Nat) (mac ip : List Byte)
  /-- a PTP Delay_Req sent on a port -/
  | delayReq (port : Nat)
  /-- a VOUT_COMMAND of the PMBus, mV -/
  | vout (mv : Nat)
  /-- a Shovin response on a control port; where its request came as a frame, the next hop, the address and the UDP port
  that it goes to -/
  | response (transport : Nat) (dest : Option (Nat × Nat × Nat)) (bytes : List Byte)
  deriving DecidableEq, Repr

/-! ### Time -/

/-- A TIME_CMD that waits for its moment (R651). -/
inductive TimePend where
  /-- a slew under way or waiting, ns left -/
  | slew (ns : Int) (byCommand : Bool)
  /-- AT_SECOND to these seconds -/
  | atSecond (sec : Nat) (writtenAt : Nat)
  deriving DecidableEq, Repr

/-- A genlock input (R648). -/
structure RefIn where
  good : Nat := 0
  bad : Nat := 0
  /-- consecutive readings within 100 ns while selected (R644) -/
  locked : Nat := 0
  deriving DecidableEq, Repr

/-- A foreign master as its last Announce gives it (R645), by port. -/
structure Foreign where
  port : Nat
  data : Announce
  deriving DecidableEq, Repr

/-- The time base beside its registers (R639 to R655). Times are in units of 10 ps. -/
structure TimeSt where
  /-- the turn counter (R45), 1 after reset (R838) -/
  turn : Nat := 1
  /-- elapsed time since reset, in cycles of synthesizer 0 counted as 1.28 ns -/
  now : Nat := 0
  /-- device time since the PTP epoch -/
  dev : Nat := 0
  pend : Option TimePend := none
  /-- a step decided and not yet applied: ns, and whether a TIME_CMD asked for it -/
  step : Option (Int × Bool) := none
  /-- a step was applied since the last present instant (R654) -/
  stepped : Bool := false
  /-- second shadows of TIME_NS by requester (R650) -/
  shadow : Tab Nat := []
  /-- second shadows of NEXT_PRES_NS by requester -/
  shadowPres : Tab Nat := []
  foreign : List Foreign := []
  /-- the best master in force -/
  gm : Option Foreign := none
  /-- consecutive Sync messages within 100 ns (R644) -/
  syncGood : Nat := 0
  /-- a two-step Sync that waits for its Follow_Up: receive time -/
  syncRx : Option Nat := none
  /-- slave minus origin of the last Sync, for the path delay -/
  lastT : Option (Nat × Nat) := none
  /-- device time at which the last Delay_Req left, by port -/
  delayTx : Tab Nat := []
  refs : Tab RefIn := []
  /-- device time at which HOLDOVER was entered -/
  holdSince : Option Nat := none
  /-- REF_MODE changes that wait for a quiet interval, by synthesizer (R664) -/
  refModePend : Tab Nat := []
  /-- hops under way, by synthesizer: target, and whether it is a reband -/
  hops : Tab (Nat × Bool) := []
  deriving DecidableEq, Repr

/-! ### Events (R746 to R757) -/

/-- Raises collected under a holdoff (R749). -/
structure Hold where
  count : Nat
  turn : Nat
  detail : Nat
  time : Nat
  deriving DecidableEq, Repr

/-- An event record (R757). -/
structure EvRec where
  event : Nat
  count : Nat
  turn : Nat
  detail : Nat
  time : Nat
  fatal : Bool
  deriving DecidableEq, Repr

/-- The event controller beside its registers. -/
structure EvSt where
  /-- open holdoffs by event -/
  holds : Tab Hold := []
  /-- rings whose next record carries LOSS (R754) -/
  loss : List Nat := []
  /-- records written since the last signal, by ring (R756) -/
  since : Tab Nat := []
  /-- records held for the banker while it restarts, oldest first (R752) -/
  bank : List EvRec := []
  /-- events raised "at most once per turn" that were raised in this turn -/
  once : List Nat := []
  /-- functions with MSI-X enabled, with the function mask set, with Bus Master Enable (R751) -/
  msixEn : List Nat := []
  msixMask : List Nat := []
  busMaster : List Nat := []
  /-- unmasked vectors, function × 2048 + vector; every other vector is masked -/
  unmasked : List Nat := []
  /-- pending-bit array, function × 2048 + vector -/
  pba : List Nat := []
  vfEnable : Bool := false
  /-- lock violations of this turn by block, for the count in their ledger entry (R733) -/
  viol : Tab Nat := []
  deriving DecidableEq, Repr

/-! ### Register access (R716 to R743) -/

/-- A posted write that waits to be applied (R726). -/
structure Posted where
  req : Nat
  addr : Nat
  value : Nat
  bytes : Nat
  deriving DecidableEq, Repr

/-- Register access state beside the registers themselves. -/
structure AccSt where
  /-- the data the last register read returned (R720) -/
  readData : Nat := 0
  /-- high-word shadows: requester × 32 + block to (register, high word) (R719) -/
  shadow : Tab (Nat × Nat) := []
  /-- the write held by each posted block -/
  posted : Tab Posted := []
  deriving DecidableEq, Repr

/-! ### Channels (R102 to R111) -/

/-- A channel that is LIVE or RETIRING. -/
structure Chan where
  gen : Nat
  retiring : Bool := false
  owner : Nat := 0
  cseq : Nat := 0
  rung : Nat := 7
  demoted : Bool := false
  /-- admission sequence number of the stake, 0 for none -/
  aseq : Nat := 0
  /-- queue and tag of the descriptor that admitted the stake (R163) -/
  queue : Nat := 0
  tag : Nat := 0
  /-- the channel's record, of the length its chapter gives -/
  record : List Byte := []
  /-- the record as last admitted (R142) -/
  stake : List Byte := []
  /-- a layer's admitted cost weight in halves, its fetch charge in 1/4096 byte per turn with the stacks it is
  divided among, and a CAPTURE layer's charge in 1/16 byte per turn with its stacks (R138, R139, R327) -/
  weight : Nat := 0
  fetch : Nat := 0
  mask : Nat := 0
  cap : Nat := 0
  capMask : Nat := 0
  /-- a layer that another device of the table asked for: that device, whose sources it names (R114) -/
  home : Option Nat := none
  /-- a layer that waits for the shares of the other devices (R115) -/
  offered : Bool := false
  deriving DecidableEq, Repr

/-- Channels and their counters. Keys are class × 2^20 + index. -/
structure ChanSt where
  chans : Tab Chan := []
  /-- generation last issued on each index; an index not listed has issued none (R104) -/
  gens : Tab Nat := []
  /-- CSEQ of the next creation (R106) -/
  nextCseq : Nat := 1
  deriving DecidableEq, Repr

/-! ### Queues (R681 to R714) -/

/-- Why a started entry has not completed. -/
inductive OwedKind where
  /-- a change of a channel that completes when it is applied at a compose window (R698); the channel as it was
  before, none for a create, for the case that the entry is flushed (R707) -/
  | change (cls idx : Nat) (before : Option Chan)
  /-- a store load that completes at its bank switch (R335) -/
  | store (store slot : Nat)
  | calLoad (unit : Nat)
  | clipWrite (id : Nat)
  | surface (xfer : Nat)
  /-- a create that waits for the other devices of the table (R115) -/
  | table (idx : Nat)
  /-- an admission request that waits for the recomputation under way (R184) -/
  | admission (entry : List Byte)
  /-- a create that waits for the zero fill of its surfaces, by the first of their keys (R260) -/
  | zeroFill (key : Nat)
  deriving DecidableEq, Repr

/-- A started entry whose completion is owed. -/
structure Owed where
  queue : Nat
  tag : Nat
  handle : Nat
  kind : OwedKind
  deriving DecidableEq, Repr

/-- A completion entry (R697) before its PHASE is known. -/
structure Compl where
  tag : Nat
  status : Nat
  isTime : Bool
  async : Bool
  handle : Nat
  turn : Nat
  queue : Nat
  reason : Nat
  deriving DecidableEq, Repr

/-- The work-queue engine beside its registers. -/
structure QSt where
  owed : List Owed := []
  /-- DEMOTED entries held, by ring, oldest first (R703) -/
  held : Tab (List Compl) := []
  /-- entries written since the last signal, by ring (R704) -/
  since : Tab Nat := []
  /-- queues that have reported the stall of their present entry (R684) -/
  ownStall : List Nat := []
  deriving DecidableEq, Repr

/-! ### Banker, ledger, persistent store (R798 to R828) -/

/-- A ledger entry: the first 48 bytes of R806 and the chain value. -/
structure Ledger where
  seq : Nat
  body : List Byte
  lmac : List Byte
  deriving DecidableEq, Repr

/-- A ledger entry that waits while the banker restarts (R799). -/
structure LedReq where
  prot : Bool
  kind : Nat
  source : Nat
  count : Nat
  data : List Byte
  exempt : Bool
  deriving DecidableEq, Repr

/-- A response to a request of the dictionary service before it is stamped: the transport, the mailbox request it is for,
where it goes, its key (none for TIME) and its fields (R784). -/
structure Reply where
  transport : Nat
  tok : Nat
  dest : Option (Nat × Nat × Nat)
  key : Option (List Byte)
  op : Nat
  role : Nat
  status : Nat
  client : Nat
  seq : Nat
  body : List Byte
  deriving DecidableEq, Repr

/-- A journal transaction (R812): objects by index × 256 + subindex with their new values, an image, slots retired, and
what waits for the commit: ledger entries, a response, and objects that change after the response has left (R783). -/
structure Txn where
  objs : List (Nat × List Byte) := []
  image : Option (List Byte) := none
  retire : List Nat := []
  entries : List LedReq := []
  answer : Option Reply := none
  late : List (Nat × List Byte) := []
  deriving DecidableEq, Repr

/-- A segmented transfer (R789). -/
structure Seg where
  role : Nat
  client : Nat
  index : Nat
  sub : Nat
  total : Nat
  data : List Byte
  deriving DecidableEq, Repr

/-- An accepted request and its response, none while that waits, kept against replay until device time passes a number
of ns (R787), with the copies that wait for it: transport, mailbox request and destination (R796). -/
structure Replay where
  role : Nat
  client : Nat
  seq : Nat
  expires : Nat
  request : List Byte
  response : Option (List Byte)
  waits : List (Nat × Nat × Option (Nat × Nat × Nat))
  deriving DecidableEq, Repr

/-- The banker and the persistent store beside their registers. -/
structure BankSt where
  /-- ledger rings, newest first (R805) -/
  general : List Ledger := []
  protect : List Ledger := []
  /-- the second of device time being counted and general entries written in it (R809) -/
  second : Nat := 0
  inSecond : Nat := 0
  droppedSecond : Nat := 0
  dropped : Nat := 0
  ledWait : List LedReq := []
  /-- object values in force by index × 256 + subindex, big-endian; an object not listed has its default -/
  objs : Tab (List Byte) := []
  /-- object values as committed to MRAM (R768) -/
  store : Tab (List Byte) := []
  /-- values of RW objects, lost when the banker resets -/
  rw : Tab (List Byte) := []
  /-- MIRROR_SEL and ledger cursors by requester (R773, R824) -/
  mirror : Tab Nat := []
  cursor : Tab (Nat × Nat) := []
  /-- the journal transaction staged and the ones waiting (R812) -/
  staged : Option Txn := none
  waiting : List Txn := []
  /-- image in force as stored (R95) -/
  storedImage : Option (List Byte) := none
  /-- fuse bits blown since the factory (R815) -/
  blown : List Nat := []
  dictLock : Bool := false
  replays : List Replay := []
  segs : List Seg := []
  restarting : Bool := false
  restarts : Nat := 0
  /-- the banker images in slots A and B that differ from the ones shipped (R817) -/
  slots : Tab (List Byte) := []
  /-- the slot that the slot selector names (R819) -/
  selector : Nat := 0
  /-- an ACTIVATE waits for its restart, and that restart waits for the journal (R821) -/
  activating : Bool := false
  activateDue : Bool := false
  /-- what the restart under way boots: 0 the active slot, 1 the other on trial, 2 the active one after a trial (R820) -/
  boot : Nat := 0
  /-- number of the mailbox request that a response would answer (R792) -/
  mbxTok : Nat := 0
  /-- first failing SEQ of the last chain verified (R808) -/
  firstFail : Nat := 0
  /-- die sensors at or above TJ_WARN that have not rearmed (R800) -/
  warm : List Nat := []
  hottest : Int := 0
  hottestEver : Int := 0
  /-- retired slots, cup × 9 + slot (R801) -/
  retiredSlots : List Nat := []
  /-- the wear warning of R811 has been raised -/
  wearWarned : Bool := false
  /-- second of device time of the last wear move -/
  lastMove : Option Nat := none
  /-- the MRAM takes no more writes (R845) -/
  writeProtect : Bool := false
  answered : Nat := 0
  authFailed : Nat := 0
  stale : Nat := 0
  /-- outcome of the last image load and its effective turn (R96) -/
  imageStatus : Nat := 0
  imageTurn : Nat := 0
  /-- the table epoch as the persistent store holds it (R445) -/
  epoch : Nat := 0
  deriving DecidableEq, Repr

/-! ### Power (R829 to R857) -/

/-- The power manager beside its registers. -/
structure PwrSt where
  /-- elapsed times of automatic warm resets (R851) -/
  warms : List Nat := []
  /-- consecutive readings at or above 115 °C (R849) -/
  hotRuns : Nat := 0
  /-- the fault in force came from a thermal trip, or is a start-up failure -/
  thermal : Bool := false
  startupFail : Bool := false
  /-- voltage monitors outside an absolute window at their last reading -/
  outside : List Nat := []
  /-- elapsed time of the last step down, and since when every cup had pace to spare (R835) -/
  lastDown : Option Nat := none
  spareSince : Option Nat := none
  /-- limited by temperature, by power, by PMBus (R836, R837) -/
  limTemp : Bool := false
  limPower : Bool := false
  limPmb : Bool := false
  /-- a trial has completed since reset -/
  trialDone : Bool := false
  dieTemps : List Int := []
  /-- PCIE_PERST_N is low -/
  perst : Bool := false
  /-- switched domains that failed power-good and stay off (R830) -/
  failed : List Nat := []
  deriving DecidableEq, Repr

/-! ### Board geometry (R69 to R100) -/

/-- A square that this device owns, by its record (R87). -/
structure Square where
  flags : Nat
  x : Nat
  y : Nat
  w : Nat
  h : Nat
  tileType : Nat
  calSet : Nat
  deriving DecidableEq, Repr

/-- The image in force (R95). -/
structure GeoSt where
  image : Option (List Byte) := none
  width : Nat := 0
  height : Nat := 0
  depth : Nat := 0
  devices : Nat := 1
  imageId : List Byte := []
  hash : List Byte := []
  /-- squares of this device by square number 64 × snake + position (R75) -/
  squares : Tab Square := []
  /-- squares of the other devices of the table, each with its owner (R86, R113) -/
  others : List (Nat × Square) := []
  deriving DecidableEq, Repr

/-! ### The present schedule (R44 to R57, R412 to R424) -/

/-- Where the turn stands (R47). -/
inductive Phase where
  | quiet | compose | composed | pushed
  deriving DecidableEq, Repr

/-- A timing change (R417), whole: the values that hold from turn ne. -/
structure Timing where
  ne : Nat
  announced : Bool := false
  num : Nat
  den : Nat
  quiet : Nat
  src : Nat
  refModes : List (Nat × Nat) := []
  image : Option (List Byte) := none
  deriving DecidableEq, Repr

/-- The present schedule beside its registers. -/
structure SchedSt where
  phase : Phase := .quiet
  /-- QUIET in force, µs -/
  quiet : Nat := 20
  /-- device time of the present instant of this turn, ns, and the elapsed time then -/
  presNs : Nat := 0
  presNow : Nat := 0
  timing : Option Timing := none
  /-- turn of this device at which a DIVIDED table joins again, the ruler's turn at that instant, and whether this device
  resynchronises or belongs to the ruling part (R452) -/
  resync : Option (Nat × Nat × Bool) := none
  deriving DecidableEq, Repr

/-! ### Admission (R116 to R184) -/

/-- The admission controller beside its registers. -/
structure AdmSt where
  /-- held patches (R164, R167) -/
  held : List Nat := []
  deriving DecidableEq, Repr

/-! ### Pips and cups (R185 to R222) -/

/-- Pips and cups beside their registers. Entries are patch keys: square × 256 + patch. -/
structure PipSt where
  /-- the plan in force, by logical pip (R207) -/
  plan : Tab (List Nat) := []
  /-- a plan rebuilt and not yet in force, by quarter: its number of classes, and one list for each logical pip (R211) -/
  nextPlan : Tab (Nat × List (Nat × List Nat)) := []
  /-- quarters whose rebuild is not complete (R210) -/
  rebuild : List Nat := []
  /-- entries not yet started, by logical pip -/
  todo : Tab (List Nat) := []
  /-- patch in progress, by logical pip -/
  work : Tab Nat := []
  /-- orphan pools, by cup (R191) -/
  orphans : Tab (List Nat) := []
  /-- back-off registers, by logical pip (R216) -/
  lfsr : Tab Nat := []
  /-- `SLOT_MAP` in force, by cup (R193) -/
  map : Tab Nat := []
  /-- reserve slot, by cup -/
  reserve : Tab Nat := []
  deriving DecidableEq, Repr

/-! ### Memory and surfaces (R228 to R280) -/

/-- A surface as the surface unit holds it: the geometry in force and where its portions lie. -/
structure Surf where
  fmt : Nat
  kamius : Bool
  w : Nat
  h : Nat
  pitch : Nat
  /-- the stacks of its mask in rising order, each with the HBM address and length of its portion (R258) -/
  parts : List (Nat × Nat × Nat)
  deriving DecidableEq, Repr

/-- A SURFACE_WRITE or SURFACE_READ under way (R695). -/
structure Xfer where
  queue : Nat
  tag : Nat
  handle : Nat
  write : Bool
  surf : Nat
  x : Nat
  y : Nat
  w : Nat
  h : Nat
  addr : Nat
  pitch : Nat
  deriving DecidableEq, Repr

/-- The memory subsystem beside its registers. Surfaces are keyed by their own index, the frame surfaces of
ingest channels from 2^20 and the lookahead buffers of clip channels from 2^21 (R111). -/
structure MemSt where
  surfs : Tab Surf := []
  /-- flits that read poisoned, by HBM address / 32 -/
  poison : List Nat := []
  /-- elapsed time of the last successful training, by stack -/
  trained : Tab Nat := []
  /-- elapsed time since when a stack is due -/
  dueSince : Tab Nat := []
  /-- temperature that the retraining under way started at, unsigned byte, by stack -/
  startTemp : Tab Nat := []
  /-- elapsed times of corrected errors of the last hour and uncorrectable ones of the last second, by stack -/
  ces : Tab (List Nat) := []
  ues : Tab (List Nat) := []
  xfers : Tab Xfer := []
  /-- creates whose surfaces wait for their zero fill, by the first key, oldest first (R260, R275) -/
  filling : List Nat := []
  deriving DecidableEq, Repr

/-! ### Composition (R281 to R343) -/

/-- An accumulator pixel (R309). -/
structure Pix where
  r : Nat
  g : Nat
  b : Nat
  a : Nat
  deriving DecidableEq, Repr

/-- A layer as a compose window latched it (R51, R315). -/
structure Latch where
  record : List Byte
  handle : Nat
  /-- the surface read, by its key; none for a layer with no frame -/
  src : Option Nat
  /-- size of the frame read -/
  fw : Nat
  fh : Nat
  /-- which frame of the source it is, to tell one from the next (R395) -/
  frame : Nat
  deriving DecidableEq, Repr

/-- A patch that a pip has emitted and no calibration unit has taken (R185). -/
structure Emitted where
  patch : Nat
  pix : List Pix
  deriving DecidableEq, Repr

/-- A store load that waits for its bank switch (R335, R336). -/
structure StoreLoad where
  queue : Nat
  tag : Nat
  store : Nat
  slot : Nat
  taps : Nat
  body : List Byte
  deriving DecidableEq, Repr

/-- Composition beside its registers. -/
structure CompSt where
  latched : Tab Latch := []
  /-- number of the content being composed -/
  content : Nat := 0
  /-- loaded scaler sets (TAPS and body), tables, matrices and ageing curves, by slot -/
  sets : Tab (Nat × List Byte) := []
  tables : Tab (List Byte) := []
  mats : Tab (List Byte) := []
  curves : Tab (List Byte) := []
  loads : List StoreLoad := []
  /-- patches damaged again in the next content for two-buffer captures (R325) -/
  capNext : List Nat := []
  /-- contents for which a capture layer's patches stay damaged (R325) -/
  capTurns : Tab Nat := []
  /-- emitted patches that wait for the calibration unit, by quarter -/
  emit : Tab (List Emitted) := []
  /-- check evaluations of this content: check index to (patches left, value so far, spoiled) -/
  checks : Tab (List Nat × Nat × Bool) := []
  /-- layers blended in the content being composed, by index, and 64 + the index of those culled on a patch of it -/
  blended : List Nat := []
  /-- checks whose last evaluation was skipped (R439) -/
  skips : List Nat := []
  /-- LEARN checks whose EXPECT has been written (R440) -/
  learned : List Nat := []
  deriving DecidableEq, Repr

/-! ### Calibration (R344 to R391) -/

/-- An LED-current reading that waits (R369, R370): board pixel, channel, µA, ms. -/
structure AgeReading where
  x : Nat
  y : Nat
  chan : Nat
  amp : Nat
  ms : Nat
  deriving DecidableEq, Repr

/-- A calibration load (R363 to R368). -/
structure CalWork where
  queue : Nat
  tag : Nat
  handle : Nat
  mode : Nat
  x : Nat
  y : Nat
  w : Nat
  h : Nat
  square : Nat
  /-- its first entry has been written -/
  writing : Bool
  /-- its last entry has been written -/
  written : Bool
  deriving DecidableEq, Repr

/-- A board rectangle whose squares are held because a load of it began (R367), with the parts that no load which
completed OK has covered since; each is x, y, w, h. -/
structure LoadHold where
  rect : Nat × Nat × Nat × Nat
  left : List (Nat × Nat × Nat × Nat)
  deriving DecidableEq, Repr

/-- Calibration beside its registers. -/
structure CalSt where
  /-- profile commits that wait for the next compose window: number and the four words (R350) -/
  commits : List (Nat × List Nat) := []
  ages : Tab (List AgeReading) := []
  loads : Tab (List CalWork) := []
  /-- rectangles held by loads, kept in the persistent store (R367) -/
  held : List LoadHold := []
  /-- latest plausible ambient reading by square: lux and elapsed time -/
  amb : Tab (Nat × Nat) := []
  /-- readings of the other devices of the table, by device: lux values and elapsed time (R384) -/
  ambPeers : Tab (List Nat × Nat) := []
  ambSeen : Bool := false
  ambStale : Bool := false
  /-- drive level and digital gain of the content latched, by square (R352) -/
  dl : Tab Nat := []
  g : Tab Nat := []
  /-- output matrix, output table and CAL_EN of the content latched (R51, R387) -/
  outMx : Nat := 0
  outTable : Nat := 0
  calEn : Bool := true
  /-- squares that have set EXTRAP (square × 2) or EXTRAP_LOW (square × 2 + 1) in this content (R358) -/
  extrap : List Nat := []
  /-- ceiling writes not yet in effect (R380) -/
  ceilPend : Nat := 0
  /-- brightness that the ruler gave for the next content (R384) -/
  bRuler : Option Nat := none
  deriving DecidableEq, Repr

/-! ### Push, present and proof of display (R392 to R459) -/

/-- A patch in a snake's push buffer: its key and its calibrated payload. -/
structure BufPatch where
  patch : Nat
  bytes : List Byte
  deriving DecidableEq, Repr

/-- The push engine beside its registers. Patch keys are square × 256 + patch. -/
structure PushSt where
  /-- patches whose damage bit D is 1 (R394) -/
  dmg : List Nat := []
  /-- push state S of patches that are not IDLE: 1 INFLIGHT, 2 VERIFY -/
  st : Tab Nat := []
  /-- the latched damage map of the content being pushed -/
  latched : List Nat := []
  emitted : List Nat := []
  abandoned : List Nat := []
  underrun : List Nat := []
  /-- patches whose PUSH frame was acknowledged before the cutoff -/
  acked : List Nat := []
  /-- patches whose PUSH frame was given up or came too late -/
  left : List Nat := []
  /-- PCRC of the codes pushed in this turn, of the codes shown, and of the ones shown before (R433);
  a shown patch not listed shows zero codes -/
  pushed : Tab Nat := []
  shown : Tab Nat := []
  prev : Tab Nat := []
  /-- push buffers by snake, head first (R398) -/
  buf : Tab (List BufPatch) := []
  /-- the push cutoff of this turn has passed -/
  cut : Bool := false
  /-- flip maps of the PRESENT frames sent in this turn, by square -/
  fmap : Tab (List Nat) := []
  /-- squares whose PRESENT frame was acknowledged in this turn -/
  presAck : List Nat := []
  /-- PRESENT frames are sent in this turn (R426) -/
  sends : Bool := true
  /-- squares that await an ECHO: content -/
  awaits : Tab Nat := []
  /-- consecutive echo failures by square (R435) -/
  fails : Tab Nat := []
  faulty : List Nat := []
  /-- elapsed time of the last acknowledged PRESENT, by square (R443) -/
  lastPres : Tab Nat := []
  /-- squares with a tile that reports HOLD (R472) -/
  holding : List Nat := []
  /-- consecutive empty damage maps (R425) -/
  empty : Nat := 0
  /-- push-line slots that have fired for this content (R430) -/
  fired : List Nat := []
  /-- squares that acknowledged a CADENCE frame of the announcement under way (R419) -/
  cadAck : List Nat := []
  /-- squares whose geometry changes at the next present instant: shown codes become zero (R508) -/
  rezero : List Nat := []
  /-- snakes enumerated at the next present instant for a geometry change (R100) -/
  reenum : List Nat := []
  deriving DecidableEq, Repr

/-! ### Snakes (R460 to R523) -/

/-- A downstream frame that awaits its acknowledgement (R497). -/
structure Flight where
  seq : Nat
  ftype : Nat
  patch : Nat
  tries : Nat
  words : List LinkWord
  deriving DecidableEq, Repr

/-- Where an enumeration stands (R500). -/
inductive WalkStep where
  | release | assign | loop | config
  deriving DecidableEq, Repr

/-- An enumeration under way (R500), or a measurement of R879. -/
structure Walk where
  step : WalkStep
  first : Nat
  pos : Nat
  tries : Nat
  repeats : Nat
  /-- squares found -/
  found : Nat
  /-- the walk is that of MEASURE: no RELEASE, no ASSIGN -/
  measure : Bool
  deriving DecidableEq, Repr

/-- Snake ports beside their registers. Squares are numbered 64 × snake + position. -/
structure SnkSt where
  walks : Tab Walk := []
  flights : Tab (List Flight) := []
  /-- PUSH frame in progress, by snake: patch key -/
  tx : Tab Nat := []
  /-- consecutive turns with given-up frames, by square, and squares with one in this turn (R510) -/
  gaveTurns : Tab Nat := []
  gave : List Nat := []
  /-- squares that an upstream frame has been accepted from (R512) -/
  heard : List Nat := []
  /-- squares to configure outside an enumeration, by snake: positions in order, and the tries of the first -/
  cfg : Tab (List Nat × Nat) := []
  /-- frames held from the push cutoff until the PRESENT frames have ended, oldest first (R483) -/
  held : Tab (List (List LinkWord)) := []
  /-- a MAINT exchange under way: position and operation -/
  maint : Tab (Nat × Nat) := []
  /-- frames matched by fault injection, by snake (R517) -/
  fiSeen : Tab Nat := []
  /-- a frame held back by SWAP_DN -/
  swap : Tab (List LinkWord) := []
  deriving DecidableEq, Repr

/-! ### Ingest and the clip store (R524 to R569) -/

/-- A frame of an ingest channel that is open, or complete and not yet ready (R539, R540). -/
structure Frame where
  /-- RTP timestamp -/
  ts : Nat
  /-- frame surface it is written to -/
  slot : Nat
  /-- sequence numbers received from either leg -/
  seqs : List Nat
  /-- sequence number of its marker packet -/
  marker : Option Nat
  /-- rows that the JPEG XS decoder has written, MODE 1 alone -/
  rows : List Nat
  /-- every packet has been received -/
  complete : Bool
  deriving DecidableEq, Repr

/-- A leg of an ingest channel (R530, R535, R538, R541). -/
structure Leg where
  ssrc : Option Nat := none
  /-- bytes of accepted IP packets in the present 1 ms window -/
  bytes : Nat := 0
  lost : Bool := false
  deriving DecidableEq, Repr

/-- The frame that layers latch: its surface, a serial number to tell frames apart, its RTP timestamp. -/
structure Ready where
  slot : Nat
  serial : Nat
  ts : Nat
  deriving DecidableEq, Repr

/-- An ingest channel beside its record. -/
structure IngChan where
  frames : List Frame := []
  newest : Option Ready := none
  /-- the newest ready frame has been latched -/
  taken : Bool := false
  /-- surface latched for the content being composed -/
  latched : Option Nat := none
  serial : Nat := 0
  /-- RTP timestamps of frames that have closed, newest first -/
  closed : List Nat := []
  /-- sequence numbers of marker packets received, newest first -/
  marks : List Nat := []
  stale : Bool := false
  legA : Leg := {}
  legB : Leg := {}
  dropped : Nat := 0
  repeated : Nat := 0
  deriving DecidableEq, Repr

/-- A clip in the store (R554 to R556). -/
structure Pack where
  fmt : Nat
  kamius : Bool
  w : Nat
  h : Nat
  rateNum : Nat
  rateDen : Nat
  frames : Nat
  /-- data length of a frame -/
  length : Nat
  fcrcs : List Nat
  deriving DecidableEq, Repr

/-- A clip write under way (R557). -/
structure ClipJob where
  queue : Nat
  tag : Nat
  id : Nat
  pack : Pack
  deriving DecidableEq, Repr

/-- A clip channel beside its record (R558 to R560). -/
structure ClipChan where
  /-- the record in force, and the frames read and checked for it: frame and lookahead surface -/
  ready : List (Nat × Nat) := []
  /-- last ready frame shown: frame and surface -/
  cur : Option (Nat × Nat) := none
  /-- a frame whose check failed once -/
  retry : Option Nat := none
  /-- frames skipped after a second failure -/
  skipped : List Nat := []
  /-- record as the last compose window took it -/
  inForce : List Byte := []
  /-- which of its two sets of lookahead surfaces is in force, and the set of an update that waits -/
  bank : Nat := 0
  nextBank : Option Nat := none
  deriving DecidableEq, Repr

/-- Ingest engines and clip store beside their registers. -/
structure IngSt where
  chans : Tab IngChan := []
  clips : Tab ClipChan := []
  packs : Tab Pack := []
  /-- drives found, by root port -/
  drives : Tab DriveInfo := []
  /-- serial numbers of the member drives as the store was formatted, by port -/
  members : Tab Nat := []
  /-- drives whose present command has timed out once -/
  late : List Nat := []
  jobs : List ClipJob := []
  deriving DecidableEq, Repr

/-! ### The block engine (R570 to R603) -/

/-- A blit channel beside its record (R581 to R587). -/
structure BlitChan where
  /-- queue and tag of the create descriptor -/
  queue : Nat
  tag : Nat
  /-- producer index, as the doorbell last gave it (R583) -/
  pi : Nat := 0
  /-- a head command that waits: WAIT_PL or WAIT_TURN, or the command of a ONESHOT channel before it starts -/
  head : Option (List Byte) := none
  /-- elapsed time since when it waits -/
  since : Nat := 0
  deriving DecidableEq, Repr

/-- The block engine beside its registers. -/
structure BltSt where
  chans : Tab BlitChan := []
  /-- operation of a channel in progress, with its command -/
  cur : Option (Nat × List Byte) := none
  /-- direct operation that D_GO has started, as the command of R582 that it amounts to (R578) -/
  direct : Option (List Byte) := none
  deriving DecidableEq, Repr

/-! ### Sensing, telemetry, alarm inputs (R604 to R638) -/

/-- A sense cell on one plane (R616 to R619); f, b and n in 1/256 of a reading unit. -/
structure Cell where
  f : Int := 0
  b : Int := 0
  n : Nat := 0
  on : Bool := false
  /-- consecutive scans toward ON or OFF -/
  run : Nat := 0
  /-- consecutive readings of 0xFFFF, and of other values while BAD -/
  badRun : Nat := 0
  bad : Bool := false
  /-- a baseline is being captured, with the readings so far, newest first (R616, R618) -/
  cap : Bool := true
  caps : List Nat := []
  deriving DecidableEq, Repr

/-- One plane of a sensed square (R613, R614). -/
structure Plane where
  /-- SCAN being received -/
  scan : Option Nat := none
  /-- readings delivered so far, by the first cell of their frame -/
  got : Tab (List Nat) := []
  /-- the scan is complete and has been used -/
  last : Bool := false
  /-- a frame of the scan was refused: it cannot complete -/
  spoiled : Bool := false
  /-- scans captured since R618 began -/
  captured : Nat := 0
  cells : List Cell := []
  deriving DecidableEq, Repr

/-- An open contact (R620 to R623). Positions are in 1/16 pixel. -/
structure Contact where
  id : Nat
  square : Nat
  plane : Nat
  cells : List Nat
  /-- order of opening -/
  order : Nat
  /-- elapsed time at which it opened -/
  opened : Nat
  /-- sense channel that holds it: class index and handle -/
  owner : Option (Nat × Nat)
  /-- DOWN has been reported to its channel -/
  told : Bool
  x : Nat
  y : Nat
  area : Nat
  peak : Nat
  edge : Bool
  persistent : Bool
  /-- start of the absorption period: elapsed time, and f of its cells then -/
  absorb : Option (Nat × List (Nat × Int))
  deriving DecidableEq, Repr

/-- A square as the sensing unit holds it (R615, R625 to R627, R632). STATE as R636: 0 UNSENSED, 1 CAPTURE,
2 ACTIVE, 3 STALE. -/
structure SqSense where
  state : Nat := 0
  touch : Plane := {}
  press : Plane := {}
  lastScan : Nat := 0
  temp : Option Int := none
  /-- elapsed time of the last accepted TEMP, and consecutive rejections for slew -/
  tempAt : Nat := 0
  slewRej : Nat := 0
  vsup : Nat := 0
  amb : Nat := 0xFFFFFFFF
  hot : Bool := false
  teleStale : Bool := false
  deriving DecidableEq, Repr

/-- An alarm input (R628, R629). -/
structure Alarm where
  /-- level sampled last, and for how many ms it has held -/
  raw : Bool := false
  held : Nat := 0
  active : Bool := false
  on : Bool := false
  chatter : Bool := false
  /-- milliseconds since each change of level in the last second -/
  changes : List Nat := []
  deriving DecidableEq, Repr

/-- The sensing unit beside its registers. -/
structure SnsSt where
  squares : Tab SqSense := []
  contacts : List Contact := []
  opens : Nat := 0
  /-- channels whose next report carries LOSS -/
  loss : List Nat := []
  alarms : Tab Alarm := []
  /-- bound layer handles, input × 4 + place (R630) -/
  bind : Tab Nat := []
  deriving DecidableEq, Repr

/-! ### Tables (R112 to R115, R445 to R453, R547 to R550) -/

/-- A layer create that waits for the shares of the other devices (R115). -/
structure Offer where
  /-- device that asked, its queue and tag -/
  dev : Nat
  queue : Nat
  tag : Nat
  idx : Nat
  handle : Nat
  /-- devices that have not answered -/
  waits : List Nat
  deriving DecidableEq, Repr

/-- Frames of an ingest channel of another device, as they arrive over table links (R549). -/
structure Remote where
  /-- the frame being received: RTP timestamp, surface, rows received -/
  ts : Nat
  slot : Nat
  rows : List Nat
  /-- the newest frame that is ready: surface, height, serial number, RTP timestamp -/
  newest : Option (Nat × Nat × Nat × Nat) := none
  /-- surface latched for the content being composed -/
  latched : Option Nat := none
  deriving DecidableEq, Repr

/-- The table beside its registers. -/
structure TblSt where
  /-- epoch as each device last told it, by device -/
  epochs : Tab Nat := []
  /-- devices of this part, this one left out -/
  part : List Nat := []
  /-- next turn and its present instant as the ruler's last TURN gave them, ns -/
  told : Option (Nat × Nat) := none
  offers : List Offer := []
  /-- the ruler and the epoch of the part that a resynchronisation joins (R452) -/
  joining : Option (Nat × Nat) := none
  /-- messages sent, by port -/
  sent : Tab Nat := []
  /-- alarm states of the other members: 1 input 0 on, 2 input 1 on -/
  alarms : Tab Nat := []
  /-- frames of ingest channels of other devices, by handle -/
  remote : Tab Remote := []
  deriving DecidableEq, Repr

/-! ### The whole state -/

/-- Everything the block holds but its HBM and its queue of commands. -/
structure Dev where
  /-- every register field that has left its reset value or been written, by address × 64 + low bit -/
  regs : Tab Nat := []
  acc : AccSt := {}
  time : TimeSt := {}
  ev : EvSt := {}
  q : QSt := {}
  ch : ChanSt := {}
  bank : BankSt := {}
  pwr : PwrSt := {}
  geo : GeoSt := {}
  sched : SchedSt := {}
  adm : AdmSt := {}
  pip : PipSt := {}
  mem : MemSt := {}
  comp : CompSt := {}
  cal : CalSt := {}
  push : PushSt := {}
  snk : SnkSt := {}
  ing : IngSt := {}
  blt : BltSt := {}
  sns : SnsSt := {}
  tbl : TblSt := {}
  /-- open values used so far: the model's own count, no state of the part -/
  free : Nat := 0
  /-- what the block sent out, newest first: the model's own record -/
  out : List OutMsg := []
  deriving DecidableEq, Repr

/-- The machine. -/
structure State where
  dev : Dev := {}
  /-- HBM bytes that differ from what an unlisted byte reads as, addresses strictly rising -/
  hbm : List Host.Cell := []
  /-- commands that wait, first in first out -/
  pending : List Instr := []
  deriving DecidableEq, Repr

/-- The block right after a power-on reset has begun: every register at its reset value, no image, no
channel, start-up not yet run (R838). -/
def State.reset : State := {}

end Sys2Proof.Machine
end

