-- ==== Sys2Proof/Machine/Memory.lean ====
section
/-! DEFINITION. HBM as bytes: what an unlisted byte reads as, reads, writes, the canonical form, flits and
poison (R228 to R232, R247, R262, R359, R360, R839). -/

namespace Sys2Proof.Machine

/-- Bytes of one stack and of all eight (R228). -/
def stackBytes : Nat := 48 * 2 ^ 30
def hbmBytes : Nat := 8 * stackBytes

/-- Where the surface pool begins and ends in a stack (R231). -/
def poolLo : Nat := 256 * 2 ^ 20
def poolHi : Nat := 40 * 2 ^ 30

/-- A byte of a calibration cell as R839 writes it: the identity in every SET, gain 0x8000, 0 elsewhere. -/
def calDefault (off : Nat) : Byte :=
  if off < 4608 then
    let r := off % 1152 % 18
    if r = 1 ∨ r = 9 ∨ r = 17 then 0x40 else 0
  else if off < 4992 then if off % 2 = 1 then 0x80 else 0
  else 0

/-- What a byte that the memory does not list reads as: the calibration store of R839 in the calibration
regions, 0 elsewhere. -/
def memDefault (a : Nat) : Byte :=
  if a < hbmBytes ∧ poolHi ≤ a % stackBytes then calDefault ((a % stackBytes - poolHi) % 8192) else 0

/-- The byte at an address. -/
def Memory.get : List Host.Cell → Nat → Byte
  | [], a => memDefault a
  | (k, v) :: t, a => if a = k then v else Memory.get t a

/-- The memory with a byte written; a byte equal to what an unlisted address reads as leaves the list. -/
def Memory.put : List Host.Cell → Nat → Byte → List Host.Cell
  | [], a, v => if v = memDefault a then [] else [(a, v)]
  | (k, w) :: t, a, v =>
    if a = k then (if v = memDefault a then t else (a, v) :: t)
    else if a < k then (if v = memDefault a then (k, w) :: t else (a, v) :: (k, w) :: t)
    else (k, w) :: Memory.put t a v

/-- Bytes written from an address upward. -/
def Memory.putAll : List Host.Cell → Nat → List Byte → List Host.Cell
  | m, _, [] => m
  | m, a, b :: t => Memory.putAll (Memory.put m a b) (a + 1) t

/-- n bytes from an address upward. -/
def Memory.getAll (m : List Host.Cell) (a n : Nat) : List Byte := (List.range n).map (fun i => Memory.get m (a + i))

/-- Every byte of a range back to what an unlisted byte reads as. -/
def Memory.clear (m : List Host.Cell) (lo n : Nat) : List Host.Cell :=
  m.filter (fun c => !(decide (lo ≤ c.1) && decide (c.1 < lo + n)))

/-- The canonical form: addresses strictly rising, no entry equal to what an unlisted byte reads as. -/
def Memory.wf : List Host.Cell → Bool
  | [] => true
  | [(a, v)] => decide (v ≠ memDefault a)
  | (a, v) :: (b, w) :: t => decide (v ≠ memDefault a) && decide (a < b) && Memory.wf ((b, w) :: t)

/-- The flit of an address (R247). -/
def flitOf (a : Nat) : Nat := a / 32

/-- The stack of an address. -/
def stackOf (a : Nat) : Nat := a / stackBytes

/-- A run of bytes cut at flit boundaries, each piece with its offset. -/
def chunks : Nat → Nat → List Byte → List (Nat × List Byte)
  | 0, _, _ => []
  | n + 1, off, bs =>
    match bs with
    | [] => []
    | b :: t => (off, (b :: t).take (32 - off % 32)) :: chunks n (off + (32 - off % 32)) ((b :: t).drop (32 - off % 32))

/-- One piece, of at most one flit, written (R262): a whole flit is written clean; a part of a poisoned flit
is merged and leaves it poisoned. The Bool tells that the merge met poison. -/
def State.writePiece (s : State) (a : Nat) (bs : List Byte) : Bool × State :=
  let s' := { s with hbm := Memory.putAll s.hbm a bs }
  if bs.length = 32 then
    (false, { s' with dev := { s'.dev with mem := { s'.dev.mem with poison := s'.dev.mem.poison.filter (· ≠ flitOf a) } } })
  else (decide (flitOf a ∈ s.dev.mem.poison), s')

/-- Any of the n bytes from an address lies in a poisoned flit. -/
def State.poisoned (s : State) (a n : Nat) : Bool :=
  s.dev.mem.poison.any (fun f => decide (f * 32 < a + n) && decide (a < f * 32 + 32))

end Sys2Proof.Machine
end

