-- ==== Sys2Proof/Machine/Regs.lean ====
section
/-! DEFINITION. One name for each register field of the register tables of spec/ (R181, R226, R279, R342,
R390, R457, R522, R567, R568, R602, R636, R671, R672, R714, R745, R760, R795, R827, R855): its canonical
address (BAR0 offset within the first image of its block), its bits and its value at reset. The arguments are
the indices of a register array, outermost first, taken modulo its count. -/

namespace Sys2Proof.Machine.R

/-! The admission block, R181. -/

def ADM_BLOCK : Fld := ⟨0x300000, 31, 16, 0xa03⟩
def ADM_REV : Fld := ⟨0x300000, 15, 0, (Rst.rev).val []⟩
def ADM_LOCK : Fld := ⟨0x300004, 0, 0, 0⟩
def ADM_VADM_MV : Fld := ⟨0x300008, 9, 0, 0x384⟩
def ADM_PIN_SHARE : Fld := ⟨0x300008, 14, 10, 4⟩
def ADM_SHED_US : Fld := ⟨0x300008, 25, 16, 0x40⟩
def ADM_CMD : Fld := ⟨0x30000c, 3, 0, 0⟩
def ADM_STATE : Fld := ⟨0x300010, 2, 0, 0⟩
def ADM_VCEIL : Fld := ⟨0x300010, 3, 3, 0⟩
def ADM_DEMOTED : Fld := ⟨0x300014, 0, 0, 0⟩
def ADM_SAFE_ENTER : Fld := ⟨0x300014, 1, 1, 0⟩
def ADM_SAFE_EXIT : Fld := ⟨0x300014, 2, 2, 0⟩
def ADM_PACE_SHORT : Fld := ⟨0x300014, 3, 3, 0⟩
def ADM_TRIAL_DONE : Fld := ⟨0x300014, 4, 4, 0⟩
def ADM_TRIAL_LOW : Fld := ⟨0x300014, 5, 5, 0⟩
def ADM_PA_LOWERED : Fld := ⟨0x300014, 6, 6, 0⟩
def ADM_PIP_LOSS : Fld := ⟨0x300014, 7, 7, 0⟩
def ADM_WRANGE : Fld := ⟨0x300014, 8, 8, 0⟩
def ADM_LOCKVIOL : Fld := ⟨0x300014, 9, 9, 0⟩
def ADM_CMD_REJ : Fld := ⟨0x300014, 10, 10, 0⟩
def ADM_STATUS : Fld := ⟨0x300018, 7, 0, 0⟩
def ADM_REASON : Fld := ⟨0x300018, 15, 8, 0⟩
def ADM_QMASK : Fld := ⟨0x300018, 19, 16, 0⟩
def ADM_SMASK : Fld := ⟨0x300018, 27, 20, 0⟩
def ADM_RUNG : Fld := ⟨0x300018, 30, 28, 0⟩
def ADM_VALID : Fld := ⟨0x300018, 31, 31, 0⟩
def ADM_LAST_HANDLE : Fld := ⟨0x30001c, 31, 0, 0⟩
def ADM_PA (i0 : Nat) : Fld := ⟨0x300020 + 0x4 * (i0 % 4), 15, 0, 0⟩
def ADM_NPIPS (i0 : Nat) : Fld := ⟨0x300020 + 0x4 * (i0 % 4), 23, 16, 0x40⟩
def ADM_TRIAL (i0 : Nat) : Fld := ⟨0x300030 + 0x4 * (i0 % 4), 15, 0, 0⟩
def ADM_LOAD_Q (i0 : Nat) : Fld := ⟨0x300040 + 0x4 * (i0 % 4), 31, 0, 0⟩
def ADM_LOAD_S (i0 : Nat) : Fld := ⟨0x300050 + 0x4 * (i0 % 8), 31, 0, 0⟩
def ADM_STAKES (i0 : Nat) : Fld := ⟨0x300070 + 0x4 * (i0 % 8), 15, 0, 0⟩
def ADM_DEMOTED_N (i0 : Nat) : Fld := ⟨0x300070 + 0x4 * (i0 % 8), 31, 16, 0⟩
def ADM_ASEQ : Fld := ⟨0x300100, 63, 0, 0⟩
def ADM_ADMIT_CNT : Fld := ⟨0x300108, 63, 0, 0⟩
def ADM_REFUSE_CNT : Fld := ⟨0x300110, 63, 0, 0⟩
def ADM_DEMOTE_CNT : Fld := ⟨0x300118, 63, 0, 0⟩
def ADM_SAFE_CNT : Fld := ⟨0x300120, 63, 0, 0⟩
def ADM_SHED_CNT : Fld := ⟨0x300128, 63, 0, 0⟩
/-! The fabric and pips block, R226. -/

def FAB_BLOCK : Fld := ⟨0x400000, 31, 16, 0xa04⟩
def FAB_REV : Fld := ⟨0x400000, 15, 0, (Rst.rev).val []⟩
def FAB_LOCK : Fld := ⟨0x400004, 0, 0, 0⟩
def FAB_BUSY : Fld := ⟨0x400008, 0, 0, 0⟩
def FAB_WDROP : Fld := ⟨0x400008, 1, 1, 0⟩
def FAB_STEAL_EN : Fld := ⟨0x40000c, 0, 0, 1⟩
def FAB_STEAL_XCUP : Fld := ⟨0x40000c, 1, 1, 1⟩
def FAB_HS_TO_US : Fld := ⟨0x40000c, 25, 16, 0x64⟩
def FAB_WRANGE : Fld := ⟨0x400010, 0, 0, 0⟩
def FAB_LOCKVIOL : Fld := ⟨0x400010, 1, 1, 0⟩
def FAB_TMR_CORR : Fld := ⟨0x400010, 2, 2, 0⟩
def FAB_TMR_FAIL : Fld := ⟨0x400010, 3, 3, 0⟩
def FAB_CREDIT_ERR : Fld := ⟨0x400010, 4, 4, 0⟩
def FAB_HS_TIMEOUT : Fld := ⟨0x400010, 5, 5, 0⟩
def FAB_ACTIVE (i0 : Nat) : Fld := ⟨0x400020 + 0x4 * (i0 % 4), 7, 0, 0x40⟩
def FAB_RES_AVAIL (i0 : Nat) : Fld := ⟨0x400020 + 0x4 * (i0 % 4), 15, 8, 8⟩
def FAB_PLAN_PATCHES (i0 : Nat) : Fld := ⟨0x400030 + 0x4 * (i0 % 4), 20, 0, 0⟩
def FAB_CLASSES (i0 : Nat) : Fld := ⟨0x400030 + 0x4 * (i0 % 4), 31, 21, 0⟩
def FAB_STEAL_OK : Fld := ⟨0x400100, 63, 0, 0⟩
def FAB_STEAL_FAIL : Fld := ⟨0x400108, 63, 0, 0⟩
def FAB_PARKS : Fld := ⟨0x400110, 63, 0, 0⟩
def FAB_ORPHANED : Fld := ⟨0x400118, 63, 0, 0⟩
def FAB_DEADLINE_DROP : Fld := ⟨0x400120, 63, 0, 0⟩
def CUP_SLOT_MAP (i0 : Nat) : Fld := ⟨0x401000 + 0x100 * (i0 % 32), 31, 0, 0x76543210⟩
def CUP_ACTIVE (i0 : Nat) : Fld := ⟨0x401004 + 0x100 * (i0 % 32), 7, 0, 0xff⟩
def CUP_RES_AVAIL (i0 : Nat) : Fld := ⟨0x401004 + 0x100 * (i0 % 32), 8, 8, 1⟩
def CUP_RES_USED (i0 : Nat) : Fld := ⟨0x401004 + 0x100 * (i0 % 32), 9, 9, 0⟩
def CUP_PACE_LOW (i0 : Nat) : Fld := ⟨0x401008 + 0x100 * (i0 % 32), 0, 0, 0⟩
def CUP_PACE_FLOOR (i0 : Nat) : Fld := ⟨0x401008 + 0x100 * (i0 % 32), 1, 1, 0⟩
def CUP_PIP_FAULT (i0 : Nat) : Fld := ⟨0x401008 + 0x100 * (i0 % 32), 2, 2, 0⟩
def CUP_SUBST (i0 : Nat) : Fld := ⟨0x401008 + 0x100 * (i0 % 32), 3, 3, 0⟩
def CUP_RES_FAIL (i0 : Nat) : Fld := ⟨0x401008 + 0x100 * (i0 % 32), 4, 4, 0⟩
def CUP_RES_NONE (i0 : Nat) : Fld := ⟨0x401008 + 0x100 * (i0 % 32), 5, 5, 0⟩
def CUP_HUB_FAULT (i0 : Nat) : Fld := ⟨0x401008 + 0x100 * (i0 % 32), 6, 6, 0⟩
def CUP_PACE_NOW (i0 : Nat) : Fld := ⟨0x40100c + 0x100 * (i0 % 32), 15, 0, 0⟩
def CUP_BELOW (i0 : Nat) : Fld := ⟨0x40100c + 0x100 * (i0 % 32), 16, 16, 0⟩
def CUP_PACE_MIN (i0 : Nat) : Fld := ⟨0x401010 + 0x100 * (i0 % 32), 15, 0, 0xffff⟩
def CUP_PACE_MAX (i0 : Nat) : Fld := ⟨0x401014 + 0x100 * (i0 % 32), 15, 0, 0⟩
def CUP_BELOW_US (i0 : Nat) : Fld := ⟨0x401018 + 0x100 * (i0 % 32), 15, 0, 0⟩
def CUP_MON_SCALE (i0 : Nat) : Fld := ⟨0x40101c + 0x100 * (i0 % 32), 23, 0, (Rst.monScale).val [i0]⟩
def CUP_STEAL_IN (i0 : Nat) : Fld := ⟨0x401040 + 0x100 * (i0 % 32), 63, 0, 0⟩
def CUP_STEAL_OUT (i0 : Nat) : Fld := ⟨0x401048 + 0x100 * (i0 % 32), 63, 0, 0⟩
def CUP_PATCHES (i0 : Nat) : Fld := ⟨0x401050 + 0x100 * (i0 % 32), 63, 0, 0⟩
def PIP_STATE (i0 : Nat) : Fld := ⟨0x410000 + 0x100 * (i0 % 256), 2, 0, 0⟩
def PIP_SLOT (i0 : Nat) : Fld := ⟨0x410000 + 0x100 * (i0 % 256), 7, 4, (Rst.slotMod8).val [i0]⟩
def PIP_ATTEMPT (i0 : Nat) : Fld := ⟨0x410000 + 0x100 * (i0 % 256), 9, 8, 0⟩
def PIP_FAULT (i0 : Nat) : Fld := ⟨0x410004 + 0x100 * (i0 % 256), 0, 0, 0⟩
def PIP_CORR (i0 : Nat) : Fld := ⟨0x410004 + 0x100 * (i0 % 256), 1, 1, 0⟩
def PIP_HS_TO (i0 : Nat) : Fld := ⟨0x410004 + 0x100 * (i0 % 256), 2, 2, 0⟩
def PIP_DEALT (i0 : Nat) : Fld := ⟨0x410008 + 0x100 * (i0 % 256), 15, 0, 0⟩
def PIP_REMAIN (i0 : Nat) : Fld := ⟨0x410008 + 0x100 * (i0 % 256), 31, 16, 0⟩
def PIP_PATCH_CNT (i0 : Nat) : Fld := ⟨0x410040 + 0x100 * (i0 % 256), 63, 0, 0⟩
def PIP_LPX_CNT (i0 : Nat) : Fld := ⟨0x410048 + 0x100 * (i0 % 256), 63, 0, 0⟩
def PIP_PIP_CORR_CNT (i0 : Nat) : Fld := ⟨0x410050 + 0x100 * (i0 % 256), 63, 0, 0⟩
/-! The memory block, R279. -/

def MEM_BLOCK : Fld := ⟨0x500000, 31, 16, 0xa05⟩
def MEM_REV : Fld := ⟨0x500000, 15, 0, (Rst.rev).val []⟩
def MEM_LOCK : Fld := ⟨0x500004, 0, 0, 0⟩
def MEM_SCRUB_EN : Fld := ⟨0x500008, 0, 0, 1⟩
def MEM_SCRUB_HOURS : Fld := ⟨0x500008, 15, 8, 0x18⟩
def MEM_CE_WARN : Fld := ⟨0x500008, 31, 16, 0x400⟩
def MEM_WRANGE : Fld := ⟨0x50000c, 0, 0, 0⟩
def MEM_LOCKVIOL : Fld := ⟨0x50000c, 1, 1, 0⟩
def MEM_TMR_CORR : Fld := ⟨0x50000c, 2, 2, 0⟩
def MEM_TMR_FAIL : Fld := ⟨0x50000c, 3, 3, 0⟩
def MEM_KAM_ERR : Fld := ⟨0x50000c, 4, 4, 0⟩
def MEM_SCRUB_DONE : Fld := ⟨0x50000c, 5, 5, 0⟩
def MEM_FREE (i0 : Nat) : Fld := ⟨0x500020 + 0x8 * (i0 % 8), 63, 0, 0x9f0000000⟩
def MEM_LARGEST (i0 : Nat) : Fld := ⟨0x500060 + 0x8 * (i0 % 8), 63, 0, 0x9f0000000⟩
def MEM_KAM_READ : Fld := ⟨0x500100, 63, 0, 0⟩
def MEM_KAM_WRITE : Fld := ⟨0x500108, 63, 0, 0⟩
def MEM_KAM_ERR_CNT : Fld := ⟨0x500110, 63, 0, 0⟩
def MEM_ALLOC_FAIL : Fld := ⟨0x500118, 63, 0, 0⟩
def STK_STATE (i0 : Nat) : Fld := ⟨0x501000 + 0x100 * (i0 % 8), 2, 0, 0⟩
def STK_DUE (i0 : Nat) : Fld := ⟨0x501000 + 0x100 * (i0 % 8), 3, 3, 0⟩
def STK_FAILS (i0 : Nat) : Fld := ⟨0x501000 + 0x100 * (i0 % 8), 5, 4, 0⟩
def STK_TEMP (i0 : Nat) : Fld := ⟨0x501000 + 0x100 * (i0 % 8), 15, 8, 0⟩
def STK_TEMP_TRAIN (i0 : Nat) : Fld := ⟨0x501000 + 0x100 * (i0 % 8), 23, 16, 0⟩
def STK_CE (i0 : Nat) : Fld := ⟨0x501004 + 0x100 * (i0 % 8), 0, 0, 0⟩
def STK_UE (i0 : Nat) : Fld := ⟨0x501004 + 0x100 * (i0 % 8), 1, 1, 0⟩
def STK_CE_RATE (i0 : Nat) : Fld := ⟨0x501004 + 0x100 * (i0 % 8), 2, 2, 0⟩
def STK_TRAIN_FAIL (i0 : Nat) : Fld := ⟨0x501004 + 0x100 * (i0 % 8), 3, 3, 0⟩
def STK_HOT (i0 : Nat) : Fld := ⟨0x501004 + 0x100 * (i0 % 8), 4, 4, 0⟩
def STK_UNLOCK (i0 : Nat) : Fld := ⟨0x501004 + 0x100 * (i0 % 8), 5, 5, 0⟩
def STK_FATAL (i0 : Nat) : Fld := ⟨0x501004 + 0x100 * (i0 % 8), 6, 6, 0⟩
def STK_UE_ADDR_LO (i0 : Nat) : Fld := ⟨0x501008 + 0x100 * (i0 % 8), 31, 0, 0⟩
def STK_UE_ADDR_HI (i0 : Nat) : Fld := ⟨0x50100c + 0x100 * (i0 % 8), 6, 0, 0⟩
def STK_TRAIN_AGE_MS (i0 : Nat) : Fld := ⟨0x501010 + 0x100 * (i0 % 8), 31, 0, 0⟩
def STK_CE_CNT (i0 : Nat) : Fld := ⟨0x501040 + 0x100 * (i0 % 8), 63, 0, 0⟩
def STK_UE_CNT (i0 : Nat) : Fld := ⟨0x501048 + 0x100 * (i0 % 8), 63, 0, 0⟩
def STK_RETRAIN_CNT (i0 : Nat) : Fld := ⟨0x501050 + 0x100 * (i0 % 8), 63, 0, 0⟩
def STK_RD_BYTES (i0 : Nat) : Fld := ⟨0x501058 + 0x100 * (i0 % 8), 63, 0, 0⟩
def STK_WR_BYTES (i0 : Nat) : Fld := ⟨0x501060 + 0x100 * (i0 % 8), 63, 0, 0⟩
/-! The composition block, R342. -/

def COMP_BLOCK : Fld := ⟨0x600000, 31, 16, 0xa06⟩
def COMP_REV : Fld := ⟨0x600000, 15, 0, (Rst.rev).val []⟩
def COMP_LOCK : Fld := ⟨0x600004, 0, 0, 0⟩
def COMP_BUSY : Fld := ⟨0x600008, 0, 0, 0⟩
def COMP_WDROP : Fld := ⟨0x600008, 1, 1, 0⟩
def COMP_CULL_EN : Fld := ⟨0x60000c, 0, 0, 1⟩
def COMP_ZTIE_EV : Fld := ⟨0x60000c, 1, 1, 0⟩
def COMP_CAP_EN : Fld := ⟨0x60000c, 2, 2, 1⟩
def COMP_WRANGE : Fld := ⟨0x600010, 0, 0, 0⟩
def COMP_LOCKVIOL : Fld := ⟨0x600010, 1, 1, 0⟩
def COMP_TMR_CORR : Fld := ⟨0x600010, 2, 2, 0⟩
def COMP_TMR_FAIL : Fld := ⟨0x600010, 3, 3, 0⟩
def COMP_SAT : Fld := ⟨0x600010, 4, 4, 0⟩
def COMP_ZTIE : Fld := ⟨0x600010, 5, 5, 0⟩
def COMP_NOFRAME : Fld := ⟨0x600010, 6, 6, 0⟩
def COMP_CROP_OUT : Fld := ⟨0x600010, 7, 7, 0⟩
def COMP_STORE_ERR : Fld := ⟨0x600010, 8, 8, 0⟩
def COMP_CAP_SKIP : Fld := ⟨0x600010, 9, 9, 0⟩
def COMP_TABLE_VALID : Fld := ⟨0x600020, 31, 0, 0x1ff⟩
def COMP_SET_VALID : Fld := ⟨0x600024, 15, 0, 0xf⟩
def COMP_MX_VALID : Fld := ⟨0x600028, 63, 0, 0x7f⟩
def COMP_BANK_SEQ : Fld := ⟨0x600030, 31, 0, 0⟩
def COMP_SAT_PATCHES : Fld := ⟨0x600100, 63, 0, 0⟩
def COMP_Z_SHADOW : Fld := ⟨0x600108, 63, 0, 0⟩
def COMP_CULL_LPX : Fld := ⟨0x600110, 63, 0, 0⟩
def COMP_CAP_BYTES : Fld := ⟨0x600118, 63, 0, 0⟩
def COMP_NOFRAME_CNT : Fld := ⟨0x600120, 63, 0, 0⟩
def LAY_HANDLE (i0 : Nat) : Fld := ⟨0x601000 + 0x40 * (i0 % 64), 31, 0, 0⟩
def LAY_STATE (i0 : Nat) : Fld := ⟨0x601004 + 0x40 * (i0 % 64), 1, 0, 0⟩
def LAY_DEMOTED (i0 : Nat) : Fld := ⟨0x601004 + 0x40 * (i0 % 64), 2, 2, 0⟩
def LAY_CULL_ALL (i0 : Nat) : Fld := ⟨0x601004 + 0x40 * (i0 % 64), 3, 3, 0⟩
def LAY_NOFRAME (i0 : Nat) : Fld := ⟨0x601004 + 0x40 * (i0 % 64), 4, 4, 0⟩
def LAY_CROP_OUT (i0 : Nat) : Fld := ⟨0x601004 + 0x40 * (i0 % 64), 5, 5, 0⟩
def LAY_KIND (i0 : Nat) : Fld := ⟨0x601004 + 0x40 * (i0 % 64), 7, 6, 0⟩
def LAY_Z (i0 : Nat) : Fld := ⟨0x601004 + 0x40 * (i0 % 64), 15, 8, 0⟩
def LAY_LATCH_TURN (i0 : Nat) : Fld := ⟨0x601008 + 0x40 * (i0 % 64), 31, 0, 0⟩
def LAY_PATCH_CNT (i0 : Nat) : Fld := ⟨0x601010 + 0x40 * (i0 % 64), 63, 0, 0⟩
def LAY_CULL_CNT (i0 : Nat) : Fld := ⟨0x601018 + 0x40 * (i0 % 64), 63, 0, 0⟩
/-! The calibration block, R390. -/

def CAL_BLOCK : Fld := ⟨0x700000, 31, 16, 0xa07⟩
def CAL_REV : Fld := ⟨0x700000, 15, 0, (Rst.rev).val []⟩
def CAL_LOCK : Fld := ⟨0x700004, 0, 0, 0⟩
def CAL_BUSY : Fld := ⟨0x700008, 0, 0, 0⟩
def CAL_WDROP : Fld := ⟨0x700008, 1, 1, 0⟩
def CAL_OUT_MX : Fld := ⟨0x70000c, 5, 0, 0⟩
def CAL_OUT_TABLE : Fld := ⟨0x70000c, 10, 6, 0⟩
def CAL_AMB_EN : Fld := ⟨0x70000c, 11, 11, 0⟩
def CAL_AGE_EN : Fld := ⟨0x70000c, 12, 12, 1⟩
def CAL_CAL_EN : Fld := ⟨0x70000c, 13, 13, 1⟩
def CAL_WRANGE : Fld := ⟨0x700010, 0, 0, 0⟩
def CAL_LOCKVIOL : Fld := ⟨0x700010, 1, 1, 0⟩
def CAL_TMR_CORR : Fld := ⟨0x700010, 2, 2, 0⟩
def CAL_TMR_FAIL : Fld := ⟨0x700010, 3, 3, 0⟩
def CAL_EXTRAP : Fld := ⟨0x700010, 4, 4, 0⟩
def CAL_EXTRAP_LOW : Fld := ⟨0x700010, 5, 5, 0⟩
def CAL_POISON : Fld := ⟨0x700010, 6, 6, 0⟩
def CAL_OUT_CLIP : Fld := ⟨0x700010, 7, 7, 0⟩
def CAL_AGE_SAT : Fld := ⟨0x700010, 8, 8, 0⟩
def CAL_AGE_DROP : Fld := ⟨0x700010, 9, 9, 0⟩
def CAL_AMB_STALE : Fld := ⟨0x700010, 10, 10, 0⟩
def CAL_CMD : Fld := ⟨0x700014, 3, 0, 0⟩
def CAL_PROFILE : Fld := ⟨0x700014, 15, 8, 0⟩
def CAL_B_NOW : Fld := ⟨0x700018, 15, 0, 0⟩
def CAL_LVL_NOW : Fld := ⟨0x700018, 31, 16, 0⟩
def CAL_AMB_LUX : Fld := ⟨0x70001c, 31, 0, 0⟩
def CAL_CEIL_NOW : Fld := ⟨0x700020, 15, 0, 0xffff⟩
def CAL_OPB_NOW : Fld := ⟨0x700020, 31, 16, 0xffff⟩
def CAL_CURVE_VALID : Fld := ⟨0x700024, 15, 0, 0⟩
def CAL_EXTRAP_CNT : Fld := ⟨0x700100, 63, 0, 0⟩
def CAL_EXTRAP_LOW_CNT : Fld := ⟨0x700108, 63, 0, 0⟩
def CAL_POISON_CNT : Fld := ⟨0x700110, 63, 0, 0⟩
def CAL_OUT_CLIP_CNT : Fld := ⟨0x700118, 63, 0, 0⟩
def CAL_AGE_UPD_CNT : Fld := ⟨0x700120, 63, 0, 0⟩
def CAL_AGE_DROP_CNT : Fld := ⟨0x700128, 63, 0, 0⟩
def CAL_AGE_SAT_CNT : Fld := ⟨0x700130, 63, 0, 0⟩
def CAL_LOAD_CNT : Fld := ⟨0x700138, 63, 0, 0⟩
def CAL_NLEV : Fld := ⟨0x700200, 2, 0, 0⟩
def CAL_AGE_CURVE : Fld := ⟨0x700200, 11, 8, 0⟩
def CAL_AGE_ON : Fld := ⟨0x700200, 12, 12, 0⟩
def CAL_DL_FLOOR : Fld := ⟨0x700200, 31, 16, 0⟩
def CAL_LEVEL0 : Fld := ⟨0x700204, 15, 0, 0⟩
def CAL_LEVEL1 : Fld := ⟨0x700204, 31, 16, 0⟩
def CAL_LEVEL2 : Fld := ⟨0x700208, 15, 0, 0⟩
def CAL_LEVEL3 : Fld := ⟨0x700208, 31, 16, 0⟩
def CAL_AGE_MAX : Fld := ⟨0x70020c, 15, 0, 0x8000⟩
def CAL_AGE_STEP : Fld := ⟨0x70020c, 31, 16, 8⟩
/-! The push block, R457. -/

def PUSH_BLOCK : Fld := ⟨0x800000, 31, 16, 0xa08⟩
def PUSH_REV : Fld := ⟨0x800000, 15, 0, (Rst.rev).val []⟩
def PUSH_LOCK : Fld := ⟨0x800004, 0, 0, 0⟩
def PUSH_BUSY : Fld := ⟨0x800008, 0, 0, 0⟩
def PUSH_WDROP : Fld := ⟨0x800008, 1, 1, 0⟩
def PUSH_UR_MODE : Fld := ⟨0x80000c, 0, 0, 0⟩
def PUSH_SCR_EN : Fld := ⟨0x80000c, 1, 1, 1⟩
def PUSH_CHK_EN : Fld := ⟨0x80000c, 2, 2, 1⟩
def PUSH_PRES_GUARD : Fld := ⟨0x80000c, 7, 3, 8⟩
def PUSH_WMARK : Fld := ⟨0x80000c, 15, 8, 0x60⟩
def PUSH_URGENT : Fld := ⟨0x80000c, 26, 16, 0x200⟩
def PUSH_SCR_DIV : Fld := ⟨0x800010, 4, 0, 4⟩
def PUSH_ECHO_FAULT_N : Fld := ⟨0x800010, 15, 8, 8⟩
def PUSH_SCR_TURNS : Fld := ⟨0x800010, 31, 16, 0x78⟩
def PUSH_WRANGE : Fld := ⟨0x800014, 0, 0, 0⟩
def PUSH_LOCKVIOL : Fld := ⟨0x800014, 1, 1, 0⟩
def PUSH_TMR_CORR : Fld := ⟨0x800014, 2, 2, 0⟩
def PUSH_TMR_FAIL : Fld := ⟨0x800014, 3, 3, 0⟩
def PUSH_STATIC_ENTER : Fld := ⟨0x800014, 4, 4, 0⟩
def PUSH_STATIC_EXIT : Fld := ⟨0x800014, 5, 5, 0⟩
def PUSH_CHECK_FAIL : Fld := ⟨0x800014, 6, 6, 0⟩
def PUSH_LAYER_OFF : Fld := ⟨0x800014, 7, 7, 0⟩
def PUSH_TCHG_REPLACED : Fld := ⟨0x800014, 8, 8, 0⟩
def PUSH_TCHG_APPLIED : Fld := ⟨0x800014, 9, 9, 0⟩
def PUSH_STATIC : Fld := ⟨0x800018, 0, 0, 0⟩
def PUSH_TABLE : Fld := ⟨0x800018, 3, 1, 0⟩
def PUSH_TCHG : Fld := ⟨0x800018, 5, 4, 0⟩
def PUSH_RULER : Fld := ⟨0x800018, 8, 6, 0⟩
def PUSH_IS_RULER : Fld := ⟨0x800018, 9, 9, 0⟩
def PUSH_DEV_INDEX : Fld := ⟨0x800018, 12, 10, 0⟩
def PUSH_EPOCH : Fld := ⟨0x80001c, 31, 0, 0⟩
def PUSH_TCHG_TURN : Fld := ⟨0x800020, 63, 0, 0⟩
def PUSH_PERIOD_NUM : Fld := ⟨0x800028, 63, 0, 0⟩
def PUSH_PERIOD_DEN : Fld := ⟨0x800030, 31, 0, 0⟩
def PUSH_PRES_TURN : Fld := ⟨0x800038, 63, 0, 0⟩
def PUSH_PRES_NS : Fld := ⟨0x800040, 31, 0, 0⟩
def PUSH_PRES_SEC_LO : Fld := ⟨0x800044, 31, 0, 0⟩
def PUSH_PRES_SEC_HI : Fld := ⟨0x800048, 15, 0, 0⟩
def PUSH_UNDERRUN_CNT : Fld := ⟨0x800100, 63, 0, 0⟩
def PUSH_LATE_CNT : Fld := ⟨0x800108, 63, 0, 0⟩
def PUSH_DEADLINE_CNT : Fld := ⟨0x800110, 63, 0, 0⟩
def PUSH_ECHO_MIS_CNT : Fld := ⟨0x800118, 63, 0, 0⟩
def PUSH_ECHO_TO_CNT : Fld := ⟨0x800120, 63, 0, 0⟩
def PUSH_CHECK_FAIL_CNT : Fld := ⟨0x800128, 63, 0, 0⟩
def PUSH_LAYER_OFF_CNT : Fld := ⟨0x800130, 63, 0, 0⟩
def PUSH_STATIC_TURNS : Fld := ⟨0x800138, 63, 0, 0⟩
def PUSH_PL_Y0 (i0 : Nat) : Fld := ⟨0x800200 + 0x10 * (i0 % 4), 15, 0, 0⟩
def PUSH_PL_Y1 (i0 : Nat) : Fld := ⟨0x800200 + 0x10 * (i0 % 4), 31, 16, 0⟩
def PUSH_PL_EN (i0 : Nat) : Fld := ⟨0x800204 + 0x10 * (i0 % 4), 0, 0, 0⟩
def PUSH_PL_POINT (i0 : Nat) : Fld := ⟨0x800204 + 0x10 * (i0 % 4), 1, 1, 0⟩
def PUSH_PL_FIRE_TURN (i0 : Nat) : Fld := ⟨0x800208 + 0x10 * (i0 % 4), 31, 0, 0⟩
def PSN_OCC (i0 : Nat) : Fld := ⟨0x810000 + 0x100 * (i0 % 256), 16, 0, 0⟩
def PSN_URGENT (i0 : Nat) : Fld := ⟨0x810000 + 0x100 * (i0 % 256), 17, 17, 0⟩
def PSN_RETRY_FULL (i0 : Nat) : Fld := ⟨0x810000 + 0x100 * (i0 % 256), 18, 18, 0⟩
def PSN_UNDERRUN (i0 : Nat) : Fld := ⟨0x810004 + 0x100 * (i0 % 256), 0, 0, 0⟩
def PSN_LATE (i0 : Nat) : Fld := ⟨0x810004 + 0x100 * (i0 % 256), 1, 1, 0⟩
def PSN_ECHO_MIS (i0 : Nat) : Fld := ⟨0x810004 + 0x100 * (i0 % 256), 2, 2, 0⟩
def PSN_ECHO_TO (i0 : Nat) : Fld := ⟨0x810004 + 0x100 * (i0 % 256), 3, 3, 0⟩
def PSN_FAULTY (i0 : Nat) : Fld := ⟨0x810004 + 0x100 * (i0 % 256), 4, 4, 0⟩
def PSN_PRES_NACK (i0 : Nat) : Fld := ⟨0x810004 + 0x100 * (i0 % 256), 5, 5, 0⟩
def PSN_CAD_NACK (i0 : Nat) : Fld := ⟨0x810004 + 0x100 * (i0 % 256), 6, 6, 0⟩
def PSN_MISS (i0 : Nat) : Fld := ⟨0x810004 + 0x100 * (i0 % 256), 7, 7, 0⟩
def PSN_LAST_SQ (i0 : Nat) : Fld := ⟨0x810008 + 0x100 * (i0 % 256), 13, 0, 0⟩
def PSN_FAULTY_N (i0 : Nat) : Fld := ⟨0x81000c + 0x100 * (i0 % 256), 6, 0, 0⟩
def PSN_RETRY_OCC (i0 : Nat) : Fld := ⟨0x810010 + 0x100 * (i0 % 256), 17, 0, 0⟩
def PSN_PUSH_BYTES (i0 : Nat) : Fld := ⟨0x810040 + 0x100 * (i0 % 256), 63, 0, 0⟩
def PSN_PUSH_PATCHES (i0 : Nat) : Fld := ⟨0x810048 + 0x100 * (i0 % 256), 63, 0, 0⟩
def PSN_SNAKE_UNDERRUNS (i0 : Nat) : Fld := ⟨0x810050 + 0x100 * (i0 % 256), 63, 0, 0⟩
def PSN_SNAKE_ECHO_FAILS (i0 : Nat) : Fld := ⟨0x810058 + 0x100 * (i0 % 256), 63, 0, 0⟩
/-! The snake block, R522. -/

def SNK_BLOCK (i0 : Nat) : Fld := ⟨0x900000 + 0x1000 * (i0 % 256), 31, 16, 0xa09⟩
def SNK_REV (i0 : Nat) : Fld := ⟨0x900000 + 0x1000 * (i0 % 256), 15, 0, (Rst.rev).val [i0]⟩
def SNK_LOCK (i0 : Nat) : Fld := ⟨0x900004 + 0x1000 * (i0 % 256), 0, 0, 0⟩
def SNK_EN_8 (i0 : Nat) : Fld := ⟨0x900008 + 0x1000 * (i0 % 256), 0, 0, 1⟩
def SNK_PUSH_RETRY (i0 : Nat) : Fld := ⟨0x900008 + 0x1000 * (i0 % 256), 3, 1, 2⟩
def SNK_ACK_TO_US (i0 : Nat) : Fld := ⟨0x900008 + 0x1000 * (i0 % 256), 10, 4, 6⟩
def SNK_LPI_EN (i0 : Nat) : Fld := ⟨0x900008 + 0x1000 * (i0 % 256), 11, 11, 1⟩
def SNK_LOST_US (i0 : Nat) : Fld := ⟨0x900008 + 0x1000 * (i0 % 256), 21, 12, 0x64⟩
def SNK_ENUM_RETRY (i0 : Nat) : Fld := ⟨0x900008 + 0x1000 * (i0 % 256), 25, 22, 3⟩
def SNK_HEALTH_MS (i0 : Nat) : Fld := ⟨0x90000c + 0x1000 * (i0 % 256), 15, 0, 0x64⟩
def SNK_SENSE_HZ (i0 : Nat) : Fld := ⟨0x90000c + 0x1000 * (i0 % 256), 25, 16, 0xf0⟩
def SNK_CELL_LOG2 (i0 : Nat) : Fld := ⟨0x90000c + 0x1000 * (i0 % 256), 28, 26, 3⟩
def SNK_CMD (i0 : Nat) : Fld := ⟨0x900010 + 0x1000 * (i0 % 256), 3, 0, 0⟩
def SNK_POS_10 (i0 : Nat) : Fld := ⟨0x900010 + 0x1000 * (i0 % 256), 9, 4, 0⟩
def SNK_STATE (i0 : Nat) : Fld := ⟨0x900014 + 0x1000 * (i0 % 256), 2, 0, 0⟩
def SNK_LPI (i0 : Nat) : Fld := ⟨0x900014 + 0x1000 * (i0 % 256), 3, 3, 0⟩
def SNK_N_FOUND (i0 : Nat) : Fld := ⟨0x900014 + 0x1000 * (i0 % 256), 10, 4, 0⟩
def SNK_ENUM_POS (i0 : Nat) : Fld := ⟨0x900014 + 0x1000 * (i0 % 256), 16, 11, 0⟩
def SNK_LINK_DOWN (i0 : Nat) : Fld := ⟨0x900018 + 0x1000 * (i0 % 256), 0, 0, 0⟩
def SNK_ENUM_DONE (i0 : Nat) : Fld := ⟨0x900018 + 0x1000 * (i0 % 256), 1, 1, 0⟩
def SNK_COUNT_MISMATCH (i0 : Nat) : Fld := ⟨0x900018 + 0x1000 * (i0 % 256), 2, 2, 0⟩
def SNK_TYPE_MISMATCH (i0 : Nat) : Fld := ⟨0x900018 + 0x1000 * (i0 % 256), 3, 3, 0⟩
def SNK_UNSUPPORTED (i0 : Nat) : Fld := ⟨0x900018 + 0x1000 * (i0 % 256), 4, 4, 0⟩
def SNK_SQ_LOST (i0 : Nat) : Fld := ⟨0x900018 + 0x1000 * (i0 % 256), 5, 5, 0⟩
def SNK_SQ_BACK (i0 : Nat) : Fld := ⟨0x900018 + 0x1000 * (i0 % 256), 6, 6, 0⟩
def SNK_NAK (i0 : Nat) : Fld := ⟨0x900018 + 0x1000 * (i0 % 256), 7, 7, 0⟩
def SNK_ACK_TO (i0 : Nat) : Fld := ⟨0x900018 + 0x1000 * (i0 % 256), 8, 8, 0⟩
def SNK_UP_BAD (i0 : Nat) : Fld := ⟨0x900018 + 0x1000 * (i0 % 256), 9, 9, 0⟩
def SNK_UP_GAP (i0 : Nat) : Fld := ⟨0x900018 + 0x1000 * (i0 % 256), 10, 10, 0⟩
def SNK_FEC_UNCORR (i0 : Nat) : Fld := ⟨0x900018 + 0x1000 * (i0 % 256), 11, 11, 0⟩
def SNK_FATAL (i0 : Nat) : Fld := ⟨0x900018 + 0x1000 * (i0 % 256), 12, 12, 0⟩
def SNK_TILE_FLAG (i0 : Nat) : Fld := ⟨0x900018 + 0x1000 * (i0 % 256), 13, 13, 0⟩
def SNK_MAINT_DONE (i0 : Nat) : Fld := ⟨0x900018 + 0x1000 * (i0 % 256), 14, 14, 0⟩
def SNK_WRANGE (i0 : Nat) : Fld := ⟨0x900018 + 0x1000 * (i0 % 256), 15, 15, 0⟩
def SNK_LOCKVIOL (i0 : Nat) : Fld := ⟨0x900018 + 0x1000 * (i0 % 256), 16, 16, 0⟩
def SNK_TMR_CORR (i0 : Nat) : Fld := ⟨0x900018 + 0x1000 * (i0 % 256), 17, 17, 0⟩
def SNK_TMR_FAIL (i0 : Nat) : Fld := ⟨0x900018 + 0x1000 * (i0 % 256), 18, 18, 0⟩
def SNK_FI_DONE (i0 : Nat) : Fld := ⟨0x900018 + 0x1000 * (i0 % 256), 19, 19, 0⟩
def SNK_LOST_LO (i0 : Nat) : Fld := ⟨0x90001c + 0x1000 * (i0 % 256), 31, 0, 0⟩
def SNK_LOST_HI (i0 : Nat) : Fld := ⟨0x900020 + 0x1000 * (i0 % 256), 31, 0, 0⟩
def SNK_EN_40 (i0 : Nat) : Fld := ⟨0x900040 + 0x1000 * (i0 % 256), 0, 0, 0⟩
def SNK_ACTION (i0 : Nat) : Fld := ⟨0x900040 + 0x1000 * (i0 % 256), 3, 1, 0⟩
def SNK_FTYPE (i0 : Nat) : Fld := ⟨0x900040 + 0x1000 * (i0 % 256), 7, 4, 0⟩
def SNK_POS_40 (i0 : Nat) : Fld := ⟨0x900040 + 0x1000 * (i0 % 256), 13, 8, 0⟩
def SNK_POS_EN (i0 : Nat) : Fld := ⟨0x900040 + 0x1000 * (i0 % 256), 14, 14, 0⟩
def SNK_PERIOD (i0 : Nat) : Fld := ⟨0x900040 + 0x1000 * (i0 % 256), 31, 16, 1⟩
def SNK_COUNT (i0 : Nat) : Fld := ⟨0x900044 + 0x1000 * (i0 % 256), 15, 0, 1⟩
def SNK_SYMS (i0 : Nat) : Fld := ⟨0x900044 + 0x1000 * (i0 % 256), 19, 16, 1⟩
def SNK_FI_LEFT (i0 : Nat) : Fld := ⟨0x900048 + 0x1000 * (i0 % 256), 15, 0, 0⟩
def SNK_DN_FRAMES (i0 : Nat) : Fld := ⟨0x900100 + 0x1000 * (i0 % 256), 63, 0, 0⟩
def SNK_UP_FRAMES (i0 : Nat) : Fld := ⟨0x900108 + 0x1000 * (i0 % 256), 63, 0, 0⟩
def SNK_FEC_CORR (i0 : Nat) : Fld := ⟨0x900110 + 0x1000 * (i0 % 256), 63, 0, 0⟩
def SNK_FEC_UNCORR_CNT (i0 : Nat) : Fld := ⟨0x900118 + 0x1000 * (i0 % 256), 63, 0, 0⟩
def SNK_NAK_CNT (i0 : Nat) : Fld := ⟨0x900120 + 0x1000 * (i0 % 256), 63, 0, 0⟩
def SNK_ACK_TO_CNT (i0 : Nat) : Fld := ⟨0x900128 + 0x1000 * (i0 % 256), 63, 0, 0⟩
def SNK_REPEAT_CNT (i0 : Nat) : Fld := ⟨0x900130 + 0x1000 * (i0 % 256), 63, 0, 0⟩
def SNK_UP_BAD_CNT (i0 : Nat) : Fld := ⟨0x900138 + 0x1000 * (i0 % 256), 63, 0, 0⟩
def SNK_UP_GAP_CNT (i0 : Nat) : Fld := ⟨0x900140 + 0x1000 * (i0 % 256), 63, 0, 0⟩
def SNK_RELOCK_CNT (i0 : Nat) : Fld := ⟨0x900148 + 0x1000 * (i0 % 256), 63, 0, 0⟩
def SNK_FI_CNT (i0 : Nat) : Fld := ⟨0x900150 + 0x1000 * (i0 % 256), 63, 0, 0⟩
def SNK_M_POS (i0 : Nat) : Fld := ⟨0x900200 + 0x1000 * (i0 % 256), 5, 0, 0⟩
def SNK_M_OP (i0 : Nat) : Fld := ⟨0x900200 + 0x1000 * (i0 % 256), 11, 8, 0⟩
def SNK_M_NWORDS (i0 : Nat) : Fld := ⟨0x900200 + 0x1000 * (i0 % 256), 20, 16, 0⟩
def SNK_M_ADDR (i0 : Nat) : Fld := ⟨0x900204 + 0x1000 * (i0 % 256), 31, 0, 0⟩
def SNK_M_STATUS (i0 : Nat) : Fld := ⟨0x900208 + 0x1000 * (i0 % 256), 3, 0, 0⟩
def SNK_M_DATA (i0 : Nat) (i1 : Nat) : Fld := ⟨0x900240 + 0x1000 * (i0 % 256) + 0x8 * (i1 % 32), 63, 0, 0⟩
def POSN_TILE_ID (i0 : Nat) (i1 : Nat) : Fld := ⟨0x900400 + 0x1000 * (i0 % 256) + 0x20 * (i1 % 64), 63, 0, 0⟩
def POSN_TILE_TYPE (i0 : Nat) (i1 : Nat) : Fld := ⟨0x900408 + 0x1000 * (i0 % 256) + 0x20 * (i1 % 64), 31, 0, 0⟩
def POSN_DELAY_UI (i0 : Nat) (i1 : Nat) : Fld := ⟨0x90040c + 0x1000 * (i0 % 256) + 0x20 * (i1 % 64), 31, 0, 0⟩
def POSN_RTT_UI (i0 : Nat) (i1 : Nat) : Fld := ⟨0x900410 + 0x1000 * (i0 % 256) + 0x20 * (i1 % 64), 31, 0, 0⟩
def POSN_RF_UI (i0 : Nat) (i1 : Nat) : Fld := ⟨0x900414 + 0x1000 * (i0 % 256) + 0x20 * (i1 % 64), 15, 0, 0⟩
def POSN_RB_UI (i0 : Nat) (i1 : Nat) : Fld := ⟨0x900414 + 0x1000 * (i0 % 256) + 0x20 * (i1 % 64), 31, 16, 0⟩
def POSN_LT_UI (i0 : Nat) (i1 : Nat) : Fld := ⟨0x900418 + 0x1000 * (i0 % 256) + 0x20 * (i1 % 64), 15, 0, 0⟩
def POSN_SQ_STATE (i0 : Nat) (i1 : Nat) : Fld := ⟨0x900418 + 0x1000 * (i0 % 256) + 0x20 * (i1 % 64), 18, 16, 0⟩
def POSN_DN_SEQ (i0 : Nat) (i1 : Nat) : Fld := ⟨0x90041c + 0x1000 * (i0 % 256) + 0x20 * (i1 % 64), 11, 0, 0⟩
def POSN_UP_SEQ (i0 : Nat) (i1 : Nat) : Fld := ⟨0x90041c + 0x1000 * (i0 % 256) + 0x20 * (i1 % 64), 23, 12, 0⟩
/-! The ingest block, R567. -/

def ING_BLOCK : Fld := ⟨0xa00000, 31, 16, 0xa0a⟩
def ING_REV : Fld := ⟨0xa00000, 15, 0, (Rst.rev).val []⟩
def ING_LOCK : Fld := ⟨0xa00004, 0, 0, 0⟩
def ING_STALE_MS : Fld := ⟨0xa00008, 13, 0, 0x64⟩
def ING_LEG_TO_MS : Fld := ⟨0xa00008, 23, 14, 0x14⟩
def ING_TS_CHECK : Fld := ⟨0xa00008, 24, 24, 1⟩
def ING_POLICE_EN : Fld := ⟨0xa00008, 25, 25, 1⟩
def ING_TS_LATE_MS : Fld := ⟨0xa0000c, 9, 0, 0x32⟩
def ING_TS_EARLY_MS : Fld := ⟨0xa0000c, 16, 10, 1⟩
def ING_WRANGE : Fld := ⟨0xa00010, 0, 0, 0⟩
def ING_LOCKVIOL : Fld := ⟨0xa00010, 1, 1, 0⟩
def ING_TMR_CORR : Fld := ⟨0xa00010, 2, 2, 0⟩
def ING_TMR_FAIL : Fld := ⟨0xa00010, 3, 3, 0⟩
def ING_STALE : Fld := ⟨0xa00010, 4, 4, 0⟩
def ING_INCOMPLETE : Fld := ⟨0xa00010, 5, 5, 0⟩
def ING_LEG_LOST : Fld := ⟨0xa00010, 6, 6, 0⟩
def IPORT_TABLE (i0 : Nat) : Fld := ⟨0xa01000 + 0x100 * (i0 % 8), 0, 0, 0⟩
def IPORT_LINK_UP (i0 : Nat) : Fld := ⟨0xa01000 + 0x100 * (i0 % 8), 1, 1, 0⟩
def IPORT_FLOWS (i0 : Nat) : Fld := ⟨0xa01000 + 0x100 * (i0 % 8), 8, 2, 0⟩
def IPORT_IP_ADDR (i0 : Nat) : Fld := ⟨0xa01004 + 0x100 * (i0 % 8), 31, 0, 0⟩
def IPORT_LINK_DOWN (i0 : Nat) : Fld := ⟨0xa01008 + 0x100 * (i0 % 8), 0, 0, 0⟩
def IPORT_PARSE (i0 : Nat) : Fld := ⟨0xa01008 + 0x100 * (i0 % 8), 1, 1, 0⟩
def IPORT_SHADOW (i0 : Nat) : Fld := ⟨0xa01008 + 0x100 * (i0 % 8), 2, 2, 0⟩
def IPORT_NOMATCH (i0 : Nat) : Fld := ⟨0xa01008 + 0x100 * (i0 % 8), 3, 3, 0⟩
def IPORT_SSRC (i0 : Nat) : Fld := ⟨0xa01008 + 0x100 * (i0 % 8), 4, 4, 0⟩
def IPORT_TS (i0 : Nat) : Fld := ⟨0xa01008 + 0x100 * (i0 % 8), 5, 5, 0⟩
def IPORT_OVERRATE (i0 : Nat) : Fld := ⟨0xa01008 + 0x100 * (i0 % 8), 6, 6, 0⟩
def IPORT_GEOM (i0 : Nat) : Fld := ⟨0xa01008 + 0x100 * (i0 % 8), 7, 7, 0⟩
def IPORT_RX_PKTS (i0 : Nat) : Fld := ⟨0xa01040 + 0x100 * (i0 % 8), 63, 0, 0⟩
def IPORT_RX_BYTES (i0 : Nat) : Fld := ⟨0xa01048 + 0x100 * (i0 % 8), 63, 0, 0⟩
def IPORT_PARSE_CNT (i0 : Nat) : Fld := ⟨0xa01050 + 0x100 * (i0 % 8), 63, 0, 0⟩
def IPORT_NOMATCH_CNT (i0 : Nat) : Fld := ⟨0xa01058 + 0x100 * (i0 % 8), 63, 0, 0⟩
def IPORT_SHADOW_CNT (i0 : Nat) : Fld := ⟨0xa01060 + 0x100 * (i0 % 8), 63, 0, 0⟩
def IPORT_SSRC_CNT (i0 : Nat) : Fld := ⟨0xa01068 + 0x100 * (i0 % 8), 63, 0, 0⟩
def IPORT_TS_CNT (i0 : Nat) : Fld := ⟨0xa01070 + 0x100 * (i0 % 8), 63, 0, 0⟩
def IPORT_DUP_CNT (i0 : Nat) : Fld := ⟨0xa01078 + 0x100 * (i0 % 8), 63, 0, 0⟩
def IPORT_OVERRATE_CNT (i0 : Nat) : Fld := ⟨0xa01080 + 0x100 * (i0 % 8), 63, 0, 0⟩
def IPORT_GEOM_CNT (i0 : Nat) : Fld := ⟨0xa01088 + 0x100 * (i0 % 8), 63, 0, 0⟩
def IPORT_READY_CNT (i0 : Nat) : Fld := ⟨0xa01090 + 0x100 * (i0 % 8), 63, 0, 0⟩
def IPORT_INCOMPLETE_CNT (i0 : Nat) : Fld := ⟨0xa01098 + 0x100 * (i0 % 8), 63, 0, 0⟩
def XSD_CHANNELS (i0 : Nat) : Fld := ⟨0xa02000 + 0x100 * (i0 % 8), 4, 0, 0⟩
def XSD_LOAD (i0 : Nat) : Fld := ⟨0xa02000 + 0x100 * (i0 % 8), 31, 16, 0⟩
def XSD_XS_ERR (i0 : Nat) : Fld := ⟨0xa02004 + 0x100 * (i0 % 8), 0, 0, 0⟩
def XSD_XS_UNSUP (i0 : Nat) : Fld := ⟨0xa02004 + 0x100 * (i0 % 8), 1, 1, 0⟩
def XSD_SLICES (i0 : Nat) : Fld := ⟨0xa02040 + 0x100 * (i0 % 8), 63, 0, 0⟩
def XSD_PIXELS (i0 : Nat) : Fld := ⟨0xa02048 + 0x100 * (i0 % 8), 63, 0, 0⟩
def XSD_XS_ERR_CNT (i0 : Nat) : Fld := ⟨0xa02050 + 0x100 * (i0 % 8), 63, 0, 0⟩
/-! The clip store block, R568. -/

def CLIP_BLOCK : Fld := ⟨0xb00000, 31, 16, 0xa0b⟩
def CLIP_REV : Fld := ⟨0xb00000, 15, 0, (Rst.rev).val []⟩
def CLIP_LOCK : Fld := ⟨0xb00004, 0, 0, 0⟩
def CLIP_DRV_TO_MS : Fld := ⟨0xb00008, 13, 0, 0x1f4⟩
def CLIP_WRITE_EN : Fld := ⟨0xb00008, 14, 14, 1⟩
def CLIP_CMD : Fld := ⟨0xb0000c, 3, 0, 0⟩
def CLIP_STORE : Fld := ⟨0xb00010, 1, 0, 0⟩
def CLIP_PRESENT : Fld := ⟨0xb00010, 15, 8, 0⟩
def CLIP_MEMBERS : Fld := ⟨0xb00010, 23, 16, 0⟩
def CLIP_WRANGE : Fld := ⟨0xb00014, 0, 0, 0⟩
def CLIP_LOCKVIOL : Fld := ⟨0xb00014, 1, 1, 0⟩
def CLIP_TMR_CORR : Fld := ⟨0xb00014, 2, 2, 0⟩
def CLIP_TMR_FAIL : Fld := ⟨0xb00014, 3, 3, 0⟩
def CLIP_STORE_FAIL : Fld := ⟨0xb00014, 4, 4, 0⟩
def CLIP_MISS : Fld := ⟨0xb00014, 5, 5, 0⟩
def CLIP_CRC_ERR : Fld := ⟨0xb00014, 6, 6, 0⟩
def CLIP_WRITE_FAIL : Fld := ⟨0xb00014, 7, 7, 0⟩
def CLIP_FORMAT_DONE : Fld := ⟨0xb00014, 8, 8, 0⟩
def CLIP_CLIPS : Fld := ⟨0xb00018, 16, 0, 0⟩
def CLIP_CAP_BYTES : Fld := ⟨0xb00020, 63, 0, 0⟩
def CLIP_FREE_BYTES : Fld := ⟨0xb00028, 63, 0, 0⟩
def CLIP_READ_BYTES : Fld := ⟨0xb00100, 63, 0, 0⟩
def CLIP_WRITE_BYTES : Fld := ⟨0xb00108, 63, 0, 0⟩
def CLIP_MISS_CNT : Fld := ⟨0xb00110, 63, 0, 0⟩
def CLIP_CRC_ERR_CNT : Fld := ⟨0xb00118, 63, 0, 0⟩
def CLIP_CMD_TO_CNT : Fld := ⟨0xb00120, 63, 0, 0⟩
def DRV_STATE (i0 : Nat) : Fld := ⟨0xb01000 + 0x100 * (i0 % 8), 2, 0, 0⟩
def DRV_LINK_UP (i0 : Nat) : Fld := ⟨0xb01000 + 0x100 * (i0 % 8), 3, 3, 0⟩
def DRV_TEMP (i0 : Nat) : Fld := ⟨0xb01000 + 0x100 * (i0 % 8), 15, 8, 0⟩
def DRV_LINK_DOWN (i0 : Nat) : Fld := ⟨0xb01004 + 0x100 * (i0 % 8), 0, 0, 0⟩
def DRV_CMD_TO (i0 : Nat) : Fld := ⟨0xb01004 + 0x100 * (i0 % 8), 1, 1, 0⟩
def DRV_MEDIA_ERR (i0 : Nat) : Fld := ⟨0xb01004 + 0x100 * (i0 % 8), 2, 2, 0⟩
def DRV_SMART_WARN (i0 : Nat) : Fld := ⟨0xb01004 + 0x100 * (i0 % 8), 3, 3, 0⟩
def DRV_FAILED (i0 : Nat) : Fld := ⟨0xb01004 + 0x100 * (i0 % 8), 4, 4, 0⟩
def DRV_SIZE (i0 : Nat) : Fld := ⟨0xb01008 + 0x100 * (i0 % 8), 63, 0, 0⟩
def DRV_RD_CMDS (i0 : Nat) : Fld := ⟨0xb01040 + 0x100 * (i0 % 8), 63, 0, 0⟩
def DRV_RD_BYTES (i0 : Nat) : Fld := ⟨0xb01048 + 0x100 * (i0 % 8), 63, 0, 0⟩
def DRV_TO_CNT (i0 : Nat) : Fld := ⟨0xb01050 + 0x100 * (i0 % 8), 63, 0, 0⟩
def DRV_MEDIA_CNT (i0 : Nat) : Fld := ⟨0xb01058 + 0x100 * (i0 % 8), 63, 0, 0⟩
/-! The block engine block, R602. -/

def BLT_BLOCK : Fld := ⟨0xc00000, 31, 16, 0xa0c⟩
def BLT_REV : Fld := ⟨0xc00000, 15, 0, (Rst.rev).val []⟩
def BLT_LOCK : Fld := ⟨0xc00004, 0, 0, 0⟩
def BLT_BUSY : Fld := ⟨0xc00008, 0, 0, 0⟩
def BLT_WDROP : Fld := ⟨0xc00008, 1, 1, 0⟩
def BLT_EN : Fld := ⟨0xc0000c, 0, 0, 1⟩
def BLT_WAIT_TO_MS : Fld := ⟨0xc0000c, 16, 1, 0x3e8⟩
def BLT_WRANGE : Fld := ⟨0xc00010, 0, 0, 0⟩
def BLT_LOCKVIOL : Fld := ⟨0xc00010, 1, 1, 0⟩
def BLT_TMR_CORR : Fld := ⟨0xc00010, 2, 2, 0⟩
def BLT_TMR_FAIL : Fld := ⟨0xc00010, 3, 3, 0⟩
def BLT_POISON : Fld := ⟨0xc00010, 4, 4, 0⟩
def BLT_FAULT : Fld := ⟨0xc00010, 5, 5, 0⟩
def BLT_WAIT_TO : Fld := ⟨0xc00010, 6, 6, 0⟩
def BLT_RING_ERR : Fld := ⟨0xc00010, 7, 7, 0⟩
def BLT_GO_REJ : Fld := ⟨0xc00010, 8, 8, 0⟩
def BLT_ACTIVE : Fld := ⟨0xc00014, 0, 0, 0⟩
def BLT_QUIET_HOLD : Fld := ⟨0xc00014, 1, 1, 0⟩
def BLT_RINGS : Fld := ⟨0xc00014, 14, 2, 0⟩
def BLT_OPS : Fld := ⟨0xc00100, 63, 0, 0⟩
def BLT_RD_BYTES : Fld := ⟨0xc00108, 63, 0, 0⟩
def BLT_WR_BYTES : Fld := ⟨0xc00110, 63, 0, 0⟩
def BLT_ABORT_CNT : Fld := ⟨0xc00118, 63, 0, 0⟩
def BLT_WAIT_TO_CNT : Fld := ⟨0xc00120, 63, 0, 0⟩
def BLT_CLIP_PX : Fld := ⟨0xc00128, 63, 0, 0⟩
def BLT_D_SRC : Fld := ⟨0xc00800, 31, 0, 0⟩
def BLT_D_DST : Fld := ⟨0xc00804, 31, 0, 0⟩
def BLT_D_SRC_X : Fld := ⟨0xc00808, 15, 0, 0⟩
def BLT_D_SRC_Y : Fld := ⟨0xc00808, 31, 16, 0⟩
def BLT_D_DST_X : Fld := ⟨0xc0080c, 15, 0, 0⟩
def BLT_D_DST_Y : Fld := ⟨0xc0080c, 31, 16, 0⟩
def BLT_D_W : Fld := ⟨0xc00810, 15, 0, 0⟩
def BLT_D_H : Fld := ⟨0xc00810, 31, 16, 0⟩
def BLT_D_FILL : Fld := ⟨0xc00818, 63, 0, 0⟩
def BLT_D_OP : Fld := ⟨0xc00820, 3, 0, 0⟩
def BLT_D_DIR : Fld := ⟨0xc00820, 5, 4, 0⟩
def BLT_D_ROP : Fld := ⟨0xc00820, 15, 8, 0⟩
def BLT_GO : Fld := ⟨0xc00824, 0, 0, 0⟩
def BLT_RUN : Fld := ⟨0xc00828, 0, 0, 0⟩
def BLT_DONE : Fld := ⟨0xc00828, 1, 1, 0⟩
def BLT_STATUS : Fld := ⟨0xc00828, 15, 8, 0⟩
def BLT_D_TURN : Fld := ⟨0xc0082c, 31, 0, 0⟩
def BCH_HANDLE (i0 : Nat) : Fld := ⟨0xc10000 + 0x10 * (i0 % 4096), 31, 0, 0⟩
def BCH_STATE (i0 : Nat) : Fld := ⟨0xc10004 + 0x10 * (i0 % 4096), 1, 0, 0⟩
def BCH_KIND (i0 : Nat) : Fld := ⟨0xc10004 + 0x10 * (i0 % 4096), 2, 2, 0⟩
def BCH_WAIT (i0 : Nat) : Fld := ⟨0xc10004 + 0x10 * (i0 % 4096), 4, 3, 0⟩
def BCH_CONS (i0 : Nat) : Fld := ⟨0xc10008 + 0x10 * (i0 % 4096), 15, 0, 0⟩
def BCH_ERR (i0 : Nat) : Fld := ⟨0xc1000c + 0x10 * (i0 % 4096), 0, 0, 0⟩
def BCH_WAIT_TO (i0 : Nat) : Fld := ⟨0xc1000c + 0x10 * (i0 % 4096), 1, 1, 0⟩
def BCH_POISON (i0 : Nat) : Fld := ⟨0xc1000c + 0x10 * (i0 % 4096), 2, 2, 0⟩
/-! The sensing block, R636. -/

def SNS_BLOCK : Fld := ⟨0xd00000, 31, 16, 0xa0d⟩
def SNS_REV : Fld := ⟨0xd00000, 15, 0, (Rst.rev).val []⟩
def SNS_LOCK : Fld := ⟨0xd00004, 0, 0, 0⟩
def SNS_EN : Fld := ⟨0xd00008, 0, 0, 1⟩
def SNS_HIT_EN : Fld := ⟨0xd00008, 1, 1, 1⟩
def SNS_WRANGE : Fld := ⟨0xd0000c, 0, 0, 0⟩
def SNS_LOCKVIOL : Fld := ⟨0xd0000c, 1, 1, 0⟩
def SNS_TMR_CORR : Fld := ⟨0xd0000c, 2, 2, 0⟩
def SNS_TMR_FAIL : Fld := ⟨0xd0000c, 3, 3, 0⟩
def SNS_OVERFLOW : Fld := ⟨0xd0000c, 4, 4, 0⟩
def SNS_SCAN_ERR : Fld := ⟨0xd0000c, 5, 5, 0⟩
def SNS_SENSE_STALE : Fld := ⟨0xd0000c, 6, 6, 0⟩
def SNS_BAD_CELL : Fld := ⟨0xd0000c, 7, 7, 0⟩
def SNS_SHADOW : Fld := ⟨0xd0000c, 8, 8, 0⟩
def SNS_TELE_IMPL : Fld := ⟨0xd0000c, 9, 9, 0⟩
def SNS_TEMP_WARN : Fld := ⟨0xd0000c, 10, 10, 0⟩
def SNS_TELE_STALE_C : Fld := ⟨0xd0000c, 11, 11, 0⟩
def SNS_ALARM_CHG : Fld := ⟨0xd0000c, 12, 12, 0⟩
def SNS_BIND_LOST : Fld := ⟨0xd0000c, 13, 13, 0⟩
def SNS_RAW0 : Fld := ⟨0xd00010, 0, 0, 0⟩
def SNS_RAW1 : Fld := ⟨0xd00010, 4, 4, 0⟩
def SNS_ACT0 : Fld := ⟨0xd00010, 1, 1, 0⟩
def SNS_ACT1 : Fld := ⟨0xd00010, 5, 5, 0⟩
def SNS_ON0 : Fld := ⟨0xd00010, 2, 2, 0⟩
def SNS_ON1 : Fld := ⟨0xd00010, 6, 6, 0⟩
def SNS_CHAT0 : Fld := ⟨0xd00010, 3, 3, 0⟩
def SNS_CHAT1 : Fld := ⟨0xd00010, 7, 7, 0⟩
def SNS_CLEAR0 : Fld := ⟨0xd00014, 0, 0, 0⟩
def SNS_CLEAR1 : Fld := ⟨0xd00014, 1, 1, 0⟩
def SNS_SQ_SEL : Fld := ⟨0xd00018, 13, 0, 0⟩
def SNS_STATE : Fld := ⟨0xd0001c, 1, 0, 0⟩
def SNS_CONTACTS : Fld := ⟨0xd0001c, 10, 2, 0⟩
def SNS_BAD_CELLS : Fld := ⟨0xd0001c, 23, 11, 0⟩
def SNS_TELE_STALE_1C : Fld := ⟨0xd0001c, 24, 24, 0⟩
def SNS_HOT : Fld := ⟨0xd0001c, 25, 25, 0⟩
def SNS_SQ_TEMP : Fld := ⟨0xd00020, 15, 0, 0⟩
def SNS_VSUP : Fld := ⟨0xd00020, 31, 16, 0⟩
def SNS_SQ_AMB : Fld := ⟨0xd00024, 31, 0, 0xffffffff⟩
def SNS_SQ_SCAN : Fld := ⟨0xd00028, 31, 0, 0⟩
def SNS_PENDING (i0 : Nat) : Fld := ⟨0xd00040 + 0x4 * (i0 % 8), 31, 0, 0⟩
def SNS_CONTACT_CNT : Fld := ⟨0xd00100, 63, 0, 0⟩
def SNS_REPORT_CNT : Fld := ⟨0xd00108, 63, 0, 0⟩
def SNS_RING_DROP : Fld := ⟨0xd00110, 63, 0, 0⟩
def SNS_SCAN_ERR_CNT : Fld := ⟨0xd00118, 63, 0, 0⟩
def SNS_TELE_IMPL_CNT : Fld := ⟨0xd00120, 63, 0, 0⟩
def SNS_CH_SHADOW : Fld := ⟨0xd00128, 63, 0, 0⟩
def SNS_LAYER_SHADOW : Fld := ⟨0xd00130, 63, 0, 0⟩
def SNS_MAX_SKIP : Fld := ⟨0xd00138, 63, 0, 0⟩
def SCH_HANDLE (i0 : Nat) : Fld := ⟨0xd01000 + 0x40 * (i0 % 256), 31, 0, 0⟩
def SCH_STATE (i0 : Nat) : Fld := ⟨0xd01004 + 0x40 * (i0 % 256), 1, 0, 0⟩
def SCH_DEMOTED (i0 : Nat) : Fld := ⟨0xd01004 + 0x40 * (i0 % 256), 2, 2, 0⟩
def SCH_OPEN (i0 : Nat) : Fld := ⟨0xd01004 + 0x40 * (i0 % 256), 11, 3, 0⟩
def SCH_PI (i0 : Nat) : Fld := ⟨0xd01008 + 0x40 * (i0 % 256), 31, 0, 0⟩
def SCH_CI (i0 : Nat) : Fld := ⟨0xd0100c + 0x40 * (i0 % 256), 31, 0, 0⟩
def SCH_OVERFLOW (i0 : Nat) : Fld := ⟨0xd01010 + 0x40 * (i0 % 256), 0, 0, 0⟩
def SCH_MAX_HIT (i0 : Nat) : Fld := ⟨0xd01010 + 0x40 * (i0 % 256), 1, 1, 0⟩
def SCH_DROP_CNT (i0 : Nat) : Fld := ⟨0xd01018 + 0x40 * (i0 % 256), 63, 0, 0⟩
def SCH_CH_REPORTS (i0 : Nat) : Fld := ⟨0xd01020 + 0x40 * (i0 % 256), 63, 0, 0⟩
/-! The time block, R671. -/

def TB_BLOCK : Fld := ⟨0xe00000, 31, 16, 0xa10⟩
def TB_REV : Fld := ⟨0xe00000, 15, 0, (Rst.rev).val []⟩
def TB_LOCK : Fld := ⟨0xe00004, 0, 0, 0⟩
def TB_SLEW_PPM : Fld := ⟨0xe00008, 6, 0, 0x64⟩
def TB_STEP_US : Fld := ⟨0xe00008, 27, 8, 0x64⟩
def TB_WRANGE : Fld := ⟨0xe0000c, 0, 0, 0⟩
def TB_LOCKVIOL : Fld := ⟨0xe0000c, 1, 1, 0⟩
def TB_TMR_CORR : Fld := ⟨0xe0000c, 2, 2, 0⟩
def TB_TMR_FAIL : Fld := ⟨0xe0000c, 3, 3, 0⟩
def TB_CMD_DONE : Fld := ⟨0xe0000c, 4, 4, 0⟩
def TB_CMD_REJ : Fld := ⟨0xe0000c, 5, 5, 0⟩
def TB_STEPPED : Fld := ⟨0xe0000c, 6, 6, 0⟩
def TB_HOLDOVER : Fld := ⟨0xe0000c, 7, 7, 0⟩
def TB_RANGE90 : Fld := ⟨0xe0000c, 8, 8, 0⟩
def TB_SRC : Fld := ⟨0xe00010, 1, 0, 1⟩
def TB_SYNC : Fld := ⟨0xe00010, 4, 2, 0⟩
def TB_PTP_PORT : Fld := ⟨0xe00010, 8, 5, 0⟩
def TB_REF0_Q : Fld := ⟨0xe00010, 9, 9, 0⟩
def TB_REF1_Q : Fld := ⟨0xe00010, 10, 10, 0⟩
def TB_CMD_PEND : Fld := ⟨0xe00010, 12, 11, 0⟩
def TB_TIME_NS : Fld := ⟨0xe00014, 31, 0, 0⟩
def TB_TIME_SEC_LO : Fld := ⟨0xe00018, 31, 0, 0⟩
def TB_TIME_SEC_HI : Fld := ⟨0xe0001c, 15, 0, 0⟩
def TB_TIME_SET_NS : Fld := ⟨0xe00020, 31, 0, 0⟩
def TB_TIME_SET_SEC_LO : Fld := ⟨0xe00024, 31, 0, 0⟩
def TB_TIME_SET_SEC_HI : Fld := ⟨0xe00028, 15, 0, 0⟩
def TB_TIME_CMD : Fld := ⟨0xe0002c, 1, 0, 0⟩
def TB_OFFSET_NS : Fld := ⟨0xe00030, 31, 0, 0⟩
def TB_PATH_NS : Fld := ⟨0xe00034, 31, 0, 0⟩
def TB_HOLD_MS : Fld := ⟨0xe00038, 31, 0, 0⟩
def TB_GM_ID : Fld := ⟨0xe00040, 63, 0, 0⟩
def TB_NEXT_PRES_NS : Fld := ⟨0xe00048, 31, 0, 0⟩
def TB_NEXT_PRES_SEC_LO : Fld := ⟨0xe0004c, 31, 0, 0⟩
def TB_NEXT_PRES_SEC_HI : Fld := ⟨0xe00050, 15, 0, 0⟩
def TB_STEP_CNT : Fld := ⟨0xe00100, 63, 0, 0⟩
def TB_SYNC_CNT : Fld := ⟨0xe00108, 63, 0, 0⟩
def TB_HOLD_CNT : Fld := ⟨0xe00110, 63, 0, 0⟩
def TB_DISQ_CNT : Fld := ⟨0xe00118, 63, 0, 0⟩
def TB_SNAP_TURN : Fld := ⟨0xe00180, 63, 0, 0⟩
def TB_SNAP_NS : Fld := ⟨0xe00188, 31, 0, 0⟩
def TB_SNAP_SEC_LO : Fld := ⟨0xe0018c, 31, 0, 0⟩
def TB_SNAP_SEC_HI : Fld := ⟨0xe00190, 15, 0, 0⟩
/-! The synthesizer block, R672. -/

def SYN_BLOCK : Fld := ⟨0xf00000, 31, 16, 0xa11⟩
def SYN_REV : Fld := ⟨0xf00000, 15, 0, (Rst.rev).val []⟩
def SYN_LOCK : Fld := ⟨0xf00004, 0, 0, 0⟩
def SYN_WRANGE : Fld := ⟨0xf00008, 0, 0, 0⟩
def SYN_LOCKVIOL : Fld := ⟨0xf00008, 1, 1, 0⟩
def SYN_TMR_CORR : Fld := ⟨0xf00008, 2, 2, 0⟩
def SYN_TMR_FAIL : Fld := ⟨0xf00008, 3, 3, 0⟩
def SYN_CMD_REJ : Fld := ⟨0xf00008, 4, 4, 0⟩
def SYN_LOCKED_MAP (i0 : Nat) : Fld := ⟨0xf00010 + 0x4 * (i0 % 3), 31, 0, 0⟩
def SYN_PEND_MAP (i0 : Nat) : Fld := ⟨0xf00020 + 0x4 * (i0 % 3), 31, 0, 0⟩
def SYNS_LOCK_WIN (i0 : Nat) : Fld := ⟨0xf01000 + 0x80 * (i0 % 85), 6, 0, 0x14⟩
def SYNS_LOCK_N (i0 : Nat) : Fld := ⟨0xf01000 + 0x80 * (i0 % 85), 19, 8, 0x100⟩
def SYNS_REF_MODE (i0 : Nat) : Fld := ⟨0xf01000 + 0x80 * (i0 % 85), 21, 20, 1⟩
def SYNS_HOP_LIVE (i0 : Nat) : Fld := ⟨0xf01000 + 0x80 * (i0 % 85), 22, 22, (Rst.hopLive).val [i0]⟩
def SYNS_CMD (i0 : Nat) : Fld := ⟨0xf01004 + 0x80 * (i0 % 85), 3, 0, 0⟩
def SYNS_TARGET_4 (i0 : Nat) : Fld := ⟨0xf01004 + 0x80 * (i0 % 85), 5, 4, 0⟩
def SYNS_STATE (i0 : Nat) : Fld := ⟨0xf01008 + 0x80 * (i0 % 85), 2, 0, 0⟩
def SYNS_GATED (i0 : Nat) : Fld := ⟨0xf01008 + 0x80 * (i0 % 85), 3, 3, 1⟩
def SYNS_TARGET_8 (i0 : Nat) : Fld := ⟨0xf01008 + 0x80 * (i0 % 85), 5, 4, 0⟩
def SYNS_BAND_8 (i0 : Nat) : Fld := ⟨0xf01008 + 0x80 * (i0 % 85), 11, 6, 0⟩
def SYNS_CW_8 (i0 : Nat) : Fld := ⟨0xf01008 + 0x80 * (i0 % 85), 23, 12, 0⟩
def SYNS_PEND (i0 : Nat) : Fld := ⟨0xf01008 + 0x80 * (i0 % 85), 24, 24, 0⟩
def SYNS_PHASE_ERR (i0 : Nat) : Fld := ⟨0xf0100c + 0x80 * (i0 % 85), 15, 0, 0⟩
def SYNS_LOCK (i0 : Nat) : Fld := ⟨0xf01010 + 0x80 * (i0 % 85), 0, 0, 0⟩
def SYNS_UNLOCK (i0 : Nat) : Fld := ⟨0xf01010 + 0x80 * (i0 % 85), 1, 1, 0⟩
def SYNS_REF_LOST (i0 : Nat) : Fld := ⟨0xf01010 + 0x80 * (i0 % 85), 2, 2, 0⟩
def SYNS_REF_BACK (i0 : Nat) : Fld := ⟨0xf01010 + 0x80 * (i0 % 85), 3, 3, 0⟩
def SYNS_REBAND (i0 : Nat) : Fld := ⟨0xf01010 + 0x80 * (i0 % 85), 4, 4, 0⟩
def SYNS_RANGE90 (i0 : Nat) : Fld := ⟨0xf01010 + 0x80 * (i0 % 85), 5, 5, 0⟩
def SYNS_SEARCH (i0 : Nat) : Fld := ⟨0xf01010 + 0x80 * (i0 % 85), 6, 6, 0⟩
def SYNS_HOP_DONE (i0 : Nat) : Fld := ⟨0xf01010 + 0x80 * (i0 % 85), 7, 7, 0⟩
def SYNS_BAND_20 (i0 : Nat) (i1 : Nat) : Fld := ⟨0xf01020 + 0x80 * (i0 % 85) + 0x4 * (i1 % 4), 5, 0, 0⟩
def SYNS_CW_20 (i0 : Nat) (i1 : Nat) : Fld := ⟨0xf01020 + 0x80 * (i0 % 85) + 0x4 * (i1 % 4), 17, 6, 0⟩
def SYNS_VALID (i0 : Nat) (i1 : Nat) : Fld := ⟨0xf01020 + 0x80 * (i0 % 85) + 0x4 * (i1 % 4), 18, 18, 0⟩
def SYNS_TJ (i0 : Nat) (i1 : Nat) : Fld := ⟨0xf01020 + 0x80 * (i0 % 85) + 0x4 * (i1 % 4), 31, 24, 0⟩
def SYNS_UNLOCK_CNT (i0 : Nat) : Fld := ⟨0xf01040 + 0x80 * (i0 % 85), 63, 0, 0⟩
def SYNS_REBAND_CNT (i0 : Nat) : Fld := ⟨0xf01048 + 0x80 * (i0 % 85), 63, 0, 0⟩
/-! The queue block, R714. -/

def QB_BLOCK : Fld := ⟨0x200000, 31, 16, 0xa02⟩
def QB_REV : Fld := ⟨0x200000, 15, 0, (Rst.rev).val []⟩
def QB_LOCK : Fld := ⟨0x200004, 0, 0, 0⟩
def QB_EN : Fld := ⟨0x200008, 0, 0, 1⟩
def QB_MAX_OUT : Fld := ⟨0x200008, 8, 1, 0x40⟩
def QB_WRANGE : Fld := ⟨0x20000c, 0, 0, 0⟩
def QB_LOCKVIOL : Fld := ⟨0x20000c, 1, 1, 0⟩
def QB_TMR_CORR : Fld := ⟨0x20000c, 2, 2, 0⟩
def QB_TMR_FAIL : Fld := ⟨0x20000c, 3, 3, 0⟩
def QB_DB_ERR : Fld := ⟨0x20000c, 4, 4, 0⟩
def QB_OWN_STALL : Fld := ⟨0x20000c, 5, 5, 0⟩
def QB_FETCH_ERR : Fld := ⟨0x20000c, 6, 6, 0⟩
def QB_CQ_STALL : Fld := ⟨0x20000c, 7, 7, 0⟩
def QB_FLR : Fld := ⟨0x20000c, 8, 8, 0⟩
def QB_LINK_DOWN : Fld := ⟨0x20000c, 9, 9, 0⟩
def QB_FLUSHED : Fld := ⟨0x20000c, 10, 10, 0⟩
def QB_SPEED : Fld := ⟨0x200010, 3, 0, 0⟩
def QB_WIDTH : Fld := ⟨0x200010, 8, 4, 0⟩
def QB_LINK_UP : Fld := ⟨0x200010, 9, 9, 0⟩
def QB_NUM_VFS : Fld := ⟨0x200010, 14, 10, 0⟩
def QB_ENTRIES : Fld := ⟨0x200100, 63, 0, 0⟩
def QB_MALFORMED_CNT : Fld := ⟨0x200108, 63, 0, 0⟩
def QB_ABORT_CNT : Fld := ⟨0x200110, 63, 0, 0⟩
def QB_FLUSH_CNT : Fld := ⟨0x200118, 63, 0, 0⟩
def QB_DB_ERR_CNT : Fld := ⟨0x200120, 63, 0, 0⟩
def QB_HELD_CNT : Fld := ⟨0x200128, 63, 0, 0⟩
def QB_SQ_ERR_MAP (i0 : Nat) : Fld := ⟨0x200200 + 0x4 * (i0 % 32), 31, 0, 0⟩
def QB_CQ_STALL_MAP (i0 : Nat) : Fld := ⟨0x200280 + 0x4 * (i0 % 8), 31, 0, 0⟩
def SQ_BASE_LO (i0 : Nat) : Fld := ⟨0x210000 + 0x20 * (i0 % 1024), 31, 0, 0⟩
def SQ_BASE_HI (i0 : Nat) : Fld := ⟨0x210004 + 0x20 * (i0 % 1024), 31, 0, 0⟩
def SQ_SIZE_LOG2 (i0 : Nat) : Fld := ⟨0x210008 + 0x20 * (i0 % 1024), 4, 0, 4⟩
def SQ_CQ (i0 : Nat) : Fld := ⟨0x210008 + 0x20 * (i0 % 1024), 7, 5, 0⟩
def SQ_EN (i0 : Nat) : Fld := ⟨0x210008 + 0x20 * (i0 % 1024), 8, 8, 0⟩
def SQ_CTIME (i0 : Nat) : Fld := ⟨0x210008 + 0x20 * (i0 % 1024), 9, 9, 0⟩
def SQ_WEIGHT (i0 : Nat) : Fld := ⟨0x21000c + 0x20 * (i0 % 1024), 7, 0, 1⟩
def SQ_BURST (i0 : Nat) : Fld := ⟨0x21000c + 0x20 * (i0 % 1024), 14, 8, 8⟩
def SQ_STATE (i0 : Nat) : Fld := ⟨0x210010 + 0x20 * (i0 % 1024), 1, 0, 0⟩
def SQ_CI (i0 : Nat) : Fld := ⟨0x210010 + 0x20 * (i0 % 1024), 31, 16, 0⟩
def SQ_DB (i0 : Nat) : Fld := ⟨0x210014 + 0x20 * (i0 % 1024), 15, 0, 0⟩
def SQ_OUT (i0 : Nat) : Fld := ⟨0x210014 + 0x20 * (i0 % 1024), 23, 16, 0⟩
def SQ_DB_ERR (i0 : Nat) : Fld := ⟨0x210018 + 0x20 * (i0 % 1024), 0, 0, 0⟩
def SQ_OWN_STALL (i0 : Nat) : Fld := ⟨0x210018 + 0x20 * (i0 % 1024), 1, 1, 0⟩
def SQ_FETCH_ERR (i0 : Nat) : Fld := ⟨0x210018 + 0x20 * (i0 % 1024), 2, 2, 0⟩
def SQ_CQ_STALL (i0 : Nat) : Fld := ⟨0x210018 + 0x20 * (i0 % 1024), 3, 3, 0⟩
def SQ_WRANGE (i0 : Nat) : Fld := ⟨0x210018 + 0x20 * (i0 % 1024), 4, 4, 0⟩
def CQ_BASE_LO (i0 : Nat) : Fld := ⟨0x218000 + 0x20 * (i0 % 256), 31, 0, 0⟩
def CQ_BASE_HI (i0 : Nat) : Fld := ⟨0x218004 + 0x20 * (i0 % 256), 31, 0, 0⟩
def CQ_SIZE_LOG2 (i0 : Nat) : Fld := ⟨0x218008 + 0x20 * (i0 % 256), 4, 0, 4⟩
def CQ_EN (i0 : Nat) : Fld := ⟨0x218008 + 0x20 * (i0 % 256), 5, 5, 0⟩
def CQ_IRQ_EN (i0 : Nat) : Fld := ⟨0x218008 + 0x20 * (i0 % 256), 6, 6, 0⟩
def CQ_VEC (i0 : Nat) : Fld := ⟨0x218008 + 0x20 * (i0 % 256), 17, 7, 0⟩
def CQ_COAL_N (i0 : Nat) : Fld := ⟨0x21800c + 0x20 * (i0 % 256), 8, 0, 1⟩
def CQ_COAL_US (i0 : Nat) : Fld := ⟨0x21800c + 0x20 * (i0 % 256), 18, 9, 0⟩
def CQ_TAIL (i0 : Nat) : Fld := ⟨0x218010 + 0x20 * (i0 % 256), 15, 0, 0⟩
def CQ_HEAD (i0 : Nat) : Fld := ⟨0x218010 + 0x20 * (i0 % 256), 31, 16, 0⟩
def CQ_PHASE (i0 : Nat) : Fld := ⟨0x218014 + 0x20 * (i0 % 256), 0, 0, 1⟩
def CQ_HELD (i0 : Nat) : Fld := ⟨0x218014 + 0x20 * (i0 % 256), 9, 1, 0⟩
def CQ_RESV (i0 : Nat) : Fld := ⟨0x218014 + 0x20 * (i0 % 256), 25, 10, 0⟩
def CQ_STALL (i0 : Nat) : Fld := ⟨0x218018 + 0x20 * (i0 % 256), 0, 0, 0⟩
def CQ_DB_ERR (i0 : Nat) : Fld := ⟨0x218018 + 0x20 * (i0 % 256), 1, 1, 0⟩
def CQ_DROPPED (i0 : Nat) : Fld := ⟨0x218018 + 0x20 * (i0 % 256), 2, 2, 0⟩
def CQ_WRANGE (i0 : Nat) : Fld := ⟨0x218018 + 0x20 * (i0 % 256), 3, 3, 0⟩
def PQ_BASE_LO (i0 : Nat) : Fld := ⟨0x21a000 + 0x20 * (i0 % 8), 31, 0, 0⟩
def PQ_BASE_HI (i0 : Nat) : Fld := ⟨0x21a004 + 0x20 * (i0 % 8), 31, 0, 0⟩
def PQ_SIZE_LOG2 (i0 : Nat) : Fld := ⟨0x21a008 + 0x20 * (i0 % 8), 4, 0, 4⟩
def PQ_CQ (i0 : Nat) : Fld := ⟨0x21a008 + 0x20 * (i0 % 8), 7, 5, 0⟩
def PQ_EN (i0 : Nat) : Fld := ⟨0x21a008 + 0x20 * (i0 % 8), 8, 8, 0⟩
def PQ_CTIME (i0 : Nat) : Fld := ⟨0x21a008 + 0x20 * (i0 % 8), 9, 9, 0⟩
def PQ_PQ_PI (i0 : Nat) : Fld := ⟨0x21a00c + 0x20 * (i0 % 8), 15, 0, 0⟩
def PQ_STATE (i0 : Nat) : Fld := ⟨0x21a010 + 0x20 * (i0 % 8), 1, 0, 0⟩
def PQ_PQ_CI (i0 : Nat) : Fld := ⟨0x21a010 + 0x20 * (i0 % 8), 31, 16, 0⟩
def PQ_OUT (i0 : Nat) : Fld := ⟨0x21a014 + 0x20 * (i0 % 8), 7, 0, 0⟩
def PQ_PI_ERR (i0 : Nat) : Fld := ⟨0x21a018 + 0x20 * (i0 % 8), 0, 0, 0⟩
def PQ_FETCH_ERR (i0 : Nat) : Fld := ⟨0x21a018 + 0x20 * (i0 % 8), 2, 2, 0⟩
def PQ_CQ_STALL (i0 : Nat) : Fld := ⟨0x21a018 + 0x20 * (i0 % 8), 3, 3, 0⟩
def PQ_WRANGE (i0 : Nat) : Fld := ⟨0x21a018 + 0x20 * (i0 % 8), 4, 4, 0⟩
/-! The global block, R745. -/

def GLB_BLOCK_0 : Fld := ⟨0x0, 31, 16, 0xa00⟩
def GLB_REV : Fld := ⟨0x0, 15, 0, (Rst.rev).val []⟩
def GLB_LOCK : Fld := ⟨0x4, 0, 0, 0⟩
def GLB_SNAP_AUTO : Fld := ⟨0x8, 15, 0, 0⟩
def GLB_LOCKVIOL : Fld := ⟨0xc, 0, 0, 0⟩
def GLB_TMR_CORR : Fld := ⟨0xc, 1, 1, 0⟩
def GLB_TMR_FAIL : Fld := ⟨0xc, 2, 2, 0⟩
def GLB_ACC_ERR : Fld := ⟨0xc, 3, 3, 0⟩
def GLB_SNAP_REJ : Fld := ⟨0xc, 4, 4, 0⟩
def GLB_SNAP_DONE : Fld := ⟨0xc, 5, 5, 0⟩
def GLB_SNAP : Fld := ⟨0x10, 0, 0, 0⟩
def GLB_SNAP_BUSY : Fld := ⟨0x14, 0, 0, 0⟩
def GLB_OFFSET : Fld := ⟨0x18, 19, 0, 0⟩
def GLB_BLOCK_18 : Fld := ⟨0x18, 24, 20, 0⟩
def GLB_REQ : Fld := ⟨0x18, 30, 25, 0⟩
def GLB_LAST_REG_VAL : Fld := ⟨0x1c, 31, 0, 0⟩
def GLB_LAST_REG_KIND : Fld := ⟨0x20, 1, 0, 0⟩
def GLB_SNAP_SEQ : Fld := ⟨0x28, 63, 0, 0⟩
def GLB_STEP_DIGIT : Fld := ⟨0x30, 7, 0, (Rst.stepDigit).val []⟩
def GLB_STEP_LETTER : Fld := ⟨0x30, 15, 8, (Rst.stepLetter).val []⟩
def GLB_DEV_ID_i (i0 : Nat) : Fld := ⟨0x40 + 0x4 * (i0 % 4), 31, 0, (Rst.devId).val [i0]⟩
def GLB_LOCKVIOL_CNT : Fld := ⟨0x100, 63, 0, 0⟩
def GLB_TMR_CORR_CNT : Fld := ⟨0x108, 63, 0, 0⟩
def GLB_TMR_FAIL_CNT : Fld := ⟨0x110, 63, 0, 0⟩
def GLB_ACC_ERR_CNT : Fld := ⟨0x118, 63, 0, 0⟩
/-! The event block, R760. -/

def EV_BLOCK : Fld := ⟨0x100000, 31, 16, 0xa01⟩
def EV_REV : Fld := ⟨0x100000, 15, 0, (Rst.rev).val []⟩
def EV_LOCK : Fld := ⟨0x100004, 0, 0, 0⟩
def EV_EN : Fld := ⟨0x100008, 0, 0, 1⟩
def EV_WRANGE : Fld := ⟨0x10000c, 0, 0, 0⟩
def EV_LOCKVIOL : Fld := ⟨0x10000c, 1, 1, 0⟩
def EV_TMR_CORR : Fld := ⟨0x10000c, 2, 2, 0⟩
def EV_TMR_FAIL : Fld := ⟨0x10000c, 3, 3, 0⟩
def EV_RING_LOSS : Fld := ⟨0x10000c, 4, 4, 0⟩
def EV_MSI_DROP : Fld := ⟨0x10000c, 5, 5, 0⟩
def EV_BANK_LOSS : Fld := ⟨0x10000c, 6, 6, 0⟩
def EV_DELIVERED : Fld := ⟨0x100100, 63, 0, 0⟩
def EV_RING_LOSS_CNT : Fld := ⟨0x100108, 63, 0, 0⟩
def EV_MSI_DROP_CNT : Fld := ⟨0x100110, 63, 0, 0⟩
def EV_BANK_LOSS_CNT : Fld := ⟨0x100118, 63, 0, 0⟩
def EV_PEND (i0 : Nat) : Fld := ⟨0x100200 + 0x4 * (i0 % 32), 31, 0, 0⟩
def ERING_BASE_LO (i0 : Nat) : Fld := ⟨0x100400 + 0x20 * (i0 % 32), 31, 0, 0⟩
def ERING_BASE_HI (i0 : Nat) : Fld := ⟨0x100404 + 0x20 * (i0 % 32), 31, 0, 0⟩
def ERING_SIZE_LOG2 (i0 : Nat) : Fld := ⟨0x100408 + 0x20 * (i0 % 32), 4, 0, 4⟩
def ERING_EN (i0 : Nat) : Fld := ⟨0x100408 + 0x20 * (i0 % 32), 5, 5, 0⟩
def ERING_IRQ_EN (i0 : Nat) : Fld := ⟨0x100408 + 0x20 * (i0 % 32), 6, 6, 0⟩
def ERING_VEC (i0 : Nat) : Fld := ⟨0x100408 + 0x20 * (i0 % 32), 17, 7, 0⟩
def ERING_COAL_N (i0 : Nat) : Fld := ⟨0x10040c + 0x20 * (i0 % 32), 8, 0, 1⟩
def ERING_COAL_US (i0 : Nat) : Fld := ⟨0x10040c + 0x20 * (i0 % 32), 18, 9, 0⟩
def ERING_TAIL (i0 : Nat) : Fld := ⟨0x100410 + 0x20 * (i0 % 32), 15, 0, 0⟩
def ERING_HEAD (i0 : Nat) : Fld := ⟨0x100410 + 0x20 * (i0 % 32), 31, 16, 0⟩
def ERING_PHASE (i0 : Nat) : Fld := ⟨0x100414 + 0x20 * (i0 % 32), 0, 0, 1⟩
def ERING_FULL (i0 : Nat) : Fld := ⟨0x100414 + 0x20 * (i0 % 32), 1, 1, 0⟩
def EVC_EN (i0 : Nat) : Fld := ⟨0x101000 + 0x4 * (i0 % 1024), 0, 0, 1⟩
def EVC_MSI_EN (i0 : Nat) : Fld := ⟨0x101000 + 0x4 * (i0 % 1024), 1, 1, 0⟩
def EVC_FUNC (i0 : Nat) : Fld := ⟨0x101000 + 0x4 * (i0 % 1024), 6, 2, 0⟩
def EVC_VEC (i0 : Nat) : Fld := ⟨0x101000 + 0x4 * (i0 % 1024), 17, 7, 0⟩
def EVC_RING_EN (i0 : Nat) : Fld := ⟨0x101000 + 0x4 * (i0 % 1024), 18, 18, 0⟩
def EVC_RING (i0 : Nat) : Fld := ⟨0x101000 + 0x4 * (i0 % 1024), 23, 19, 0⟩
def EVC_BANKER (i0 : Nat) : Fld := ⟨0x101000 + 0x4 * (i0 % 1024), 24, 24, 1⟩
def EVC_HOLDOFF (i0 : Nat) : Fld := ⟨0x101000 + 0x4 * (i0 % 1024), 28, 25, 0⟩
/-! The mailbox block, R795. -/

def MBX_BLOCK : Fld := ⟨0x1100000, 31, 16, 0xa13⟩
def MBX_REV : Fld := ⟨0x1100000, 15, 0, (Rst.rev).val []⟩
def MBX_LOCK : Fld := ⟨0x1100004, 0, 0, 0⟩
def MBX_EN : Fld := ⟨0x1100008, 0, 0, 1⟩
def MBX_WRANGE : Fld := ⟨0x110000c, 0, 0, 0⟩
def MBX_LOCKVIOL : Fld := ⟨0x110000c, 1, 1, 0⟩
def MBX_TMR_CORR : Fld := ⟨0x110000c, 2, 2, 0⟩
def MBX_TMR_FAIL : Fld := ⟨0x110000c, 3, 3, 0⟩
def MBX_DONE : Fld := ⟨0x110000c, 4, 4, 0⟩
def MBX_REJ : Fld := ⟨0x110000c, 5, 5, 0⟩
def MBX_AUTH_FAIL : Fld := ⟨0x110000c, 6, 6, 0⟩
def MBX_STALE : Fld := ⟨0x110000c, 7, 7, 0⟩
def MBX_CMD : Fld := ⟨0x1100010, 1, 0, 0⟩
def MBX_LEN : Fld := ⟨0x1100010, 26, 16, 0⟩
def MBX_MBX_STATE : Fld := ⟨0x1100014, 1, 0, 0⟩
def MBX_RESP_LEN : Fld := ⟨0x1100014, 26, 16, 0⟩
def MBX_MBX_REQ_CNT : Fld := ⟨0x1100100, 63, 0, 0⟩
def MBX_MBX_AUTH_CNT : Fld := ⟨0x1100108, 63, 0, 0⟩
def MBX_MBX_STALE_CNT : Fld := ⟨0x1100110, 63, 0, 0⟩
def MBX_REQ (i0 : Nat) : Fld := ⟨0x1101000 + 0x4 * (i0 % 512), 31, 0, 0⟩
def MBX_RESP (i0 : Nat) : Fld := ⟨0x1101800 + 0x4 * (i0 % 512), 31, 0, 0⟩
/-! The store and fuses block, R827. -/

def ST_BLOCK : Fld := ⟨0x1200000, 31, 16, 0xa14⟩
def ST_REV : Fld := ⟨0x1200000, 15, 0, (Rst.rev).val []⟩
def ST_LOCK : Fld := ⟨0x1200004, 0, 0, 0⟩
def ST_LEDGER_RATE : Fld := ⟨0x1200008, 12, 0, 0xfa0⟩
def ST_SCRUB_EN : Fld := ⟨0x1200008, 13, 13, 1⟩
def ST_WRANGE : Fld := ⟨0x120000c, 0, 0, 0⟩
def ST_LOCKVIOL : Fld := ⟨0x120000c, 1, 1, 0⟩
def ST_TMR_CORR : Fld := ⟨0x120000c, 2, 2, 0⟩
def ST_TMR_FAIL : Fld := ⟨0x120000c, 3, 3, 0⟩
def ST_REPLAY : Fld := ⟨0x120000c, 4, 4, 0⟩
def ST_RETIRE : Fld := ⟨0x120000c, 5, 5, 0⟩
def ST_FUSE_FAIL : Fld := ⟨0x120000c, 6, 6, 0⟩
def ST_SUPPRESS : Fld := ⟨0x120000c, 7, 7, 0⟩
def ST_UNREAD_LOSS : Fld := ⟨0x120000c, 8, 8, 0⟩
def ST_TJ_WARN : Fld := ⟨0x120000c, 9, 9, 0⟩
def ST_JSTATE : Fld := ⟨0x1200010, 1, 0, 0⟩
def ST_JQUEUE : Fld := ⟨0x1200010, 8, 2, 0⟩
def ST_ACTIVE_SLOT : Fld := ⟨0x1200010, 9, 9, 0⟩
def ST_UPD_STATE : Fld := ⟨0x1200010, 12, 10, 0⟩
def ST_RETIRED_BLOCKS : Fld := ⟨0x1200014, 12, 0, 0⟩
def ST_WORST_WRITES_K : Fld := ⟨0x1200018, 31, 0, 0⟩
def ST_LEDGER_SEQ : Fld := ⟨0x1200020, 63, 0, 0⟩
def ST_LEDGER_PSEQ : Fld := ⟨0x1200028, 63, 0, 0⟩
def ST_JCOMMITS : Fld := ⟨0x1200100, 63, 0, 0⟩
def ST_MRAM_WR_LINES : Fld := ⟨0x1200108, 63, 0, 0⟩
def ST_FUSE_BLOWS : Fld := ⟨0x1200110, 63, 0, 0⟩
def ST_LEDGER_ENTRIES : Fld := ⟨0x1200118, 63, 0, 0⟩
def ST_SUPPRESSED : Fld := ⟨0x1200120, 63, 0, 0⟩
def ST_FUSE_RD (i0 : Nat) : Fld := ⟨0x1200800 + 0x4 * (i0 % 512), 31, 0, (Rst.fuse).val [i0]⟩
/-! The power block, R855. -/

def PWR_BLOCK : Fld := ⟨0x1000000, 31, 16, 0xa12⟩
def PWR_REV : Fld := ⟨0x1000000, 15, 0, (Rst.rev).val []⟩
def PWR_LOCK : Fld := ⟨0x1000004, 0, 0, 0⟩
def PWR_VCORE_MIN_MV : Fld := ⟨0x1000008, 9, 0, 0x226⟩
def PWR_VC_PMAX_W : Fld := ⟨0x1000008, 18, 10, 0x14a⟩
def PWR_TJ_LIMIT : Fld := ⟨0x1000008, 25, 19, 0x69⟩
def PWR_AUTO_WARM : Fld := ⟨0x1000008, 26, 26, 1⟩
def PWR_WRANGE : Fld := ⟨0x100000c, 0, 0, 0⟩
def PWR_LOCKVIOL : Fld := ⟨0x100000c, 1, 1, 0⟩
def PWR_TMR_CORR : Fld := ⟨0x100000c, 2, 2, 0⟩
def PWR_TMR_FAIL : Fld := ⟨0x100000c, 3, 3, 0⟩
def PWR_VC_LIMIT : Fld := ⟨0x100000c, 4, 4, 0⟩
def PWR_PMB_ERR : Fld := ⟨0x100000c, 5, 5, 0⟩
def PWR_DOM_ERR : Fld := ⟨0x100000c, 6, 6, 0⟩
def PWR_DOM_WOFF : Fld := ⟨0x100000c, 7, 7, 0⟩
def PWR_PFAIL : Fld := ⟨0x100000c, 8, 8, 0⟩
def PWR_THERM_TRIP : Fld := ⟨0x100000c, 9, 9, 0⟩
def PWR_RAIL_TRIP : Fld := ⟨0x100000c, 10, 10, 0⟩
def PWR_WARM_LIMIT : Fld := ⟨0x100000c, 11, 11, 0⟩
def PWR_RST_CMD : Fld := ⟨0x1000010, 3, 0, 0⟩
def PWR_SU_STATE : Fld := ⟨0x1000014, 3, 0, 0⟩
def PWR_RESET_CAUSE : Fld := ⟨0x1000014, 6, 4, 0⟩
def PWR_VC_LIMITED : Fld := ⟨0x1000014, 7, 7, 0⟩
def PWR_PFAIL_LVL : Fld := ⟨0x1000014, 8, 8, 0⟩
def PWR_VCORE_MV : Fld := ⟨0x1000018, 9, 0, 0⟩
def PWR_VC_TARGET_MV : Fld := ⟨0x1000018, 25, 16, 0⟩
def PWR_VC_PWR : Fld := ⟨0x100001c, 15, 0, 0⟩
def PWR_SU_MS : Fld := ⟨0x1000020, 31, 0, 0⟩
def PWR_DOM_ON (i0 : Nat) : Fld := ⟨0x1000040 + 0x4 * (i0 % 5), 31, 0, 0⟩
def PWR_DOM_OFF_REQ (i0 : Nat) : Fld := ⟨0x1000060 + 0x4 * (i0 % 5), 31, 0, 0⟩
def PWR_DOM_HELD (i0 : Nat) : Fld := ⟨0x1000080 + 0x4 * (i0 % 5), 31, 0, 0⟩
def PWR_VC_RAISE_CNT : Fld := ⟨0x1000100, 63, 0, 0⟩
def PWR_VC_LOWER_CNT : Fld := ⟨0x1000108, 63, 0, 0⟩
def PWR_WARM_CNT : Fld := ⟨0x1000110, 63, 0, 0⟩
def PWR_PFAIL_CNT : Fld := ⟨0x1000118, 63, 0, 0⟩
def PWR_DOM_SW_CNT : Fld := ⟨0x1000120, 63, 0, 0⟩
/-! The calibration block, R390. -/

def PROF_NLEV (i0 : Nat) : Fld := ⟨0x701000 + 0x20 * (i0 % 256), 2, 0, 0⟩
def PROF_AGE_CURVE (i0 : Nat) : Fld := ⟨0x701000 + 0x20 * (i0 % 256), 11, 8, 0⟩
def PROF_AGE_ON (i0 : Nat) : Fld := ⟨0x701000 + 0x20 * (i0 % 256), 12, 12, 0⟩
def PROF_DL_FLOOR (i0 : Nat) : Fld := ⟨0x701000 + 0x20 * (i0 % 256), 31, 16, 0⟩
def PROF_LEVEL0 (i0 : Nat) : Fld := ⟨0x701004 + 0x20 * (i0 % 256), 15, 0, 0⟩
def PROF_LEVEL1 (i0 : Nat) : Fld := ⟨0x701004 + 0x20 * (i0 % 256), 31, 16, 0⟩
def PROF_LEVEL2 (i0 : Nat) : Fld := ⟨0x701008 + 0x20 * (i0 % 256), 15, 0, 0⟩
def PROF_LEVEL3 (i0 : Nat) : Fld := ⟨0x701008 + 0x20 * (i0 % 256), 31, 16, 0⟩
def PROF_AGE_MAX (i0 : Nat) : Fld := ⟨0x70100c + 0x20 * (i0 % 256), 15, 0, 0⟩
def PROF_AGE_STEP (i0 : Nat) : Fld := ⟨0x70100c + 0x20 * (i0 % 256), 31, 16, 0⟩

end Sys2Proof.Machine.R
end

