-- ==== Sys2Proof/Machine/Ops.lean ====
section
/-! DEFINITION. The named operations that every command is built from: register fields, time, events,
the ledger, completions, channels, and the device-level fault. -/

namespace Sys2Proof.Machine

/-- The three outcomes of a command. -/
abbrev Out := Host.Outcome State Fault Refusal

/-- The state with its block changed by f; HBM and the queue stay. -/
def State.upd (s : State) (f : Dev → Dev) : State := { s with dev := f s.dev }

/-- A command that acts on a unit the part has: f when it has, a refusal by name when it has not. -/
def onUnit (has : Bool) (s : State) (f : Dev → Dev) : Out :=
  if has then .next (s.upd f) else .refused .noSuchUnit

/-! ### Register fields -/

/-- Where a field is kept: a register's address and the field's low bit. -/
def Fld.key (f : Fld) : Nat := f.addr * 64 + f.lo

/-- The number of values a field can hold. -/
def Fld.size (f : Fld) : Nat := 2 ^ (f.hi - f.lo + 1)

/-- The value of a register field, as wide as the field. -/
def Dev.get (d : Dev) (f : Fld) : Nat := Tab.getD d.regs f.key f.rst % f.size

/-- A register field set to a value, cut to the field's width. -/
def Dev.put (d : Dev) (f : Fld) (v : Nat) : Dev := { d with regs := Tab.set d.regs f.key (v % f.size) }

/-- A one-bit field set to 1: a sticky status bit (R721). -/
def Dev.flag (d : Dev) (f : Fld) : Dev := d.put f 1

/-- A counter advanced by n, modulo its width (R739). -/
def Dev.bump (d : Dev) (f : Fld) (n : Nat) : Dev := d.put f (d.get f + n)

/-- A one-bit field as a truth value. -/
def Dev.on (d : Dev) (f : Fld) : Bool := d.get f == 1

/-- A field that stops at its largest value. -/
def Dev.bumpSat (d : Dev) (f : Fld) (n : Nat) : Dev := d.put f (min (d.get f + n) (f.size - 1))

/-- Bit i of an array of 32-bit map registers. -/
def Dev.mapBit (d : Dev) (f : Nat → Fld) (i : Nat) : Bool := tbit (d.get (f (i / 32))) (i % 32)

/-- Bit i of an array of 32-bit map registers, set to b. -/
def Dev.putMap (d : Dev) (f : Nat → Fld) (i : Nat) (b : Bool) : Dev :=
  d.put (f (i / 32)) (putBit (d.get (f (i / 32))) (i % 32) b)

/-- The registers in [lo, hi) put back to their reset values. -/
def Dev.resetRegs (d : Dev) (lo hi : Nat) : Dev :=
  { d with regs := Tab.drop d.regs (fun k => lo * 64 ≤ k && k < hi * 64) }

/-- The registers of a block, by BAR0 offset shifted right by 20, put back to their reset values. -/
def Dev.resetBlock (d : Dev) (b : Nat) : Dev := d.resetRegs (b * 0x100000) ((b + 1) * 0x100000)

/-- Something sent out. -/
def Dev.send (d : Dev) (m : OutMsg) : Dev := { d with out := m :: d.out }

/-- An open value, w bits wide, and the state that has used it. The value is Config's: nothing here knows it. -/
def Dev.fresh (d : Dev) (kind : Nat) : Nat × Dev :=
  ((Config.freeValue kind d.free).toNat, { d with free := d.free + 1 })

/-- The events changed. -/
def Dev.mapEv (d : Dev) (f : EvSt → EvSt) : Dev := { d with ev := f d.ev }

/-- The banker's state changed. -/
def Dev.mapBank (d : Dev) (f : BankSt → BankSt) : Dev := { d with bank := f d.bank }

/-! ### Time: units of 10 ps -/

/-- Units in one nanosecond. -/
def perNs : Nat := 100
/-- Units in one microsecond. -/
def perUs : Nat := 100000
/-- Units in one millisecond. -/
def perMs : Nat := 100000000
/-- Units in one second. -/
def perSec : Nat := 100000000000
/-- Units in one tick of R460, one cycle of synthesizer 0 (R640). -/
def perTick : Nat := 128

/-- Device time in nanoseconds since the epoch (R639). -/
def Dev.devNs (d : Dev) : Nat := d.time.dev / perNs

/-- The seconds of TIME80. -/
def Dev.sec (d : Dev) : Nat := d.devNs / 1000000000

/-- The nanosecond field of TIME80: bits [31:0] of device time. -/
def Dev.nsec (d : Dev) : Nat := d.devNs % 1000000000

/-- TIME80 with its low part first, as the ledger and registers carry it (R806). -/
def Dev.time80Le (d : Dev) : List Byte := leBytes 4 d.nsec ++ leBytes 6 d.sec

/-- TIME80 as Shovin carries it, big-endian (R784). -/
def Dev.time80Be (d : Dev) : List Byte := beBytes 6 d.sec ++ beBytes 4 d.nsec

/-- Time passes: elapsed time and device time advance together. -/
def Dev.advance (d : Dev) (units : Nat) : Dev :=
  { d with time := { d.time with now := d.time.now + units, dev := d.time.dev + units } }

/-- Time reaches the device time t at the latest now. -/
def Dev.reach (d : Dev) (t : Nat) : Dev := d.advance (t - d.time.dev)

/-! ### The event controller (R746 to R758) -/

/-- The fatal events of R856. -/
def fatalEvent (e : Nat) : Bool := e ∈ [0, 1, 3, 4, 5, 6, 7, 9]

/-- Function f is enabled: the physical function, or a virtual function under VF Enable (R676). -/
def Dev.fnEnabled (d : Dev) (f : Nat) : Bool := f == 0 || (d.ev.vfEnable && decide (f ≤ d.get R.QB_NUM_VFS))

/-- An MSI-X vector signalled (R751). -/
def Dev.msi (d : Dev) (fn vec : Nat) : Dev :=
  if !d.fnEnabled fn || !(fn ∈ d.ev.msixEn) || !(fn ∈ d.ev.busMaster) then
    (d.bump R.EV_MSI_DROP_CNT 1).flag R.EV_MSI_DROP
  else if fn ∈ d.ev.msixMask || !((fn * 2048 + vec) ∈ d.ev.unmasked) then
    d.mapEv (fun v => { v with pba := if (fn * 2048 + vec) ∈ v.pba then v.pba else (fn * 2048 + vec) :: v.pba })
  else d.send (.msix fn vec)

/-- The 16 bytes of an event record (R757). -/
def EvRec.bytes (r : EvRec) (phase loss : Nat) : List Byte :=
  leBytes 2 r.event ++ leBytes 1 (phase + 2 * loss + (if r.fatal then 4 else 0)) ++ leBytes 1 (min r.count 255) ++
    leBytes 4 r.turn ++ leBytes 4 r.detail ++ leBytes 4 r.time

/-- The 64-bit base of an event ring. -/
def Dev.eringBase (d : Dev) (r : Nat) : Nat := d.get (R.ERING_BASE_LO r) + d.get (R.ERING_BASE_HI r) * 2 ^ 32

/-- One record written since the last signal; a signal when COAL_N are (R704, R756). -/
def Dev.eringCount (d : Dev) (r : Nat) : Dev :=
  let n := Tab.getD d.ev.since r 0 + 1
  if d.on (R.ERING_IRQ_EN r) && decide (d.get (R.ERING_COAL_N r) ≤ n) then
    (d.mapEv (fun v => { v with since := Tab.set v.since r 0 })).msi 0 (d.get (R.ERING_VEC r))
  else d.mapEv (fun v => { v with since := Tab.set v.since r n })

/-- A record that a ring loses (R753, R754). -/
def Dev.eringLose (d : Dev) (r : Nat) : Dev :=
  ((d.bump R.EV_RING_LOSS_CNT 1).flag R.EV_RING_LOSS).mapEv (fun v => { v with loss := if r ∈ v.loss then v.loss else r :: v.loss })

/-- TAIL moves on, and PHASE turns over with it (R753). -/
def Dev.eringStep (d : Dev) (r tail phase : Nat) : Dev :=
  let d := d.put (R.ERING_TAIL r) tail
  if tail = 0 then d.put (R.ERING_PHASE r) (1 - phase) else d

/-- A record for a ring: written, or discarded where the ring is disabled or full (R753, R754). -/
def Dev.eringWrite (d : Dev) (r : Nat) (rec : EvRec) : Dev :=
  let next := (d.get (R.ERING_TAIL r) + 1) % 2 ^ d.get (R.ERING_SIZE_LOG2 r)
  if !d.on (R.ERING_EN r) then d.eringLose r
  else if next = d.get (R.ERING_HEAD r) then (d.flag (R.ERING_FULL r)).eringLose r
  else
    let phase := d.get (R.ERING_PHASE r)
    let bytes := rec.bytes phase (if r ∈ d.ev.loss then 1 else 0)
    (((d.send (.hostWrite 0 (d.eringBase r + 16 * d.get (R.ERING_TAIL r)) bytes)).mapEv
      (fun v => { v with loss := v.loss.filter (· ≠ r) })).eringStep r next phase).eringCount r

/-- A record for the banker: taken at once while it runs, queued while it restarts (R752, R799). -/
def Dev.bankRecord (d : Dev) (rec : EvRec) : Dev :=
  if !d.bank.restarting then d
  else if !rec.fatal && decide (992 ≤ (d.ev.bank.filter (fun r => !r.fatal)).length) then
    (d.bump R.EV_BANK_LOSS_CNT 1).flag R.EV_BANK_LOSS
  else d.mapEv (fun v => { v with bank := v.bank ++ [rec] })

/-- One delivery to the targets that `EV_CFG` enables; the banker is left out where it has had the raise
already (R746, R748). -/
def Dev.deliver (d : Dev) (rec : EvRec) (banker : Bool) : Dev :=
  let e := rec.event
  let d := d.bump R.EV_DELIVERED 1
  let d := if d.on (R.EVC_MSI_EN e) then d.msi (d.get (R.EVC_FUNC e)) (d.get (R.EVC_VEC e)) else d
  let d := if d.on (R.EVC_RING_EN e) then d.eringWrite (d.get (R.EVC_RING e)) rec else d
  if banker && d.on (R.EVC_BANKER e) then d.bankRecord rec else d

/-- Deliveries of event e are enabled (R746). -/
def Dev.evEnabled (d : Dev) (e : Nat) : Bool := d.on R.EV_EN && d.on (R.EVC_EN e)

/-- Events whose record carries the DETAIL of the first raise alone (R758). -/
def firstDetail (e : Nat) : Bool := e == 1 || (decide (992 ≤ e) && decide (e ≤ 1010)) || e == 1012 || e == 1013

/-- One more raise collected under a holdoff (R749, R758). -/
def Hold.more (h : Hold) (r : EvRec) : Hold :=
  if h.count = 0 then ⟨1, r.turn, r.detail, r.time⟩
  else ⟨h.count + 1, h.turn, if firstDetail r.event then h.detail else h.detail ||| r.detail, h.time⟩

/-- A delivery, and the holdoff that it opens (R749). -/
def Dev.deliverHold (d : Dev) (r : EvRec) : Dev :=
  let d := d.deliver r (!fatalEvent r.event)
  if d.get (R.EVC_HOLDOFF r.event) = 0 then d
  else d.mapEv (fun v => { v with holds := Tab.set v.holds r.event ⟨0, 0, 0, 0⟩ })

/-- A raise delivered or collected, where deliveries of its event are enabled (R746, R749). -/
def Dev.raiseOut (d : Dev) (r : EvRec) : Dev :=
  if !d.evEnabled r.event then d
  else match Tab.get? d.ev.holds r.event with
    | some h => d.mapEv (fun v => { v with holds := Tab.set v.holds r.event (h.more r) })
    | none => d.deliverHold r

/-- The record of a raise made now. -/
def Dev.recOf (d : Dev) (e detail : Nat) : EvRec := ⟨e, 1, d.time.turn % 2 ^ 32, detail, d.nsec, fatalEvent e⟩

/-- Event e is raised once with its DETAIL: pending bit, fatal copy to the banker, delivery or holdoff. -/
def Dev.raiseCore (d : Dev) (e detail : Nat) : Dev :=
  let p := d.putMap R.EV_PEND e true
  (if fatalEvent e then p.bankRecord (d.recOf e detail) else p).raiseOut (d.recOf e detail)

/-! ### The ledger (R805 to R809) -/

/-- The ledger key LK (R808). -/
def ledgerKey : List Byte :=
  hmacSha256 ((List.range 32).map Config.factoryKey)
    [0x43, 0x52, 0x48, 0x2D, 0x4C, 0x45, 0x44, 0x47, 0x45, 0x52, 0x2D, 0x4B, 0x45, 0x59]

/-- LMAC of an entry after the entry before it (R808). -/
def lmacOf (body before : List Byte) : List Byte := (hmacSha256 ledgerKey (body ++ before)).take 16

/-- Entries that each ring holds (R805). -/
def ledgerCap (prot : Bool) : Nat := if prot then 131072 else 917504

/-- A ring of the ledger, newest first. -/
def Dev.ledgerRing (d : Dev) (prot : Bool) : List Ledger := if prot then d.bank.protect else d.bank.general

/-- A U64 object as committed, 0 where none is (R764). -/
def Dev.objNat (d : Dev) (index sub dflt : Nat) : Nat :=
  match Tab.get? d.bank.objs (index * 256 + sub) with
  | some v => beOf v
  | none => dflt

/-- Bytes 8 to 21 of an entry written now. -/
def Dev.ledgerStamp (d : Dev) : List Byte := d.time80Le ++ leBytes 4 (d.time.turn % 2 ^ 32)

/-- The register that counts the entries of a ring. -/
def ledgerSeqF (prot : Bool) : Fld := if prot then R.ST_LEDGER_PSEQ else R.ST_LEDGER_SEQ

/-- A ring of the ledger with an entry more; the oldest is overwritten (R805). -/
def BankSt.putLine (b : BankSt) (prot : Bool) (l : Ledger) : BankSt :=
  if prot then { b with protect := (l :: b.protect).take (ledgerCap true) }
  else { b with general := (l :: b.general).take (ledgerCap false) }

/-- Event e with DETAIL 0, at most once per turn, without a ledger entry. -/
def Dev.raiseCoreOnce (d : Dev) (e : Nat) : Dev :=
  if e ∈ d.ev.once then d else (d.mapEv (fun v => { v with once := e :: v.once })).raiseCore e 0

/-- The overwrite of an entry that no reader has marked as read (R805). -/
def Dev.unreadLoss (d : Dev) (prot : Bool) (seq : Nat) : Dev :=
  if ledgerCap prot < seq ∧ d.objNat 0x8000 (if prot then 6 else 5) 0 < seq - ledgerCap prot then
    (d.flag R.ST_UNREAD_LOSS).raiseCoreOnce 971
  else d

/-- One 64-byte line put in a ring, with its overwrite and its counters (R805, R806). -/
def Dev.ledgerLine (d : Dev) (prot : Bool) (tail : List Byte) : Dev :=
  let seq := d.get (ledgerSeqF prot) + 1
  let body := leBytes 8 seq ++ d.ledgerStamp ++ tail
  let before := match d.ledgerRing prot with | [] => List.replicate 16 0 | l :: _ => l.lmac
  let entry : Ledger := ⟨seq, body, lmacOf body before⟩
  ((((d.mapBank (fun b => b.putLine prot entry)).put (ledgerSeqF prot) seq).bump R.ST_LEDGER_ENTRIES 1).bump
    R.ST_MRAM_WR_LINES 1).unreadLoss prot seq

/-- The continuation entries of a record, 25 DATA bytes each (R806). -/
def Dev.ledgerMore (d : Dev) (prot : Bool) : Nat → List Byte → Dev
  | 0, _ => d
  | n + 1, data =>
    let b := slice data 0 25
    let flags := n + 4 + (if prot then 8 else 0)
    (d.ledgerLine prot (b.take 3 ++ leBytes 1 flags ++ b.drop 3)).ledgerMore prot n (data.drop 25)

/-- A record written with its continuations. -/
def Dev.ledgerWrite (d : Dev) (r : LedReq) : Dev :=
  let more := min 3 (ceilDiv (r.data.length - 20) 25)
  let flags := more + (if r.prot then 8 else 0)
  let first := leBytes 2 r.kind ++ leBytes 1 r.source ++ leBytes 1 flags ++ leBytes 2 (min r.count 65535) ++ slice r.data 0 20
  (d.ledgerLine r.prot first).ledgerMore r.prot more (r.data.drop 20)

/-- The second of device time that R809 counts in has ended: its drops are recorded, a new count starts. -/
def Dev.ledgerSecond (d : Dev) : Dev :=
  let n := d.bank.droppedSecond
  let d := d.mapBank (fun b => { b with second := d.sec, inSecond := 0, droppedSecond := 0 })
  if n = 0 then d
  else
    let d := d.ledgerWrite ⟨false, 0x0800, 0x1F, 1, leBytes 4 n, true⟩
    d.mapBank (fun b => { b with inSecond := 1 })

/-- A record for the ledger (R805 to R809): it waits while the banker restarts, and it is dropped and
counted where the rate of general entries is used up. After R845 nothing is written. -/
def Dev.ledger (d : Dev) (r : LedReq) : Dev :=
  if d.bank.writeProtect then d
  else if d.bank.restarting then d.mapBank (fun b => { b with ledWait := b.ledWait ++ [r] })
  else
    let d := if d.bank.second = d.sec then d else d.ledgerSecond
    if r.prot || r.exempt then d.ledgerWrite r
    else if d.bank.inSecond < d.get R.ST_LEDGER_RATE then
      (d.mapBank (fun b => { b with inSecond := b.inSecond + 1 })).ledgerWrite r
    else
      let d := d.mapBank (fun b => { b with droppedSecond := b.droppedSecond + 1, dropped := b.dropped + 1 })
      ((d.bump R.ST_SUPPRESSED 1).flag R.ST_SUPPRESS).raiseCoreOnce 972

/-- The record of an event as class 0x02 carries it (R807). -/
def Dev.ledgerEvent (d : Dev) (e detail source : Nat) : Dev :=
  d.ledger ⟨false, 0x0200, source, 1, (d.recOf e detail).bytes 0 0 ++ List.replicate 4 0, fatalEvent e⟩

/-- Event e is raised with its DETAIL; a fatal event is recorded in the ledger (R746, R748). -/
def Dev.raiseD (d : Dev) (e detail : Nat) : Dev :=
  let d := d.raiseCore e detail
  if fatalEvent e then d.ledgerEvent e detail 0x1F else d

/-- Event e is raised with DETAIL 0. -/
def Dev.raise (d : Dev) (e : Nat) : Dev := d.raiseD e 0

/-- Event e is raised at most once per turn. -/
def Dev.raiseOnceD (d : Dev) (e detail : Nat) : Dev :=
  if e ∈ d.ev.once then d
  else (d.mapEv (fun v => { v with once := e :: v.once })).raiseD e detail

/-- Event e is raised at most once per turn, DETAIL 0. -/
def Dev.raiseOnce (d : Dev) (e : Nat) : Dev := d.raiseOnceD e 0

/-- Event e with a ledger entry of class 0x02 from block b. -/
def Dev.raiseLedger (d : Dev) (e detail b : Nat) : Dev :=
  if fatalEvent e then d.raiseD e detail else (d.raiseD e detail).ledgerEvent e detail b

/-- A status bit set and the event it raises; DETAIL carries the bit where the event comes from a named
status register (R758). -/
def Dev.flagRaise (d : Dev) (f : Fld) (e : Nat) : Dev := (d.flag f).raiseD e (2 ^ f.lo)

/-- A status bit set and its event, at most once per turn. -/
def Dev.flagRaiseOnce (d : Dev) (f : Fld) (e : Nat) : Dev := (d.flag f).raiseOnceD e (2 ^ f.lo)

/-! ### Status codes (R22) -/

def stOk : Nat := 0
def stMalformed : Nat := 1
def stBadHandle : Nat := 2
def stRefused : Nat := 3
def stDemoted : Nat := 4
def stAborted : Nat := 5
def stFlushed : Nat := 6
def stRange : Nat := 7
def stTimeout : Nat := 8
def stLocked : Nat := 9
def stLimit : Nat := 10
def stBusy : Nat := 11
def stCycle : Nat := 12
def stNoCapacity : Nat := 13

/-! ### Queues and completion rings (R681 to R714) -/

/-- The function that owns a queue (R681, R685). -/
def queueFn (q : Nat) : Nat := if q < 1024 then q / 32 else 0
/-- Queue q is privileged. -/
def isPq (q : Nat) : Bool := decide (1024 ≤ q)
def qEN (q : Nat) : Fld := if q < 1024 then R.SQ_EN q else R.PQ_EN ((q - 1024) % 8)
def qCTIME (q : Nat) : Fld := if q < 1024 then R.SQ_CTIME q else R.PQ_CTIME ((q - 1024) % 8)
def qCQ (q : Nat) : Fld := if q < 1024 then R.SQ_CQ q else R.PQ_CQ ((q - 1024) % 8)
def qSIZE (q : Nat) : Fld := if q < 1024 then R.SQ_SIZE_LOG2 q else R.PQ_SIZE_LOG2 ((q - 1024) % 8)
def qLO (q : Nat) : Fld := if q < 1024 then R.SQ_BASE_LO q else R.PQ_BASE_LO ((q - 1024) % 8)
def qHI (q : Nat) : Fld := if q < 1024 then R.SQ_BASE_HI q else R.PQ_BASE_HI ((q - 1024) % 8)
def qSTATE (q : Nat) : Fld := if q < 1024 then R.SQ_STATE q else R.PQ_STATE ((q - 1024) % 8)
def qCI (q : Nat) : Fld := if q < 1024 then R.SQ_CI q else R.PQ_PQ_CI ((q - 1024) % 8)
def qPI (q : Nat) : Fld := if q < 1024 then R.SQ_DB q else R.PQ_PQ_PI ((q - 1024) % 8)
def qOUT (q : Nat) : Fld := if q < 1024 then R.SQ_OUT q else R.PQ_OUT ((q - 1024) % 8)
def qFETCHERR (q : Nat) : Fld := if q < 1024 then R.SQ_FETCH_ERR q else R.PQ_FETCH_ERR ((q - 1024) % 8)
def qCQSTALL (q : Nat) : Fld := if q < 1024 then R.SQ_CQ_STALL q else R.PQ_CQ_STALL ((q - 1024) % 8)
def qWRANGE (q : Nat) : Fld := if q < 1024 then R.SQ_WRANGE q else R.PQ_WRANGE ((q - 1024) % 8)

/-- The completion ring that a queue names (R701). -/
def Dev.queueRing (d : Dev) (q : Nat) : Nat := 8 * queueFn q + d.get (qCQ q)

/-- A status bit of a queue, marked in SQ_ERR_MAP for an ordinary queue (R714). -/
def Dev.queueFlag (d : Dev) (q : Nat) (f : Fld) : Dev :=
  let d := d.flag f
  if q < 1024 then d.putMap R.QB_SQ_ERR_MAP q true else d

/-- Free slots of a completion ring (R702). -/
def Dev.ringFree (d : Dev) (c : Nat) : Nat :=
  let size := 2 ^ d.get (R.CQ_SIZE_LOG2 c)
  size - 1 - (d.get (R.CQ_TAIL c) + size - d.get (R.CQ_HEAD c)) % size

/-- The 16 bytes of a completion entry (R697). -/
def Compl.bytes (e : Compl) (phase : Nat) : List Byte :=
  leBytes 2 e.tag ++ leBytes 1 e.status ++
    leBytes 1 (phase + (if e.isTime then 2 else 0) + (if e.async then 4 else 0)) ++
    leBytes 4 e.handle ++ leBytes 4 e.turn ++ leBytes 2 e.queue ++ leBytes 1 e.reason ++ leBytes 1 0

/-- The function that owns a completion ring. -/
def ringFn (c : Nat) : Nat := c / 8

/-- One entry written at TAIL (R699), counted toward the ring's interrupt (R704). -/
def Dev.ringWrite (d : Dev) (c : Nat) (e : Compl) : Dev :=
  let size := 2 ^ d.get (R.CQ_SIZE_LOG2 c)
  let tail := d.get (R.CQ_TAIL c)
  let phase := d.get (R.CQ_PHASE c)
  let base := d.get (R.CQ_BASE_LO c) + d.get (R.CQ_BASE_HI c) * 2 ^ 32
  let d := d.send (.hostWrite (ringFn c) (base + 16 * tail) (e.bytes phase))
  let d := d.put (R.CQ_TAIL c) ((tail + 1) % size)
  let d := if (tail + 1) % size = 0 then d.put (R.CQ_PHASE c) (1 - phase) else d
  let n := Tab.getD d.q.since c 0 + 1
  if d.on (R.CQ_IRQ_EN c) && decide (d.get (R.CQ_COAL_N c) ≤ n) then
    ({ d with q := { d.q with since := Tab.set d.q.since c 0 } }).msi (ringFn c) (d.get (R.CQ_VEC c))
  else { d with q := { d.q with since := Tab.set d.q.since c n } }

/-- Completions discarded because their ring is disabled or its hold is full (R703, R711). -/
def Dev.ringDrop (d : Dev) (c : Nat) : Dev := d.flag (R.CQ_DROPPED c)

/-- DEMOTED entries held by a ring, written while slots are free (R703). -/
def Dev.ringFlush (d : Dev) (c : Nat) : Nat → Dev
  | 0 => d
  | n + 1 =>
    match Tab.getD d.q.held c [] with
    | [] => d
    | e :: t =>
      if d.ringFree c = 0 then d
      else
        let d := { d with q := { d.q with held := Tab.set d.q.held c t } }
        ((d.put (R.CQ_HELD c) t.length).ringWrite c e).ringFlush c n

/-- An entry that no started entry owes: written, held while its ring has no free slot, or discarded
(R703, R711). -/
def Dev.postAsync (d : Dev) (c : Nat) (e : Compl) : Dev :=
  let held := Tab.getD d.q.held c []
  if !d.on (R.CQ_EN c) then d.ringDrop c
  else if held = [] && decide (0 < d.ringFree c) then d.ringWrite c e
  else if 256 ≤ held.length then d.ringDrop c
  else
    let d := { d with q := { d.q with held := Tab.set d.q.held c (held ++ [e]) } }
    (d.put (R.CQ_HELD c) (held.length + 1)).bump R.QB_HELD_CNT 1

/-- A completion owed by a started entry, written to its ring (R697, R698). -/
def Dev.postOwed (d : Dev) (c : Nat) (e : Compl) : Dev :=
  if !d.on (R.CQ_EN c) then d.ringDrop c else d.ringWrite c e

/-- What R22 counts at a completion. -/
def Dev.countStatus (d : Dev) (status : Nat) : Dev :=
  if status = stMalformed then d.bump R.QB_MALFORMED_CNT 1
  else if status = stAborted then d.bump R.QB_ABORT_CNT 1
  else if status = stFlushed then d.bump R.QB_FLUSH_CNT 1
  else d

/-- A queue whose EN is clear reaches OFF when nothing is outstanding (R713). -/
def Dev.queueSettle (d : Dev) (q : Nat) : Dev :=
  if !d.on (qEN q) && d.get (qOUT q) == 0 then d.put (qSTATE q) 0 else d

/-- A started entry completes: the entry in its ring, OUT and the ring's reservation (R698, R702). `applied`
is the turn of R53 where the entry completes because its change is applied. -/
def Dev.complete (d : Dev) (q tag handle status reason : Nat) (applied : Option Nat) : Dev :=
  let c := d.queueRing q
  let e : Compl := match applied with
    | some t => ⟨tag, status, false, false, handle, t % 2 ^ 32, q, reason⟩
    | none =>
      if d.on (qCTIME q) then ⟨tag, status, true, false, handle, d.nsec, q, reason⟩
      else ⟨tag, status, false, false, handle, d.time.turn % 2 ^ 32, q, reason⟩
  let d := d.countStatus status
  let d := d.put (R.CQ_RESV c) (d.get (R.CQ_RESV c) - 1)
  let d := d.postOwed c e
  (d.put (qOUT q) (d.get (qOUT q) - 1)).queueSettle q

/-- A started entry goes on and its completion stays owed. -/
def Dev.owe (d : Dev) (o : Owed) : Dev := { d with q := { d.q with owed := d.q.owed ++ [o] } }

/-- Every owed entry that p picks completes with a status, oldest first. -/
def Dev.settle (d : Dev) (p : Owed → Bool) (status : Nat) (applied : Option Nat) : Dev :=
  let (now, later) := d.q.owed.partition p
  let d := { d with q := { d.q with owed := later } }
  now.foldl (fun d o => d.complete o.queue o.tag o.handle status 0 applied) d

/-! ### Channels (R17 to R21, R102 to R111) -/

def clsLayer : Nat := 0
def clsIngest : Nat := 1
def clsClip : Nat := 2
def clsBlit : Nat := 3
def clsSense : Nat := 4
def clsSurface : Nat := 5
def clsCheck : Nat := 6
def clsTable : Nat := 7

/-- Index limit of a class (R102); 0 for a reserved class. -/
def indexLimit : Nat → Nat
  | 0 => 64 | 1 => 512 | 2 => 128 | 3 => 4096 | 4 => 256 | 5 => 262144 | 6 => 1024 | 7 => 8 | _ => 0

/-- Length of the record of a class as the channel mirror gives it (R774). -/
def recordLen : Nat → Nat
  | 0 => 128 | 1 => 64 | 2 => 32 | 3 => 96 | 4 => 64 | 5 => 32 | 6 => 32 | _ => 0

/-- The key of a channel. -/
def chanKey (cls idx : Nat) : Nat := cls * 2 ^ 20 + idx

/-- A handle (R17). -/
def mkHandle (gen cls idx : Nat) : Nat := gen * 2 ^ 24 + cls * 2 ^ 20 + idx
def handleGen (h : Nat) : Nat := bits h 31 24
def handleCls (h : Nat) : Nat := bits h 23 20
def handleIdx (h : Nat) : Nat := bits h 19 0

/-- The channel at an index, LIVE or RETIRING. -/
def Dev.chan? (d : Dev) (cls idx : Nat) : Option Chan := Tab.get? d.ch.chans (chanKey cls idx)

/-- The LIVE channel at an index. -/
def Dev.live? (d : Dev) (cls idx : Nat) : Option Chan :=
  (d.chan? cls idx).bind (fun c => if c.retiring then none else some c)

/-- The LIVE channel that a handle names, with its class: the checks of R21 but for the required class. -/
def Dev.handle? (d : Dev) (h : Nat) : Option Chan :=
  if handleGen h = 0 ∨ indexLimit (handleCls h) ≤ handleIdx h then none
  else (d.live? (handleCls h) (handleIdx h)).bind (fun c => if c.gen = handleGen h then some c else none)

/-- The LIVE channel of a class that a handle names (R21). -/
def Dev.handleOf? (d : Dev) (cls h : Nat) : Option Chan :=
  if handleCls h = cls then d.handle? h else none

/-- Function f may name the channel (R103). -/
def Chan.mayName (c : Chan) (f : Nat) : Bool := f == 0 || f == c.owner

/-- A channel put at its index. -/
def Dev.putChan (d : Dev) (cls idx : Nat) (c : Chan) : Dev :=
  { d with ch := { d.ch with chans := Tab.set d.ch.chans (chanKey cls idx) c } }

/-- A channel changed at its index. -/
def Dev.modChan (d : Dev) (cls idx : Nat) (f : Chan → Chan) : Dev :=
  { d with ch := { d.ch with chans := Tab.adjust d.ch.chans (chanKey cls idx) f } }

/-- The first index from k, among n, that p holds of. -/
def firstIdx (p : Nat → Bool) : Nat → Nat → Option Nat
  | 0, _ => none
  | n + 1, k => if p k then some k else firstIdx p n (k + 1)

/-- The lowest free index of a class (R104). -/
def Dev.freeIndex (d : Dev) (cls : Nat) : Option Nat :=
  firstIdx (fun i => (d.chan? cls i).isNone) (indexLimit cls) 0

/-- The generation after g (R20). -/
def nextGen (g : Nat) : Nat := if g = 255 then 1 else g + 1

/-- The generation that the next creation on an index issues (R104). -/
def Dev.issueGen (d : Dev) (cls idx : Nat) : Nat :=
  match Tab.get? d.ch.gens (chanKey cls idx) with
  | none => 1
  | some g => nextGen g

/-- The generation counter of an index as it stands (R105). -/
def Dev.curGen (d : Dev) (cls idx : Nat) : Nat := Tab.getD d.ch.gens (chanKey cls idx) 1

/-- A channel created at an index: its generation and CSEQ (R104, R106). The handle is answered beside. -/
def Dev.create (d : Dev) (cls idx : Nat) (c : Chan) : Nat × Dev :=
  let g := d.issueGen cls idx
  let c := { c with gen := g, cseq := d.ch.nextCseq }
  let d := { d with ch := { d.ch with
    gens := Tab.set d.ch.gens (chanKey cls idx) g, nextCseq := d.ch.nextCseq + 1 } }
  (mkHandle g cls idx, d.putChan cls idx c)

/-- Indices and channels of a class, in rising order of index. -/
def Dev.chansOf (d : Dev) (cls : Nat) : List (Nat × Chan) :=
  (d.ch.chans.filter (fun p => p.1 / 2 ^ 20 = cls)).map (fun p => (p.1 % 2 ^ 20, p.2))

/-- LIVE channels of a class. -/
def Dev.liveOf (d : Dev) (cls : Nat) : List (Nat × Chan) := (d.chansOf cls).filter (fun p => !p.2.retiring)

/-- The handle of the channel at an index. -/
def Chan.handle (c : Chan) (cls idx : Nat) : Nat := mkHandle c.gen cls idx

/-! ### Start-up state and the device-level fault (R840, R848) -/

def suRun : Nat := 7
def suFaulted : Nat := 8
def suPfail : Nat := 9
def suRecovery : Nat := 10

/-- The device runs turns. -/
def Dev.running (d : Dev) : Bool := d.get R.PWR_SU_STATE == suRun

/-- FAULT_N is driven low (R867). -/
def Dev.faultN (d : Dev) : Bool :=
  let s := d.get R.PWR_SU_STATE
  s == suFaulted || s == suPfail || s == suRecovery

/-- Keys of the frame surfaces of ingest channels and of the lookahead surfaces of clip channels (R111): channel
i has eight, and two sets of 64. -/
def ingestBase : Nat := 2 ^ 20
def clipBase : Nat := 2 ^ 21
/-- Keys of frames that come from other devices. -/
def remoteBase : Nat := 2 ^ 22

/-- The channel, by class and index, whose surfaces begin at a key. -/
def fillOwner (key : Nat) : Nat × Nat :=
  if key < ingestBase then (clsSurface, key)
  else if key < clipBase then (clsIngest, (key - ingestBase) / 8)
  else (clsClip, (key - clipBase) / 128)

/-- A key belongs to the surfaces of a channel. -/
def fillKey (cls idx key : Nat) : Bool :=
  if cls = clsSurface then key == idx
  else if cls = clsIngest then decide (ingestBase + 8 * idx ≤ key ∧ key < ingestBase + 8 * idx + 8)
  else decide (clipBase + 128 * idx ≤ key ∧ key < clipBase + 128 * idx + 128)

/-- A create that never completed leaves no channel and no surface (R707). -/
def Dev.undoCreate (d : Dev) (cls idx : Nat) : Dev :=
  { d with
    ch := { d.ch with chans := Tab.erase d.ch.chans (chanKey cls idx) },
    mem := { d.mem with surfs := Tab.drop d.mem.surfs (fun k => fillKey cls idx k) } }

/-- A change that a flush ends leaves no change behind (R707). -/
def Dev.undoChange (d : Dev) (o : Owed) : Dev :=
  match o.kind with
  | .change cls idx none => { d with ch := { d.ch with chans := Tab.erase d.ch.chans (chanKey cls idx) } }
  | .change cls idx (some c) =>
    match d.chan? cls idx with
    | some now => if now.gen = c.gen then d.putChan cls idx c else d
    | none => d.putChan cls idx c
  | .zeroFill key => d.undoCreate (fillOwner key).1 (fillOwner key).2
  | .admission e =>
    if byteAt e 0 % 128 = 0x15 ∧ byteAt e 8 = 1 then d.put (R.CQ_RESV (d.queueRing o.queue)) (d.get (R.CQ_RESV (d.queueRing o.queue)) - 1) else d
  | .table idx => { d with ch := { d.ch with chans := Tab.erase d.ch.chans (chanKey clsLayer idx) } }
  | _ => d

/-- The completion of a blit command: an entry of the queue that created the channel (R584). A ONESHOT
channel's entry was reserved with its create. -/
def Dev.blitPost (d : Dev) (i : Nat) (cmd : List Byte) (status : Nat) : Dev :=
  match Tab.get? d.blt.chans i, d.chan? clsBlit i with
  | some b, some c =>
    let e : Compl := ⟨leAt cmd 2 2, status, false, false, c.handle clsBlit i, d.time.turn % 2 ^ 32, b.queue, 0⟩
    let d := d.countStatus status
    let ring := d.queueRing b.queue
    if byteAt c.record 4 = 1 then (d.put (R.CQ_RESV ring) (d.get (R.CQ_RESV ring) - 1)).postOwed ring e
    else d.postAsync ring e
  | _, _ => d

/-- At a device-level fault every blit command fetched and not completed completes FLUSHED (R598). -/
def Dev.flushBlit (d : Dev) : Dev :=
  let waits := d.blt.chans.filterMap (fun p => match p.2.head with | some c => some (p.1, c) | none => none)
  let d := waits.foldl (fun (d : Dev) (p : Nat × List Byte) => d.blitPost p.1 p.2 stFlushed) d
  let d := match d.blt.cur with
    | some (i, c) => d.blitPost i c stFlushed
    | none => d
  let d := match d.blt.direct with
    | some _ => (((d.put R.BLT_RUN 0).put R.BLT_DONE 1).put R.BLT_STATUS stFlushed).put R.BLT_D_TURN d.time.turn
    | none => d
  let d := d.put R.BLT_ACTIVE 0
  { d with blt := { d.blt with cur := none, direct := none, chans := d.blt.chans.map (fun p => (p.1, { p.2 with head := none })) } }

/-- Started entries complete FLUSHED and their changes are undone, newest first (R706, R707). A square that
a calibration load had begun to write stays held. -/
def Dev.flushStarted (d : Dev) : Dev :=
  let d := d.q.owed.reverse.foldl Dev.undoChange d
  let d := d.flushBlit
  let d := { d with
    comp := { d.comp with loads := [] }, ing := { d.ing with jobs := [] },
    mem := { d.mem with xfers := [], filling := [] }, cal := { d.cal with loads := [] },
    tbl := { d.tbl with offers := [] } }
  ((d.settle (fun _ => true) stFlushed none).flag R.QB_FLUSHED).raiseD 39 (2 ^ 10)

/-- Composition and push operations are discarded (R847): pips drop what they have and park, buffers empty. -/
def Dev.stopWork (d : Dev) : Dev :=
  let d := (List.range 256).foldl (fun (d : Dev) p =>
    let st := d.get (R.PIP_STATE p)
    (if st = 1 ∨ st = 2 ∨ st = 3 then d.put (R.PIP_STATE p) 0 else d).put (R.PIP_REMAIN p) 0) d
  let d := d.push.buf.foldl (fun (d : Dev) (b : Nat × List BufPatch) => d.put (R.PSN_OCC b.1) 0) d
  let d := d.snk.flights.foldl (fun (d : Dev) (f : Nat × List Flight) => d.put (R.PSN_RETRY_OCC (f.1 / 64)) 0) d
  { d with
    pip := { d.pip with todo := [], work := [], orphans := [] }
    comp := { d.comp with emit := [], checks := [] }
    push := { d.push with buf := [], pushed := [], fmap := [], presAck := [] }
    snk := { d.snk with flights := [], tx := [], held := [] } }

/-- A device-level fault (R848, R706): recorded in the ledger, and in a device that is not FAULTED or PFAIL
already, SU_STATE, event 0, the flush of started work, and the admission controller OFF (R852). -/
def Dev.deviceStop (d : Dev) (state : Nat) : Dev :=
  if d.get R.PWR_SU_STATE = suFaulted ∨ d.get R.PWR_SU_STATE = suPfail then d.ledgerEvent 0 0 16
  else
    let d := d.put R.PWR_SU_STATE state
    let d := d.raise 0
    let d := d.flushStarted.stopWork
    d.put R.ADM_STATE 0

end Sys2Proof.Machine
end

