-- ==== Sys2Proof/Machine/Surface.lean ====
section
/-! DEFINITION. Surfaces: formats, records, placement, the Kamius form, reading and writing rectangles
(R252 to R274). -/

namespace Sys2Proof.Machine

/-! ### Formats (R252) -/

/-- Bytes per pixel, 0 for an unlisted code. -/
def bppOf : Nat → Nat
  | 0x01 => 2 | 0x02 => 2 | 0x03 => 3 | 0x04 => 4 | 0x05 => 4 | 0x06 => 6 | 0x07 => 8 | 0x08 => 8
  | 0x10 => 4 | 0x11 => 4 | _ => 0

/-- Components of a format in layout order, from the most significant down: low bit and width. -/
def compsOf : Nat → List (Nat × Nat)
  | 0x01 => [(11, 5), (5, 6), (0, 5)]
  | 0x02 => [(15, 1), (10, 5), (5, 5), (0, 5)]
  | 0x03 => [(16, 8), (8, 8), (0, 8)]
  | 0x04 => [(24, 8), (16, 8), (8, 8), (0, 8)]
  | 0x05 => [(30, 2), (20, 10), (10, 10), (0, 10)]
  | 0x06 => [(32, 16), (16, 16), (0, 16)]
  | 0x07 => [(48, 16), (32, 16), (16, 16), (0, 16)]
  | 0x08 => [(48, 16), (32, 16), (16, 16), (0, 16)]
  | _ => []

/-- The format has an alpha component, which is its first. -/
def hasAlpha (fmt : Nat) : Bool := (compsOf fmt).length == 4

def isYcc (fmt : Nat) : Bool := fmt == 0x10 || fmt == 0x11

/-! ### Sizes and placement (R256 to R258, R264, R265) -/

/-- Length of the header array of a Kamius surface. -/
def kamHdr (w h : Nat) : Nat := ceilDiv ((w / 8) * (h / 8) * 4) 4096 * 4096

/-- Data length of a surface (R256). -/
def surfLen (fmt : Nat) (kamius : Bool) (w h pitch : Nat) : Nat :=
  if kamius then kamHdr w h + (w / 8) * (h / 8) * (64 * bppOf fmt) else pitch * h

/-- Stacks of a placement mask in rising order; 0 stands for all eight. -/
def stacksOf (mask : Nat) : List Nat := (List.range 8).filter (fun k => mask == 0 || tbit mask k)

/-- Bytes of the portion in the i-th of m stacks for a data length (R257, R258). -/
def portionLen (len m i : Nat) : Nat :=
  let stripes := ceilDiv len 4096
  ceilDiv (((stripes + m - 1 - i) / m) * 4096) 65536 * 65536

/-- Runs in use in a stack as (address, length), in rising order of address. -/
def Dev.usedRuns (d : Dev) (k : Nat) : List (Nat × Nat) :=
  sortBy (fun r : Nat × Nat => r.1)
    (d.mem.surfs.flatMap (fun s => s.2.parts.filterMap (fun p => if p.1 = k ∧ 0 < p.2.2 then some (p.2.1, p.2.2) else none)))

/-- The lowest address from `from_` at which n bytes are free before the stack's pool ends. -/
def firstFit (n hi : Nat) : List (Nat × Nat) → Nat → Option Nat
  | [], from_ => if from_ + n ≤ hi then some from_ else none
  | (a, l) :: t, from_ => if from_ + n ≤ a then some from_ else firstFit n hi t (a + l)

/-- The longest free run. -/
def largestRun (hi : Nat) : List (Nat × Nat) → Nat → Nat
  | [], from_ => hi - from_
  | (a, l) :: t, from_ => max (a - from_) (largestRun hi t (a + l))

/-- Address of the surface pool of stack k, and its end. -/
def poolBase (k : Nat) : Nat := k * stackBytes + poolLo
def poolEnd (k : Nat) : Nat := k * stackBytes + poolHi

/-- FREE of stack k as its pool stands (R279). -/
def Dev.poolFree (d : Dev) (k : Nat) : Nat :=
  poolHi - poolLo - (d.usedRuns k).foldl (fun n (r : Nat × Nat) => n + r.2) 0

/-- LARGEST of stack k. -/
def Dev.poolLargest (d : Dev) (k : Nat) : Nat := largestRun (poolEnd k) (d.usedRuns k) (poolBase k)

/-- Portions for a data length, one for each stack of the mask; none where any finds no run. -/
def Dev.place (d : Dev) (len : Nat) (ks : List Nat) : Option (List (Nat × Nat × Nat)) :=
  (ks.zipIdx).foldr (fun (p : Nat × Nat) acc =>
    match acc with
    | none => none
    | some l =>
      let n := portionLen len ks.length p.2
      if n = 0 then some ((p.1, poolBase p.1, 0) :: l)
      else match firstFit n (poolEnd p.1) (d.usedRuns p.1) (poolBase p.1) with
        | some a => some ((p.1, a, n) :: l)
        | none => none) (some [])

/-- A surface allocated under a key, its zero fill pending (R258, R260); none where no run holds it. -/
def Dev.allocate (d : Dev) (key fmt : Nat) (kamius : Bool) (w h pitch mask : Nat) : Option Dev :=
  match d.place (surfLen fmt kamius w h pitch) (stacksOf mask) with
  | none => none
  | some parts =>
    some ({ d with mem := { d.mem with surfs := Tab.set d.mem.surfs key ⟨fmt, kamius, w, h, pitch, parts⟩ } })

/-- A surface's portions return to the pool (R261). -/
def Dev.release (d : Dev) (key : Nat) : Dev :=
  match Tab.get? d.mem.surfs key with
  | none => d
  | some _ => { d with mem := { d.mem with surfs := Tab.erase d.mem.surfs key } }

/-- Zeros in every allocated byte of a surface (R260). The writes cover whole flits. -/
def State.zeroSurface (s : State) (u : Surf) : State :=
  u.parts.foldl (fun (s : State) p =>
    let s := { s with hbm := Memory.clear s.hbm p.2.1 p.2.2 }
    { s with dev := { s.dev with mem := { s.dev.mem with
        poison := s.dev.mem.poison.filter (fun f => !(decide (p.2.1 ≤ 32 * f) && decide (32 * f < p.2.1 + p.2.2))) } } }) s

/-- SIZE of a surface. -/
def Surf.size (u : Surf) : Nat := u.parts.foldl (fun n p => n + p.2.2) 0

/-- The surface at a key. -/
def Dev.surf? (d : Dev) (key : Nat) : Option Surf := Tab.get? d.mem.surfs key

/-- HBM address of a data offset of a surface (R257). -/
def Surf.addr (u : Surf) (off : Nat) : Nat :=
  let m := u.parts.length
  let stripe := off / 4096
  (u.parts.getD (stripe % m) (0, 0, 0)).2.1 + (stripe / m) * 4096 + off % 4096

/-- The data offset that an address of the surface holds, if it lies in one of its portions. -/
def Surf.offsetOf? (u : Surf) (a : Nat) : Option Nat :=
  (u.parts.zipIdx).findSome? (fun p =>
    if p.1.2.1 ≤ a ∧ a < p.1.2.1 + p.1.2.2 then
      some (((a - p.1.2.1) / 4096 * u.parts.length + p.2) * 4096 + (a - p.1.2.1) % 4096)
    else none)

/-- The surface that an address belongs to. -/
def Dev.surfAt? (d : Dev) (a : Nat) : Option (Nat × Surf) :=
  d.mem.surfs.find? (fun s => (s.2.offsetOf? a).isSome)

/-! ### Data runs -/

/-- n bytes of a surface's data, cut at flits so that stripes are followed. -/
def State.surfGet (s : State) (u : Surf) (off n : Nat) : List Byte :=
  (List.range n).map (fun i => Memory.get s.hbm (u.addr (off + i)))

/-- The first poisoned flit among n bytes of data, as the offset where it begins. -/
def State.surfPoison (s : State) (u : Surf) (off n : Nat) : Option Nat :=
  (List.range (n / 32 + 2)).findSome? (fun i =>
    let o := (off / 32 + i) * 32
    if off + n ≤ o then none else if flitOf (u.addr o) ∈ s.dev.mem.poison then some o else none)

/-- Pieces written in order; with `stop`, a merge that meets poison ends the run before that piece. -/
def State.putPieces (s : State) (u : Surf) (stop : Bool) : List (Nat × List Byte) → Bool × State
  | [] => (true, s)
  | (o, bs) :: t =>
    if stop && decide (bs.length < 32) && decide (flitOf (u.addr o) ∈ s.dev.mem.poison) then (false, s)
    else (s.writePiece (u.addr o) bs).2.putPieces u stop t

/-- Bytes written, counted in `WR_BYTES` of the stack that takes them. -/
def Dev.countWrite (d : Dev) (a n : Nat) : Dev := if a < hbmBytes then d.bump (R.STK_WR_BYTES (stackOf a)) n else d

/-- Data bytes of a surface written. The Bool is false where poison ended the run. -/
def State.surfPut (s : State) (u : Surf) (stop : Bool) (off : Nat) (bs : List Byte) : Bool × State :=
  let (ok, s) := s.putPieces u stop (chunks bs.length off bs)
  (ok, s.upd (fun d => d.countWrite (u.addr off) bs.length))

/-! ### Kamius (R263 to R272) -/

/-- CRC-16 of R270. -/
def kamCheck (bs : List Byte) : Nat := bs.foldl (crcByte 16 0x1021) 0xFFFF

/-- Eight differences of k bits from a cursor: the cursor after them, the values, newest last. -/
def deltaGroup (word k w : Nat) : Nat → Nat → Nat → List Nat → Nat × List Nat
  | 0, cur, _, acc => (cur, acc.reverse)
  | n + 1, cur, pred, acc =>
    let z := (word / 2 ^ cur) % 2 ^ k
    let m := 2 ^ w
    let v := if z % 2 = 0 then (pred + z / 2) % m else (pred + m * (z + 1) - (z + 1) / 2) % m
    deltaGroup word k w n (cur + k) v (v :: acc)

/-- One row of a DELTA block: the components in turn. `firsts` holds the first value of each in the row above. -/
def deltaRow (word : Nat) : List (Nat × Nat) → List Nat → Nat → Option (Nat × List (List Nat))
  | [], _, cur => some (cur, [])
  | (_, w) :: cs, firsts, cur =>
    let k := (word / 2 ^ cur) % 32
    if w < k then none
    else
      let (cur, vs) := deltaGroup word k w 8 (cur + 5) (firsts.getD 0 0) []
      match deltaRow word cs (firsts.drop 1) cur with
      | some (cur, rest) => some (cur, vs :: rest)
      | none => none

/-- n rows of a DELTA block, each as its components' values. -/
def deltaRows (word : Nat) (comps : List (Nat × Nat)) : Nat → List Nat → Nat → Option (Nat × List (List (List Nat)))
  | 0, _, cur => some (cur, [])
  | n + 1, firsts, cur =>
    match deltaRow word comps firsts cur with
    | none => none
    | some (cur, row) =>
      match deltaRows word comps n (row.map (fun vs => vs.getD 0 0)) cur with
      | some (cur, rest) => some (cur, row :: rest)
      | none => none

/-- The stored word that component values make. -/
def packWord (comps : List (Nat × Nat)) (vs : List Nat) : Nat :=
  (comps.zip vs).foldl (fun n p => n + p.2 % 2 ^ p.1.2 * 2 ^ p.1.1) 0

/-- Component values of a stored word, in layout order. -/
def unpackWord (fmt word : Nat) : List Nat := (compsOf fmt).map (fun c => bits word (c.1 + c.2 - 1) c.1)

/-- A DELTA payload decoded to the 64 × Bpp bytes of R268 (R269). -/
def deltaDecode (fmt : Nat) (bs : List Byte) : Option (List Byte) :=
  let comps := compsOf fmt
  let word := leOf bs
  match deltaRows word comps 8 (List.replicate comps.length 0) 0 with
  | none => none
  | some (cur, rows) =>
    if ceilDiv cur 8 = bs.length ∧ word / 2 ^ cur = 0 then
      some (rows.flatMap (fun row => (List.range 8).flatMap (fun x =>
        leBytes (bppOf fmt) (packWord comps (row.map (fun vs => vs.getD x 0))))))
    else none

/-- A block decoded from its header and payload; none is a block in error (R271). -/
def kamDecode (fmt hdr : Nat) (payload : List Byte) : Option (List Byte) :=
  let len := bits hdr 9 0
  let mode := bits hdr 11 10
  let full := 64 * bppOf fmt
  if bits hdr 15 12 ≠ 0 then none
  else
    let checked (b : Option (List Byte)) : Option (List Byte) :=
      match b with
      | some bs => if kamCheck bs = bits hdr 31 16 then some bs else none
      | none => none
    if mode = 0 then
      if len = 0 then some (List.replicate full 0) else if len = full then checked (some (payload.take full)) else none
    else if mode = 1 then
      if len = bppOf fmt then checked (some ((List.replicate 64 (payload.take len)).flatten)) else none
    else if mode = 2 then
      if 1 ≤ len ∧ len < full then checked (deltaDecode fmt (payload.take len)) else none
    else none

/-- z of a value and its prediction at width w (R269). -/
def deltaZ (w v pred : Nat) : Nat :=
  let d := (v + 2 ^ w - pred % 2 ^ w) % 2 ^ w
  if d < 2 ^ (w - 1) then 2 * d else 2 * (2 ^ w - d) - 1

/-- Least width that holds every value of a list. -/
def widthOf (l : List Nat) : Nat := l.foldl (fun k z => if z < 2 ^ k then k else Nat.log2 z + 1) 0

/-- Bits appended: (accumulated value, count). -/
def pushBits (acc : Nat × Nat) (v n : Nat) : Nat × Nat := (acc.1 + v * 2 ^ acc.2, acc.2 + n)

/-- One group of eight values coded after what stands. -/
def deltaEncGroup (w pred : Nat) (vs : List Nat) (acc : Nat × Nat) : Nat × Nat :=
  let preds := pred :: vs
  let zs := (vs.zip preds).map (fun p => deltaZ w p.1 p.2)
  let k := widthOf zs
  zs.foldl (fun a z => pushBits a z k) (pushBits acc k 5)

/-- The DELTA payload of a block of 64 stored words. -/
def deltaEncode (fmt : Nat) (words : List Nat) : List Byte :=
  let comps := compsOf fmt
  let val (c : Nat × Nat) (i : Nat) : Nat := bits (words.getD i 0) (c.1 + c.2 - 1) c.1
  let row (acc : Nat × Nat) (y : Nat) : Nat × Nat :=
    comps.foldl (fun a c =>
      deltaEncGroup c.2 (if y = 0 then 0 else val c (8 * (y - 1))) ((List.range 8).map (fun x => val c (8 * y + x))) a) acc
  let r := (List.range 8).foldl row (0, 0)
  leBytes (ceilDiv r.2 8) r.1

/-- Header and payload of a block of 64 × Bpp bytes (R272). -/
def kamEncode (fmt : Nat) (bs : List Byte) : Nat × List Byte :=
  let bpp := bppOf fmt
  let words := (List.range 64).map (fun i => leAt bs (i * bpp) bpp)
  let head (mode len : Nat) : Nat := len + mode * 1024 + kamCheck bs * 65536
  if words.all (· == words.getD 0 0) then (head 1 bpp, bs.take bpp)
  else
    let dl := deltaEncode fmt words
    if dl.length < 64 * bpp then (head 2 dl.length, dl) else (head 0 (64 * bpp), bs)

/-- Block columns of a Kamius surface. -/
def Surf.bw (u : Surf) : Nat := u.w / 8

/-- Data offset of a block's header and of its slot. -/
def Surf.hdrOff (_ : Surf) (b : Nat) : Nat := 4 * b
def Surf.slotOff (u : Surf) (b : Nat) : Nat := kamHdr u.w u.h + b * (64 * bppOf u.fmt)

/-- A block as it reads: its bytes, and whether it is in error, which reads as CLEAR (R271). -/
def State.kamBlock (s : State) (u : Surf) (b : Nat) : List Byte × Bool :=
  let hdr := leOf (s.surfGet u (u.hdrOff b) 4)
  let len := bits hdr 9 0
  let full := 64 * bppOf u.fmt
  let bad := (s.surfPoison u (u.hdrOff b) 4).isSome || (s.surfPoison u (u.slotOff b) len).isSome
  let payload := s.surfGet u (u.slotOff b) len
  match (if bad then none else kamDecode u.fmt hdr payload) with
  | some bs => (bs, false)
  | none => (List.replicate full 0, true)

/-- Kamius blocks read: `KAM_READ`, and the errors of R271. -/
def Dev.kamRead (d : Dev) (blocks errors : Nat) : Dev :=
  let d := d.bump R.MEM_KAM_READ blocks
  if errors = 0 then d else ((d.bump R.MEM_KAM_ERR_CNT errors).flag R.MEM_KAM_ERR).raiseOnce 392

/-- A block written: payload first, then its header (R274). -/
def State.kamWrite (s : State) (u : Surf) (stop : Bool) (b : Nat) (bs : List Byte) : Bool × State :=
  let (hdr, payload) := kamEncode u.fmt bs
  let (ok, s) := s.surfPut u stop (u.slotOff b) payload
  if !ok then (false, s)
  else
    let (ok, s) := s.surfPut u stop (u.hdrOff b) (leBytes 4 hdr)
    (ok, s.upd (fun d => d.bump R.MEM_KAM_WRITE 1))

/-! ### Pixels -/

/-- Bytes of one pixel of a surface at (x, y). -/
def State.pixelBytes (s : State) (u : Surf) (x y : Nat) : List Byte :=
  let bpp := bppOf u.fmt
  if u.kamius then slice (s.kamBlock u (y / 8 * u.bw + x / 8)).1 ((y % 8 * 8 + x % 8) * bpp) bpp
  else s.surfGet u (y * u.pitch + x * bpp) bpp

/-- A row of n pixels from (x, y), as stored bytes. -/
def State.rowBytes (s : State) (u : Surf) (x y n : Nat) : List Byte :=
  if u.kamius then
    (List.range (ceilDiv n 8)).flatMap (fun i => slice (s.kamBlock u (y / 8 * u.bw + x / 8 + i)).1
      ((y % 8 * 8) * bppOf u.fmt) (8 * bppOf u.fmt))
  else s.surfGet u (y * u.pitch + x * bppOf u.fmt) (n * bppOf u.fmt)

/-- Blocks of a rectangle aligned to 8 pixels. -/
def Surf.blocksOf (u : Surf) (x y w h : Nat) : List Nat :=
  (List.range (h / 8)).flatMap (fun j => (List.range (w / 8)).map (fun i => (y / 8 + j) * u.bw + x / 8 + i))

/-- How many of these blocks read in error. -/
def State.kamErrors (s : State) (u : Surf) (bl : List Nat) : Nat := (bl.filter (fun b => (s.kamBlock u b).2)).length

/-! ### Surface records (R254, R255) -/

/-- Fields of a surface record by its bytes. -/
def recFmt (r : List Byte) : Nat := byteAt r 4
def recKamius (r : List Byte) : Bool := tbit (byteAt r 5) 0
def recWidth (r : List Byte) : Nat := leAt r 8 2
def recHeight (r : List Byte) : Nat := leAt r 10 2
def recPitch (r : List Byte) : Nat := leAt r 12 4
def recStacks (r : List Byte) : Nat := byteAt r 16

/-- Reserved parts of a requested surface record are 0 (R13, R254). -/
def surfReservedOk (r : List Byte) : Bool :=
  byteAt r 5 / 2 == 0 && allZero (slice r 6 2) && allZero (slice r 17 7)

/-- The geometry rules of R253 to R255. -/
def surfRangeOk (r : List Byte) : Bool :=
  let fmt := recFmt r
  let w := recWidth r
  let h := recHeight r
  let p := recPitch r
  let bpp := bppOf fmt
  bpp != 0 && !isYcc fmt && decide (1 ≤ w) && decide (w ≤ 32768) && decide (1 ≤ h) && decide (h ≤ 32768) &&
    (if recKamius r then w % 8 == 0 && h % 8 == 0 && p == 0
     else p == 0 || (p % 64 == 0 && decide (w * bpp ≤ p) && decide (p ≤ 262144)))

/-- PITCH as the device reports it (R255, R265). -/
def surfPitch (r : List Byte) : Nat :=
  let bpp := bppOf (recFmt r)
  if recKamius r then recWidth r / 8 * (64 * bpp)
  else if recPitch r = 0 then ceilDiv (recWidth r * bpp) 64 * 64 else recPitch r

end Sys2Proof.Machine
end

