-- ==== Sys2Proof/Machine/Sched.lean ====
section
/-! DEFINITION. The present grid, the instants of a turn, and the geometry of the board (R44 to R57, R69 to R80, R412 to R424). -/

namespace Sys2Proof.Machine

/-! ### Objects that the schedule reads -/

/-- GRID_PHASE, object 0x5030:02, ns. -/
def Dev.gridPhase (d : Dev) : Nat := d.objNat 0x5030 2 0
/-- LEAD, object 0x5001:05. -/
def Dev.lead (d : Dev) : Nat := d.objNat 0x5001 5 4

/-! ### The grid (R412 to R414, R421) -/

/-- NUM and DEN of a cadence in mHz (R412, R413). -/
def periodOf (c : Nat) : Nat × Nat :=
  match [24, 30, 48, 60, 120, 240, 480].find? (fun k => (2 * k * 1000000 + 1001) / 2002 = c) with
  | some k => (1001000000, k)
  | none => (1000000000000, c)

/-- NUM in force; before any schedule the cadence is 120,000 mHz (R95). -/
def Dev.num (d : Dev) : Nat := if d.get R.PUSH_PERIOD_NUM = 0 then 1000000000000 else d.get R.PUSH_PERIOD_NUM
/-- DEN in force. -/
def Dev.den (d : Dev) : Nat := if d.get R.PUSH_PERIOD_DEN = 0 then 120000 else d.get R.PUSH_PERIOD_DEN

/-- Grid point m of a grid with origin 0, ns (R414). -/
def gridPoint (num den phase : Nat) (m : Int) : Int := (m * num + (phase * den : Nat)) / (den : Int)

/-- The first grid point at or after t, ns. -/
def gridFrom (num den phase t : Nat) : Nat :=
  let m0 : Int := (((t : Int) - phase) * den) / (num : Int)
  let g0 := gridPoint num den phase m0
  let g1 := gridPoint num den phase (m0 + 1)
  if (t : Int) ≤ g0 then g0.toNat else if (t : Int) ≤ g1 then g1.toNat
  else (gridPoint num den phase (m0 + 2)).toNat

/-- The period in ns, rounded down. -/
def Dev.periodNs (d : Dev) : Nat := d.num / d.den

/-- Device time, ns, of the next present instant: the first grid point after the last one (R414); with a
timing change due, the first of the new grid at least min(P_old, P_new) later (R421); after a step, the
first at least P of elapsed time later (R654, R668). -/
def Dev.nextPresNs (d : Dev) : Nat :=
  let passed := d.time.now - d.sched.presNow
  match d.sched.timing with
  | some t =>
    if t.ne = d.time.turn + 1 then
      let pOld := ceilDiv d.num d.den
      let pNew := ceilDiv t.num t.den
      if d.time.stepped then gridFrom t.num t.den d.gridPhase (d.devNs + (min pOld pNew - passed / perNs))
      else gridFrom t.num t.den d.gridPhase (d.sched.presNs + min pOld pNew)
    else if d.time.stepped then gridFrom d.num d.den d.gridPhase (d.devNs + (ceilDiv d.num d.den - passed / perNs))
    else gridFrom d.num d.den d.gridPhase (d.sched.presNs + 1)
  | none =>
    if d.time.stepped then gridFrom d.num d.den d.gridPhase (d.devNs + (ceilDiv d.num d.den - passed / perNs))
    else gridFrom d.num d.den d.gridPhase (d.sched.presNs + 1)

/-- The compose window of R49 at a period and a quiet interval, in units of 10 ps. -/
def windowUnits (num den quiet : Nat) : Nat := num * perNs / den - quiet * perUs - 40 * perUs

/-- The compose window in force. -/
def Dev.window (d : Dev) : Nat := windowUnits d.num d.den d.sched.quiet

/-- The device is in a quiet interval (R47). -/
def Dev.inQuiet (d : Dev) : Bool := d.sched.phase == .quiet && d.running

/-! ### Geometry -/

/-- Patches across a square (R76). -/
def Square.pw (q : Square) : Nat := ceilDiv q.w 32
/-- Patches down a square. -/
def Square.ph (q : Square) : Nat := ceilDiv q.h 32
/-- Patches of a square. -/
def Square.count (q : Square) : Nat := q.pw * q.ph

/-- A patch is known by its square number × 256 + its number in the square. -/
abbrev PatchKey := Nat

def patchSquare (k : PatchKey) : Nat := k / 256
def patchNum (k : PatchKey) : Nat := k % 256

/-- A rectangle of board pixels: left, top, width, height. -/
structure Rect where
  x : Nat
  y : Nat
  w : Nat
  h : Nat
  deriving DecidableEq, Repr

/-- The rectangle of patch n of a square (R76). -/
def Square.patch (q : Square) (n : Nat) : Rect :=
  let i := n % q.pw
  let j := n / q.pw
  ⟨q.x + 32 * i, q.y + 32 * j, min 32 (q.w - 32 * i), min 32 (q.h - 32 * j)⟩

/-- The square with a number. -/
def Dev.square? (d : Dev) (n : Nat) : Option Square := Tab.get? d.geo.squares n

/-- The rectangle of a patch, empty where there is none. -/
def Dev.patchRect (d : Dev) (k : PatchKey) : Rect :=
  match d.square? (patchSquare k) with
  | some q => if patchNum k < q.count then q.patch (patchNum k) else ⟨0, 0, 0, 0⟩
  | none => ⟨0, 0, 0, 0⟩

/-- Patch keys of a square. -/
def squarePatches (n : Nat) (q : Square) : List PatchKey := (List.range q.count).map (fun p => n * 256 + p)

/-- Every patch of this device. -/
def Dev.allPatches (d : Dev) : List PatchKey := d.geo.squares.flatMap (fun s => squarePatches s.1 s.2)

/-- The quarter that composes a snake's squares: ports 64q to 64q + 63. -/
def quarterOf (snake : Nat) : Nat := snake / 64

/-- Squares on a snake (R74). -/
def Dev.snakeSquares (d : Dev) (s : Nat) : Nat := (d.geo.squares.filter (fun p => p.1 / 64 = s)).length

/-- Two rectangles share a pixel. -/
def Rect.meets (a b : Rect) : Bool :=
  decide (a.x < b.x + b.w ∧ b.x < a.x + a.w ∧ a.y < b.y + b.h ∧ b.y < a.y + a.h)

/-- The common part of two rectangles. -/
def Rect.inter (a b : Rect) : Rect :=
  let x := max a.x b.x
  let y := max a.y b.y
  ⟨x, y, min (a.x + a.w) (b.x + b.w) - x, min (a.y + a.h) (b.y + b.h) - y⟩

/-- Pixels of a rectangle. -/
def Rect.area (a : Rect) : Nat := a.w * a.h

/-- Any snake is in RUN or RECOVER (R653). -/
def Dev.anySnakeUp (d : Dev) : Bool :=
  (List.range 256).any (fun s => d.get (R.SNK_STATE s) == 3 || d.get (R.SNK_STATE s) == 4)

end Sys2Proof.Machine
end

