-- ==== Sys2Proof/Machine/Time.lean ====
section
/-! DEFINITION. The time base: sources, steps and slews, genlock inputs, PTP (R639 to R655, R668, R673). -/

namespace Sys2Proof.Machine

/-! ### Objects of R674 -/

def Dev.ptpDomain (d : Dev) : Nat := d.objNat 0x5031 1 127
def Dev.ptpPorts (d : Dev) : Nat := d.objNat 0x5031 2 3
def Dev.refMode (d : Dev) (k : Nat) : Nat := d.objNat (0x5032 + k) 1 0
def Dev.refTol (d : Dev) (k : Nat) : Nat := d.objNat (0x5032 + k) 4 500
def Dev.qualN (d : Dev) (k : Nat) : Nat := d.objNat (0x5032 + k) 5 8
def Dev.refPpm (d : Dev) (k : Nat) : Nat := d.objNat (0x5032 + k) 6 50

/-- TIME_SRC in force (R643). -/
def Dev.src (d : Dev) : Nat := d.get R.TB_SRC
/-- The sync state (R644). -/
def Dev.sync (d : Dev) : Nat := d.get R.TB_SYNC

/-! ### Steps (R652 to R654) -/

/-- Half of |x|'s remainder by 1,024 and the nearest multiple of 1,024, halves rounded toward zero (R652). -/
def stepJump (x : Int) : Int :=
  let a := x.natAbs
  let q := a / 1024
  let r := a % 1024
  let m := if 512 < r then q + 1 else q
  if x < 0 then -((m * 1024 : Nat) : Int) else ((m * 1024 : Nat) : Int)

/-- A command of TIME_CMD completes (R651). -/
def Dev.cmdDone (d : Dev) : Dev := (d.put R.TB_CMD_PEND 0).flagRaise R.TB_CMD_DONE 827

/-- A step is applied: the jump, and the remainder left to slew (R652). -/
def Dev.applyStep (d : Dev) (delta : Int) (byCommand : Bool) : Dev :=
  let jump := stepJump delta
  let dev := ((d.time.dev : Int) + jump * perNs).toNat
  let d := { d with time := { d.time with dev := dev, step := none, stepped := true } }
  let d := (d.bump R.TB_STEP_CNT 1).flagRaise R.TB_STEPPED 819
  if delta - jump = 0 then if byCommand then d.cmdDone else d
  else { d with time := { d.time with pend := some (.slew (delta - jump) byCommand) } }

/-- A step is decided: applied at the next tick, or held for the next quiet interval while a snake is in RUN
or RECOVER (R653). -/
def Dev.decideStep (d : Dev) (delta : Int) (byCommand : Bool) : Dev :=
  if d.anySnakeUp && !d.inQuiet then { d with time := { d.time with step := some (delta, byCommand) } }
  else d.applyStep delta byCommand

/-- The step that waits, at the first tick of a quiet interval. -/
def Dev.applyWaitingStep (d : Dev) : Dev :=
  match d.time.step with
  | some (delta, c) => d.applyStep delta c
  | none => d

/-- The servo of a steering source: a step beyond STEP_US, a slew within (R651). -/
def Dev.servo (d : Dev) (offset : Int) : Dev :=
  if d.get R.TB_STEP_US * 1000 < offset.natAbs then d.decideStep (-offset) false
  else if offset = 0 then d
  else { d with time := { d.time with pend := some (.slew (-offset) false) } }

/-- OFFSET_NS, signed and saturating (R671). -/
def Dev.putOffset (d : Dev) (offset : Int) : Dev :=
  d.put R.TB_OFFSET_NS (unsigned 32 (max (-(2 ^ 31 : Nat)) (min offset ((2 ^ 31 : Nat) - 1))))

/-! ### Sync states (R644) -/

/-- HOLDOVER is entered (R644, R673). -/
def Dev.enterHoldover (d : Dev) : Dev :=
  if d.sync = 3 then d
  else
    let d := (d.put R.TB_SYNC 3).bump R.TB_HOLD_CNT 1
    let d := { d with time := { d.time with holdSince := some d.time.dev, syncGood := 0 } }
    d.flagRaise R.TB_HOLDOVER 824

/-- HOLDOVER is left for ACQUIRE when the selected source returns (R644). -/
def Dev.sourceReturned (d : Dev) : Dev :=
  if d.sync = 3 then
    let d := d.put R.TB_SYNC 1
    ({ d with time := { d.time with holdSince := none } }).raise 825
  else if d.sync = 0 then d.put R.TB_SYNC 1
  else d

/-- A source is selected (R643, R644). -/
def Dev.selectSource (d : Dev) (src : Nat) : Dev :=
  let d := if d.sync = 3 then ({ d with time := { d.time with holdSince := none } }).raise 825 else d
  let d := d.put R.TB_SRC src
  let d := { d with time := { d.time with syncGood := 0 } }
  if src = 0 then d.put R.TB_SYNC 0 else d.put R.TB_SYNC 1

/-- One reading of the selected source: 16 within 100 ns running give LOCKED (R644). -/
def Dev.sourceReading (d : Dev) (offset : Int) : Dev :=
  let good := if offset.natAbs ≤ 100 then d.time.syncGood + 1 else 0
  let d := { d with time := { d.time with syncGood := good } }
  if 16 ≤ good ∧ d.sync = 1 then
    let d := d.put R.TB_SYNC 2
    if d.src = 1 then d.raise 816 else d
  else d

/-! ### PTP (R645 to R647) -/

/-- The order of the default best master choice: the smaller the better. -/
def announceRank (f : Foreign) : List Nat :=
  [f.data.priority1, f.data.clockClass, f.data.accuracy, f.data.variance, f.data.priority2,
   f.data.gmId.toNat, f.data.stepsRemoved, f.port]

/-- Lexicographic order on lists of numbers. -/
def lexLt : List Nat → List Nat → Bool
  | a :: s, b :: t => if a < b then true else if b < a then false else lexLt s t
  | [], _ :: _ => true
  | _, [] => false

/-- The best of the foreign masters. -/
def bestForeign : List Foreign → Option Foreign
  | [] => none
  | f :: t =>
    match bestForeign t with
    | none => some f
    | some g => if lexLt (announceRank g) (announceRank f) then some g else some f

/-- The best master is chosen again; a new winner is a failure followed by a return (R646). -/
def Dev.chooseMaster (d : Dev) : Dev :=
  match bestForeign d.time.foreign with
  | none => d
  | some f =>
    let same := match d.time.gm with
      | some g => g.data.gmId == f.data.gmId && g.port == f.port
      | none => false
    let known := d.time.gm.isSome
    let d := { d with time := { d.time with gm := some f } }
    let d := (d.put R.TB_GM_ID f.data.gmId.toNat).put R.TB_PTP_PORT f.port
    if same then d
    else
      let d := if known then d.raise 818 else d
      let d := { d with time := { d.time with syncGood := 0, syncRx := none, lastT := none } }
      if known && d.src == 1 then d.enterHoldover.sourceReturned else d

/-- A PTP message is taken on this port and domain (R645). -/
def Dev.ptpTakes (d : Dev) (port domain : Nat) : Bool :=
  decide (port < 10) && tbit d.ptpPorts port && domain == d.ptpDomain

/-- The message comes from the grandmaster in force. -/
def Dev.fromMaster (d : Dev) (port : Nat) (id : BitVec 64) : Bool :=
  match d.time.gm with
  | some g => g.data.gmId == id && g.port == port
  | none => false

/-- One measured Sync: origin and receive time, ns (R644, R645). -/
def Dev.syncMeasured (d : Dev) (origin rx : Nat) : Dev :=
  let offset : Int := (rx : Int) - origin - signed 32 (d.get R.TB_PATH_NS)
  let d := { d with time := { d.time with lastT := some (origin, rx), syncRx := none } }
  let d := d.putOffset offset
  if d.src = 1 then (d.sourceReturned.sourceReading offset).servo offset else d

/-- A PTP message arrives (R645). -/
def Dev.ptp (d : Dev) (port : Nat) : PtpMsg → Dev
  | .announce dom a =>
    if d.ptpTakes port dom then
      let f : Foreign := ⟨port, a⟩
      let others := d.time.foreign.filter (fun g => !(g.port == port && g.data.gmId == a.gmId))
      ({ d with time := { d.time with foreign := f :: others } }).chooseMaster
    else d
  | .sync dom id twoStep origin rx =>
    if d.ptpTakes port dom && d.fromMaster port id then
      let d := d.bump R.TB_SYNC_CNT 1
      if twoStep then { d with time := { d.time with syncRx := some rx } } else d.syncMeasured origin rx
    else d
  | .followUp dom id origin =>
    if d.ptpTakes port dom && d.fromMaster port id then
      match d.time.syncRx with
      | some rx => d.syncMeasured origin rx
      | none => d
    else d
  | .delayResp dom id rx =>
    if d.ptpTakes port dom && d.fromMaster port id then
      match d.time.lastT, Tab.get? d.time.delayTx port with
      | some (t1, t2), some t3 =>
        let path : Int := (((t2 : Int) - t1) + ((rx : Int) - t3)) / 2
        d.put R.TB_PATH_NS (unsigned 32 path)
      | _, _ => d
    else d
  | .other => d

/-- PTP_MESSAGE. -/
def execPtpMessage (port : Nat) (msg : PtpMsg) (s : State) : Out :=
  onUnit (decide (port < 10)) s (fun d => d.ptp port msg)

/-- PTP_FAIL (R646): Sync or Announce messages of the grandmaster have stopped and no other qualifies. -/
def execPtpFail (s : State) : Out :=
  .next (s.upd fun d =>
    let d := { d with time := { d.time with foreign := [], gm := none, syncGood := 0, syncRx := none } }
    let d := d.raise 817
    if d.src = 1 ∧ (d.sync = 1 ∨ d.sync = 2) then d.enterHoldover else d)

/-- The IP_ADDR of control port k (R783). -/
def Dev.ipAddr (d : Dev) (k : Nat) : Nat := if k = 0 then d.objNat 0x7050 1 0 else d.objNat 0x17051 1 0

/-- DELAY_REQ (R645, R782): a Delay_Req leaves an enabled port; a control port without IP_ADDR sends none. -/
def execDelayReq (port : Nat) (s : State) : Out :=
  onUnit (decide (port < 10)) s (fun d =>
    if !tbit d.ptpPorts port || (decide (port < 2) && d.ipAddr port == 0) then d
    else ({ d with time := { d.time with delayTx := Tab.set d.time.delayTx port d.devNs } }).send (.delayReq port))

/-! ### Genlock inputs (R648, R649) -/

def Dev.refIn (d : Dev) (k : Nat) : RefIn := Tab.getD d.time.refs k {}
def Dev.putRef (d : Dev) (k : Nat) (r : RefIn) : Dev := { d with time := { d.time with refs := Tab.set d.time.refs k r } }
def refQ (k : Nat) : Fld := if k = 0 then R.TB_REF0_Q else R.TB_REF1_Q

/-- Input k is disqualified; HOLDOVER where it is selected (R644, R648). -/
def Dev.refDisqualify (d : Dev) (k : Nat) : Dev :=
  let r := d.refIn k
  let d := d.putRef k { r with good := 0, bad := 0 }
  if d.on (refQ k) then
    let d := (d.put (refQ k) 0).bump R.TB_DISQ_CNT 1
    let d := d.raise (if k = 0 then 821 else 823)
    if d.src = 2 + k then d.enterHoldover else d
  else d

/-- A reading of input k that lies outside its limits: the third in a row disqualifies (R648). -/
def Dev.refBad (d : Dev) (k : Nat) : Dev :=
  let r := d.refIn k
  if 2 ≤ r.bad then d.refDisqualify k else d.putRef k { r with good := 0, bad := r.bad + 1 }

/-- A reading of input k within its limits. The first element of the answer is true at the reading that
qualifies the input. -/
def Dev.refGood (d : Dev) (k : Nat) : Bool × Dev :=
  let r := d.refIn k
  let r := { r with good := r.good + 1, bad := 0 }
  let d := d.putRef k r
  if d.qualN k ≤ r.good ∧ !d.on (refQ k) then
    (true, (d.put (refQ k) 1).raise (if k = 0 then 820 else 822))
  else (false, d)

/-- The step that lays an edge at device time t GRID_PHASE after a grid point (R649). -/
def Dev.edgeStep (d : Dev) (t : Nat) : Int :=
  let target := t - d.gridPhase
  let hi := gridFrom d.num d.den d.gridPhase target
  let m : Int := ((((target : Int) - d.gridPhase) * d.den) / (d.num : Int))
  let lo := (gridPoint d.num d.den d.gridPhase m)
  let up : Int := (hi : Int) + d.gridPhase - t
  let down : Int := lo + d.gridPhase - t
  if down.natAbs < up.natAbs then down else up

/-- REF_IN_EDGE (R648, R649): an edge of the set polarity in FRAME mode, its error from the expected time
and its pulse width. -/
def execRefInEdge (input : Nat) (errorNs : Int) (widthNs : Nat) (s : State) : Out :=
  onUnit (decide (input < 2)) s (fun d =>
    if d.refMode input ≠ 1 then d
    else if errorNs.natAbs ≤ d.refTol input ∧ 100 ≤ widthNs then
      let (first, d) := d.refGood input
      if d.src = 2 + input ∧ d.on (refQ input) then
        let d := d.putOffset errorNs
        let d := d.sourceReturned
        if first then
          let step := d.edgeStep d.devNs
          if step = 0 then d else d.decideStep step false
        else (d.sourceReading errorNs).servo errorNs
      else d
    else d.refBad input)

/-- REF_WINDOW_END (R648): a 10 ms window of F10M mode counted this many cycles. -/
def execRefWindowEnd (input cycles : Nat) (s : State) : Out :=
  onUnit (decide (input < 2)) s (fun d =>
    if d.refMode input ≠ 2 then d
    else
      let dev : Int := (cycles : Int) - 100000
      if dev.natAbs * 10 ≤ d.refPpm input then
        let (_, d) := d.refGood input
        if d.src = 2 + input ∧ d.on (refQ input) then
          let offset := dev * 100
          ((d.putOffset offset).sourceReturned.sourceReading offset).servo offset
        else d
      else d.refBad input)

/-- REF_EDGE_MISSING (R648): an expected edge did not come; in F10M mode, none for 1 µs. -/
def execRefEdgeMissing (input : Nat) (s : State) : Out :=
  onUnit (decide (input < 2)) s (fun d =>
    if d.refMode input = 1 then d.refBad input
    else if d.refMode input = 2 then d.refDisqualify input
    else d)

/-! ### TIME_CMD (R651) -/

/-- Requesters that reach the registers of function 0: function 0 and the banker (R678, R723). -/
def fullAccess (req : Nat) : Bool := req == 0 || req == 32

/-- A TIME_CMD is refused (R651). -/
def Dev.timeReject (d : Dev) : Dev := d.flagRaise R.TB_CMD_REJ 828

/-- TIME_SET as a time of day, ns. -/
def Dev.timeSetNs (d : Dev) : Int :=
  (((d.get R.TB_TIME_SET_SEC_LO + d.get R.TB_TIME_SET_SEC_HI * 2 ^ 32) * 1000000000 + d.get R.TB_TIME_SET_NS : Nat) : Int)

/-- The source is FREE, so that TIME_CMD is accepted. -/
def Dev.timeFree (d : Dev) : Bool := d.src == 0

/-- TIME_CMD of STEP. -/
def Dev.stepCmd (d : Dev) : Dev :=
  if !d.timeFree then d.timeReject
  else
    let delta := d.timeSetNs - d.devNs
    let d := { d with time := { d.time with pend := none } }
    let d := d.put R.TB_CMD_PEND 1
    d.decideStep delta true

/-- STEP (R651): TIME_CMD 1. -/
def execStep (req : Nat) (s : State) : Out :=
  onUnit (decide (req < 33)) s (fun d => if fullAccess req then d.stepCmd else d)

/-- TIME_CMD of SLEW. -/
def Dev.slewCmd (d : Dev) : Dev :=
  if !d.timeFree then d.timeReject
  else
    let n := signed 64 (d.get R.TB_TIME_SET_NS + d.get R.TB_TIME_SET_SEC_LO * 2 ^ 32)
    ({ d with time := { d.time with pend := some (.slew n true) } }).put R.TB_CMD_PEND 2

/-- SLEW (R651): TIME_CMD 2. -/
def execSlew (req : Nat) (s : State) : Out :=
  onUnit (decide (req < 33)) s (fun d => if fullAccess req then d.slewCmd else d)

/-- TIME_CMD of AT_SECOND. -/
def Dev.atSecondCmd (d : Dev) : Dev :=
  if !d.timeFree || d.get R.TB_TIME_SET_NS ≠ 0 then d.timeReject
  else
    let sec := d.get R.TB_TIME_SET_SEC_LO + d.get R.TB_TIME_SET_SEC_HI * 2 ^ 32
    ({ d with time := { d.time with pend := some (.atSecond sec d.time.dev) } }).put R.TB_CMD_PEND 3

/-- AT_SECOND (R651): TIME_CMD 3. -/
def execAtSecond (req : Nat) (s : State) : Out :=
  onUnit (decide (req < 33)) s (fun d => if fullAccess req then d.atSecondCmd else d)

/-- SECOND_BOUNDARY (R651, R653): device time reaches a second. An AT_SECOND written less than 1 µs before
waits for the next. -/
def execSecondBoundary (s : State) : Out :=
  .next (s.upd fun d =>
    let d := d.reach ((d.sec + 1) * perSec)
    match d.time.pend with
    | some (.atSecond sec written) =>
      if d.time.dev - written < perUs then d
      else
        let delta : Int := ((sec * 1000000000 : Nat) : Int) - d.devNs
        ({ d with time := { d.time with pend := none } }).decideStep delta true
    | _ => d)

/-- SLEW_DONE (R651): the slew under way ends. -/
def execSlewDone (s : State) : Out :=
  .next (s.upd fun d =>
    match d.time.pend with
    | some (.slew _ c) =>
      let d := { d with time := { d.time with pend := none } }
      if c then d.cmdDone else d
    | _ => d)

/-- HOLD_60S (R673): HOLDOVER has lasted 60 s. -/
def execHold60s (s : State) : Out :=
  .next (s.upd fun d => if d.sync = 3 then d.raise 826 else d)

/-- TIME_NS_READ (R650): the nanoseconds of device time or of the next present instant, with the seconds of
the same instant latched for this requester. -/
def execTimeNsRead (req : Nat) (nextPres : Bool) (s : State) : Out :=
  onUnit (decide (req < 33)) s (fun d =>
    if nextPres then
      let t := d.nextPresNs
      { d with time := { d.time with shadowPres := Tab.set d.time.shadowPres req (t / 1000000000) },
               acc := { d.acc with readData := t % 1000000000 } }
    else
      { d with time := { d.time with shadow := Tab.set d.time.shadow req d.sec },
               acc := { d.acc with readData := d.nsec } })

end Sys2Proof.Machine
end

