-- ==== Sys2Proof/Machine/Synth.lean ====
section
/-! DEFINITION. The 85 synthesizers: lock, loss, hops, bands (R656 to R667, R672, R673). -/

namespace Sys2Proof.Machine

/-! ### Legs of ingest channels, as far as a port's use goes (R529, R530) -/

/-- The ports of the legs of an ingest record. -/
def legPorts (rec : List Byte) : List Nat :=
  byteAt rec 32 :: (if tbit (byteAt rec 5) 0 then [byteAt rec 48] else [])

/-- Port i carries a leg of a LIVE ingest channel. -/
def Dev.portHasLeg (d : Dev) (i : Nat) : Bool :=
  (d.liveOf clsIngest).any (fun p => i ∈ legPorts p.2.record)

/-- Port i carries a LIVE table channel: the channel's record keeps its port. -/
def Dev.portHasTable (d : Dev) (i : Nat) : Bool :=
  (d.liveOf clsTable).any (fun p => byteAt p.2.record 0 == i)

/-- STATE codes of R672. -/
def synOff : Nat := 0
def synSearch : Nat := 1
def synLocking : Nat := 2
def synLocked : Nat := 3
def synHopping : Nat := 4
def synHoldover : Nat := 5
def synUnlocked : Nat := 6

def Dev.synState (d : Dev) (s : Nat) : Nat := d.get (R.SYNS_STATE s)

/-- State, gate and map bit of a synthesizer together: HOPPING, HOLDOVER and LOCKED count as locked (R42,
R659, R661), every other state is gated (R667). -/
def Dev.putSyn (d : Dev) (s st : Nat) : Dev :=
  let up := st == synLocked || st == synHopping || st == synHoldover
  ((d.put (R.SYNS_STATE s) st).put (R.SYNS_GATED s) (if up then 0 else 1)).putMap R.SYN_LOCKED_MAP s up

/-- A bit of register 0x10 of synthesizer s is set and raises its event (R673). -/
def Dev.synFlag (d : Dev) (s : Nat) (f : Fld) : Dev := d.flagRaise f (848 + s)

/-- REBAND and HOP_DONE raise at most once per turn (R673). -/
def Dev.synFlagOnce (d : Dev) (s : Nat) (f : Fld) : Dev := d.flagRaiseOnce f (848 + s)

/-- UNLOCK and RANGE90 also make a ledger entry (R673). -/
def Dev.synFlagLedger (d : Dev) (s : Nat) (f : Fld) : Dev :=
  (d.flag f).raiseLedger (848 + s) (2 ^ f.lo) 15

/-- Band and control word in force. -/
def Dev.putBand (d : Dev) (s band cw : Nat) : Dev := (d.put (R.SYNS_BAND_8 s) band).put (R.SYNS_CW_8 s) cw

/-- An entry of the band table (R657). -/
def Dev.putEntry (d : Dev) (s t band cw tj : Nat) : Dev :=
  (((d.put (R.SYNS_BAND_20 s t) band).put (R.SYNS_CW_20 s t) cw).put (R.SYNS_VALID s t) 1).put (R.SYNS_TJ s t) tj

/-- LOCK (R658, R667): lock is declared. -/
def execLock (syn : Nat) (s : State) : Out :=
  onUnit (decide (syn < 85)) s (fun d =>
    let st := d.synState syn
    if st = synOff ∨ st = synLocked then d
    else
      let d := d.putSyn syn synLocked
      let d := d.synFlag syn (R.SYNS_LOCK syn)
      if st = synHoldover then d.synFlag syn (R.SYNS_REF_BACK syn) else d)

/-- REF_LOST (R659, R668): no reference edge within two periods; a hop under way stops. -/
def execRefLost (syn : Nat) (s : State) : Out :=
  onUnit (decide (syn < 85)) s (fun d =>
    let st := d.synState syn
    if st = synLocked ∨ st = synHopping ∨ st = synLocking then
      let d := { d with time := { d.time with hops := Tab.erase d.time.hops syn } }
      (d.putSyn syn synHoldover).synFlag syn (R.SYNS_REF_LOST syn)
    else d)

/-- UNLOCK (R243, R280, R659, R660): lock is lost while the reference is there. -/
def execUnlock (syn : Nat) (s : State) : Out :=
  onUnit (decide (syn < 85)) s (fun d =>
    let st := d.synState syn
    if st = synLocked ∨ st = synHopping then
      let d := { d with time := { d.time with hops := Tab.erase d.time.hops syn } }
      let d := (d.putSyn syn synUnlocked).bump (R.SYNS_UNLOCK_CNT syn) 1
      let d := d.synFlagLedger syn (R.SYNS_UNLOCK syn)
      if 73 ≤ syn ∧ syn ≤ 80 then d.flagRaise (R.STK_UNLOCK (syn - 73)) (384 + (syn - 73)) else d
    else d)

/-- A reband is marked pending or no longer (R665). -/
def Dev.putRebandPend (d : Dev) (s : Nat) (b : Bool) : Dev :=
  (d.put (R.SYNS_PEND s) (if b then 1 else 0)).putMap R.SYN_PEND_MAP s b

/-- RANGE90 (R665, R666): the control word of a locked synthesizer has moved. -/
def execRange90 (syn cw : Nat) (s : State) : Out :=
  onUnit (decide (syn < 85)) s (fun d =>
    if d.synState syn ≠ synLocked then d
    else
      let d := d.put (R.SYNS_CW_8 syn) cw
      if 205 ≤ cw ∧ cw ≤ 3890 then d
      else
        let d := d.synFlagLedger syn (R.SYNS_RANGE90 syn)
        if syn = 0 then (d.flag R.TB_RANGE90).raiseLedger 829 (2 ^ 8) 14
        else d.putRebandPend syn true)

/-- The blocks that a synthesizer serves are DOWN or idle, for the HOP of R664. -/
def Dev.servedIdle (d : Dev) (s : Nat) : Bool :=
  if 1 ≤ s ∧ s ≤ 64 then
    (List.range 4).all (fun i => d.get (R.SNK_STATE (4 * (s - 1) + i)) == 0 || d.snakeSquares (4 * (s - 1) + i) == 0)
  else if 65 ≤ s ∧ s ≤ 72 then
    !d.portHasLeg (s - 65) && !d.portHasTable (s - 65)
  else if s = 82 ∨ s = 83 then
    d.get R.CLIP_STORE == 0 || d.get R.CLIP_STORE == 3
  else false

/-- Object 0xA000:01: maintenance is enabled. -/
def Dev.maintOn (d : Dev) : Bool :=
  match Tab.get? d.bank.rw (0xA000 * 256 + 1) with
  | some v => beOf v == 1
  | none => false

/-- A hop starts (R661, R667): LIVE keeps running, GATED gates; without a VALID entry a search follows. -/
def Dev.startHop (d : Dev) (s target : Nat) (reband : Bool) : Dev :=
  let d := { d with time := { d.time with hops := Tab.set d.time.hops s (target, reband) } }
  if d.on (R.SYNS_HOP_LIVE s) || reband then d.putSyn s synHopping
  else if d.on (R.SYNS_VALID s target) then d.putSyn s synLocking
  else d.putSyn s synSearch

/-- A refused hop (R664). -/
def Dev.synReject (d : Dev) : Dev := d.flagRaise R.SYN_CMD_REJ 828

/-- SYN_CMD of HOP to a target (R664). -/
def Dev.hopCmd (d : Dev) (syn target : Nat) : Dev :=
  if 1 ≤ target && d.maintOn && d.servedIdle syn then d.startHop syn target false else d.synReject

/-- HOP (R664): SYN_CMD HOP to a target. -/
def execHop (syn target : Nat) (s : State) : Out :=
  onUnit (decide (syn < 85) && decide (target < 4)) s (fun d => d.hopCmd syn target)

/-- A hop or search has ended in lock at a band and a control word. -/
def Dev.landHop (d : Dev) (syn band cw tj : Nat) (search : Bool) : Dev :=
  let target := match Tab.get? d.time.hops syn with
    | some (t, _) => t
    | none => d.get (R.SYNS_TARGET_8 syn)
  let d := { d with time := { d.time with hops := Tab.erase d.time.hops syn } }
  let d := (d.putBand syn band cw).put (R.SYNS_TARGET_8 syn) target
  let d := if search || !d.on (R.SYNS_VALID syn target) then d.putEntry syn target band cw tj else d
  d.putSyn syn synLocked

/-- HOP_DONE (R661): a hop completes from its stored entry. -/
def execHopDone (syn band cw tj : Nat) (s : State) : Out :=
  onUnit (decide (syn < 85)) s (fun d =>
    let st := d.synState syn
    if st = synHopping ∨ st = synLocking ∨ st = synSearch then
      let d := d.landHop syn band cw tj false
      let d := d.synFlag syn (R.SYNS_LOCK syn)
      d.synFlagOnce syn (R.SYNS_HOP_DONE syn)
    else d)

/-- FULL_SEARCH (R661): a full search completes and rewrites the entry. -/
def execFullSearch (syn band cw tj : Nat) (s : State) : Out :=
  onUnit (decide (syn < 85)) s (fun d =>
    let st := d.synState syn
    if st = synOff then d
    else
      let hop := (Tab.get? d.time.hops syn).isSome
      let d := d.landHop syn band cw tj true
      let d := d.synFlag syn (R.SYNS_SEARCH syn)
      let d := d.synFlag syn (R.SYNS_LOCK syn)
      if hop then d.synFlagOnce syn (R.SYNS_HOP_DONE syn) else d)

/-- REBAND_DONE (R662, R665): the reband of a quiet interval completes; target 0 of the band table takes the
new band and control word. -/
def execRebandDone (syn band cw tj : Nat) (s : State) : Out :=
  onUnit (decide (syn < 85)) s (fun d =>
    if (Tab.get? d.time.hops syn).isNone then d
    else
      let d := { d with time := { d.time with hops := Tab.erase d.time.hops syn } }
      let d := ((d.putBand syn band cw).putEntry syn 0 band cw tj).putRebandPend syn false
      let d := (d.putSyn syn synLocked).bump (R.SYNS_REBAND_CNT syn) 1
      d.synFlagOnce syn (R.SYNS_REBAND syn))

/-- The reference period of a synthesizer after its REF_MODE divider or multiplier, ps (R656, R658, R663). -/
def refPeriodPs (s mode : Nat) : Nat :=
  let base := if (1 ≤ s ∧ s ≤ 72) ∨ s = 84 then 1280 else 10000
  if mode = 0 then 2 * base else if mode = 2 then base / 2 else base

/-- LOCK_N at a reference mode keeps lock within 15 µs (R658). -/
def lockNFits (s mode n : Nat) : Bool := decide (n * refPeriodPs s mode ≤ 10000000)

end Sys2Proof.Machine
end

