-- ==== Sys2Proof/Machine/Access.lean ====
section
/-! DEFINITION. Register access: decoding of offsets, reads with their clears and shadows, lock violations,
access errors, triplicated registers, snapshots (R716 to R745). The write path itself is in RegWrite. -/

namespace Sys2Proof.Machine

/-! ### Decoding (R678, R729, R730 and the alias table of each block) -/

/-- Offset bits that a block decodes. -/
def imageBits : Nat → Nat
  | 0 => 12 | 1 => 16 | 2 => 17 | 3 => 12 | 4 => 18 | 5 => 16 | 6 => 16 | 7 => 16 | 8 => 17 | 9 => 20
  | 10 => 16 | 11 => 16 | 12 => 17 | 13 => 16 | 14 => 12 | 15 => 16 | 16 => 12 | 17 => 13 | 18 => 12 | _ => 0

/-- The canonical address of a BAR0 offset of function 0: its block and the offset in the block's image.
Offsets from 0x130_0000 upward are nothing. -/
def canonOf (offset : Nat) : Option Nat :=
  let b := offset / 0x100000
  if b < 19 then some (b * 0x100000 + offset % 2 ^ imageBits b) else none

/-- The canonical address of a BAR0 offset of a requester: functions 1 to 31 see the time block and their
own queues and rings (R678). -/
def reqCanon (req offset : Nat) : Option Nat :=
  if fullAccess req then canonOf offset
  else if offset < 0x1000 then some (0xE00000 + offset)
  else if offset < 0x1400 then some (0x210000 + 0x20 * (32 * req) + (offset - 0x1000))
  else if offset < 0x1500 then some (0x218000 + 0x20 * (8 * req) + (offset - 0x1400))
  else none

/-- The indices of an array element, and what is left of the offset. -/
def matchDims : List (Nat × Nat) → Nat → Option (List Nat × Nat)
  | [], rel => some ([], rel)
  | (st, n) :: t, rel =>
    if rel / st < n then (matchDims t (rel % st)).map (fun p => (rel / st :: p.1, p.2)) else none

/-- A register found at a canonical address: its row, indices, and the byte within it. -/
structure Found where
  row : RegRow
  idx : List Nat
  off : Nat
  deriving DecidableEq, Repr

/-- The row at a canonical address, if it is this one. -/
def RegRow.at? (r : RegRow) (a : Nat) : Option Found :=
  if a < r.addr then none
  else match matchDims r.dims (a - r.addr) with
    | some (i, o) => if o < (if r.wide then 8 else 4) then some ⟨r, i, o⟩ else none
    | none => none

/-- The register at a canonical address. -/
def findReg (a : Nat) : Option Found := (regRows (a / 0x100000)).findSome? (fun r => r.at? a)

/-- The address of the register itself. -/
def Found.base (f : Found) (a : Nat) : Nat := a - f.off

/-! ### Power domains of registers (R830, R833) -/

/-- The switched domain that holds the registers at an address, for a unit of its own. -/
def domainOf (a : Nat) : Option Nat :=
  match a / 0x100000 with
  | 2 => some 127
  | 3 => some 134
  | 4 =>
    if a < 0x401000 then none
    else if a < 0x403000 then some ((a - 0x401000) / 0x100)
    else if 0x410000 ≤ a then some ((a - 0x410000) / 0x800)
    else none
  | 5 => if 0x501000 ≤ a ∧ a < 0x501800 then some (45 + (a - 0x501000) / 0x100) else none
  | 9 => some (55 + (a - 0x900000) / 0x4000)
  | 10 =>
    if 0xA01000 ≤ a ∧ a < 0xA01800 then some (119 + (a - 0xA01000) / 0x100)
    else if 0xA02000 ≤ a ∧ a < 0xA02800 then some (119 + (a - 0xA02000) / 0x100)
    else none
  | 11 => if 0xB01000 ≤ a ∧ a < 0xB01800 then some (128 + (a - 0xB01000) / 0x400) else some 130
  | 12 => some 44
  | 13 => some 133
  | _ => none

/-- Domain j is on. -/
def Dev.domOn (d : Dev) (j : Nat) : Bool := d.mapBit R.PWR_DOM_ON j

/-- The registers at an address are in a domain that is off. -/
def Dev.regOff (d : Dev) (a : Nat) : Bool :=
  match domainOf a with
  | some j => !d.domOn j
  | none => false

/-- A switched domain is held on whatever is requested (R831): the rows of its table. -/
def Dev.domHeld (d : Dev) (j : Nat) : Bool :=
  if j = 44 then !(d.liveOf clsBlit).isEmpty || d.blt.direct.isSome
  else if 55 ≤ j ∧ j < 119 then (List.range 4).any (fun i => decide (0 < d.snakeSquares (4 * (j - 55) + i)))
  else if 119 ≤ j ∧ j < 127 then
    d.portHasLeg (j - 119) || (d.objNat 0x5021 (1 + (j - 119)) 0 == 1 && decide (1 < d.geo.devices))
  else if j = 128 ∨ j = 129 then
    (d.get R.CLIP_STORE == 1 || d.get R.CLIP_STORE == 2) && d.ing.members.any (fun m => m.1 / 4 == j - 128)
  else if j = 130 then !(d.liveOf clsClip).isEmpty || d.get R.CLIP_STORE == 1
  else if j = 131 ∨ j = 132 then d.ipAddr (j - 131) != 0 || tbit d.ptpPorts (j - 131)
  else true

/-- Domains that a request switches off (R831). -/
def domSwitchable (j : Nat) : Bool :=
  j == 44 || (decide (55 ≤ j) && decide (j < 127)) || (decide (128 ≤ j) && decide (j < 133))

/-- Word i of `DOM_HELD`: requested off and held (R831). -/
def Dev.heldWord (d : Dev) (i : Nat) : Nat :=
  (List.range 32).foldl (fun v k =>
    if domSwitchable (32 * i + k) && d.mapBit R.PWR_DOM_OFF_REQ (32 * i + k) && d.domHeld (32 * i + k) then v + 2 ^ k else v) 0

/-- A write to a domain that is off is discarded (R833). -/
def Dev.offWrite (d : Dev) : Dev := d.flagRaiseOnce R.PWR_DOM_WOFF 938

/-- A write to registers of domain j: it has its effect where the domain is on. -/
def Dev.domWrite (d : Dev) (j : Nat) (f : Dev → Dev) : Dev := if d.domOn j then f d else d.offWrite

/-! ### Values -/

/-- The value of one field of the register at an address. -/
def Dev.fieldAt (d : Dev) (addr : Nat) (idx : List Nat) (f : FieldDef) : Nat :=
  Tab.getD d.regs (addr * 64 + f.lo) (f.rst.val idx) % 2 ^ (f.hi - f.lo + 1)

/-- The whole value of a register; a WO field reads as 0 (R14). -/
def Dev.regValue (d : Dev) (addr : Nat) (r : RegRow) (idx : List Nat) : Nat :=
  r.fields.foldl (fun v f => if f.acc = .wo then v else v + d.fieldAt addr idx f * 2 ^ f.lo) 0

/-- Fuse word w as a register reads it: the factory key reads as 0, a blown fuse as 1 (R815). -/
def Dev.fuseRead (d : Dev) (w : Nat) : Nat :=
  if 16 ≤ w ∧ w < 24 then 0
  else d.bank.blown.foldl (fun v b => if b / 32 = w then setBit v (b % 32) else v) (Config.fuseWord w).toNat

/-- The four words of the square that `SQ_SEL` selects (R636). -/
def Dev.senseWord (d : Dev) (i : Nat) : Nat :=
  let n := d.get R.SNS_SQ_SEL
  let q := Tab.getD d.sns.squares n {}
  if i = 0 then
    let bad := ((q.touch.cells ++ q.press.cells).filter (·.bad)).length
    let open_ := (d.sns.contacts.filter (·.square == n)).length
    q.state + min open_ 511 * 4 + min bad 8191 * 2048 + (if q.teleStale then 2 ^ 24 else 0) + (if (q.temp.getD (-1000)) > ((d.objNat 0x6001 1 1360 : Nat) : Int) then 2 ^ 25 else 0)
  else if i = 1 then unsigned 16 (q.temp.getD 0) + q.vsup % 65536 * 65536
  else if i = 2 then q.amb % 2 ^ 32
  else q.lastScan % 2 ^ 32

/-- The reset value of a register, which is its safe value. -/
def Found.safe (f : Found) : Nat := f.row.fields.foldl (fun v x => v + x.rst.val f.idx * 2 ^ x.lo) 0

/-- Registers whose value is not held but made at the read: time, the next present instant, holdover, fuses,
the surface pool, the age of a training, the selected square, profile 0 (R349). -/
def Dev.liveReg (d : Dev) (req addr : Nat) : Option Nat :=
  if addr = 0xE00014 then some d.nsec
  else if addr = 0xE00018 then some (Tab.getD d.time.shadow req 0 % 2 ^ 32)
  else if addr = 0xE0001C then some (Tab.getD d.time.shadow req 0 / 2 ^ 32 % 2 ^ 16)
  else if addr = 0xE00038 then
    some (match d.time.holdSince with | some t => min ((d.time.dev - t) / perMs) (2 ^ 32 - 1) | none => 0)
  else if addr = 0xE00048 then some (d.nextPresNs % 1000000000)
  else if addr = 0xE0004C then some (Tab.getD d.time.shadowPres req 0 % 2 ^ 32)
  else if addr = 0xE00050 then some (Tab.getD d.time.shadowPres req 0 / 2 ^ 32 % 2 ^ 16)
  else if 0x500020 ≤ addr ∧ addr < 0x500060 then some (d.poolFree ((addr - 0x500020) / 8))
  else if 0x500060 ≤ addr ∧ addr < 0x5000A0 then some (d.poolLargest ((addr - 0x500060) / 8))
  else if 0x501010 ≤ addr ∧ addr < 0x501800 ∧ (addr - 0x501010) % 0x100 = 0 then
    some (match Tab.get? d.mem.trained ((addr - 0x501010) / 0x100) with
      | some t => min ((d.time.now - t) / perMs) (2 ^ 32 - 1)
      | none => 0)
  else if 0xD0001C ≤ addr ∧ addr < 0xD0002C then some (d.senseWord ((addr - 0xD0001C) / 4))
  else if addr = 0x701000 then some 0x10000000
  else if 0x1000080 ≤ addr ∧ addr < 0x1000094 then some (d.heldWord ((addr - 0x1000080) / 4))
  else if 0x1200800 ≤ addr ∧ addr < 0x1201000 then some (d.fuseRead ((addr - 0x1200800) / 4))
  else none

/-- The value of the register found at a canonical address; in a domain that is off, its reset value (R833). -/
def Dev.readReg (d : Dev) (req a : Nat) (f : Found) : Nat :=
  if d.regOff a then f.safe
  else match d.liveReg req (f.base a) with
  | some v => v
  | none => d.regValue (f.base a) f.row f.idx

/-! ### Reads (R717, R719, R721 to R723) -/

/-- RC fields of the register at a canonical address go back to their reset values. -/
def Dev.clearRc (d : Dev) (a : Nat) (f : Found) : Dev :=
  let clear (t : Tab Nat) (x : FieldDef) : Tab Nat :=
    if x.acc = .rc then Tab.set t (f.base a * 64 + x.lo) (x.rst.val f.idx) else t
  { d with regs := f.row.fields.foldl clear d.regs }

/-- One byte of the register space as a requester sees it. -/
def Dev.readByte (d : Dev) (req offset : Nat) : Nat :=
  match reqCanon req offset with
  | none => 0
  | some a => match findReg a with
    | none => 0
    | some f => (d.readReg req a f / 256 ^ f.off) % 256

/-- The clears that a read of one byte makes: every RC field of the byte's register (R722). -/
def Dev.readClears (d : Dev) (req offset : Nat) : Dev :=
  match reqCanon req offset with
  | none => d
  | some a => match findReg a with
    | none => d
    | some f => d.clearRc a f

/-- The shadow key of a requester in a block (R719). -/
def shadowKey (req a : Nat) : Nat := req * 32 + a / 0x100000

/-- A register read of n bytes: the data, and the state it leaves. A 32-bit read of a low word marks the
requester's shadow, one of a high word returns the shadow where it is marked with the register (R719);
reads of TIME_NS and NEXT_PRES_NS latch their seconds (R650). The banker's view clears nothing (R723). -/
def Dev.read (d : Dev) (req offset n : Nat) : Nat × Dev :=
  let plain := ((List.range n).foldr (fun i v => v * 256 + d.readByte req (offset + i)) 0)
  let cleared := if req = 32 then d else (List.range n).foldl (fun e i => e.readClears req (offset + i)) d
  match reqCanon req offset with
  | none => (plain, cleared)
  | some a =>
    if n = 4 ∧ a % 4 = 0 then
      match findReg a with
      | none => (plain, cleared)
      | some f =>
        if f.row.wide && f.off == 0 then
          let hi := d.readReg req a f / 2 ^ 32
          (plain, { cleared with acc := { cleared.acc with
            shadow := Tab.set cleared.acc.shadow (shadowKey req a) (a, hi) } })
        else if f.row.wide && f.off == 4 then
          match Tab.get? d.acc.shadow (shadowKey req a) with
          | some (b, hi) => if b = a - 4 then (hi, cleared) else (plain, cleared)
          | none => (plain, cleared)
        else if a = 0xE00014 then
          (plain, { cleared with time := { cleared.time with shadow := Tab.set cleared.time.shadow req d.sec } })
        else if a = 0xE00048 then
          (plain, { cleared with time := { cleared.time with
            shadowPres := Tab.set cleared.time.shadowPres req (d.nextPresNs / 1000000000) } })
        else (plain, cleared)
    else (plain, cleared)

/-- The data of a read is on the link (R720). -/
def Dev.readOut (p : Nat × Dev) : Dev := { p.2 with acc := { p.2.acc with readData := p.1 } }

/-- RC_READ (R717, R721, R722): a register read of any width and alignment. -/
def execRcRead (req offset bytes : Nat) (s : State) : Out :=
  onUnit (decide (req < 33) && decide (bytes ≤ 8)) s (fun d => Dev.readOut (d.read req offset bytes))

/-- LOW_WORD_READ (R719): a 32-bit read of the low word of a 64-bit register. -/
def execLowWordRead (req offset : Nat) (s : State) : Out :=
  onUnit (decide (req < 33)) s (fun d => Dev.readOut (d.read req offset 4))

/-! ### Status bits of a block -/

/-- The `WRANGE` field for a register of a block; queues and rings have their own (R713). -/
def wrangeFld (a : Nat) : Option Fld :=
  match a / 0x100000 with
  | 1 => some R.EV_WRANGE
  | 2 =>
    if a < 0x210000 then some R.QB_WRANGE
    else if a < 0x218000 then some (R.SQ_WRANGE ((a - 0x210000) / 0x20))
    else if a < 0x21A000 then some (R.CQ_WRANGE ((a - 0x218000) / 0x20))
    else some (R.PQ_WRANGE ((a - 0x21A000) / 0x20))
  | 3 => some R.ADM_WRANGE
  | 4 => some R.FAB_WRANGE
  | 5 => some R.MEM_WRANGE
  | 6 => some R.COMP_WRANGE
  | 7 => some R.CAL_WRANGE
  | 8 => some R.PUSH_WRANGE
  | 9 => some (R.SNK_WRANGE ((a - 0x900000) / 0x1000))
  | 10 => some R.ING_WRANGE
  | 11 => some R.CLIP_WRANGE
  | 12 => some R.BLT_WRANGE
  | 13 => some R.SNS_WRANGE
  | 14 => some R.TB_WRANGE
  | 15 => some R.SYN_WRANGE
  | 16 => some R.PWR_WRANGE
  | 17 => some R.MBX_WRANGE
  | 18 => some R.ST_WRANGE
  | _ => none

/-- The event that `WRANGE` of a block raises, where its chapter gives one. -/
def wrangeEvent (a : Nat) : Option Nat :=
  match a / 0x100000 with
  | 2 => some 42
  | 6 => some 406
  | 7 => some 420
  | 8 => some 842
  | 9 => some (432 + (a - 0x900000) / 0x1000)
  | 10 => some 707
  | 11 => some 707
  | 12 => some 742
  | 13 => some 764
  | 14 => some 830
  | 15 => some 830
  | 16 => some 939
  | 17 => some 967
  | _ => none

/-- A write is discarded for its range: `WRANGE` and its event. -/
def Dev.wrange (d : Dev) (a : Nat) : Dev :=
  match wrangeFld a with
  | none => d
  | some f =>
    let d := if 0x210000 ≤ a ∧ a < 0x218000 then d.queueFlag ((a - 0x210000) / 0x20) f else d.flag f
    match wrangeEvent a with
    | some e => d.raiseD e (2 ^ f.lo)
    | none => d

/-- `LOCKVIOL`, `TMR_CORR`, `TMR_FAIL` of the block of an address; the admission block's register has the
first alone. -/
def statusFlds (a : Nat) : Option Fld × Option Fld × Option Fld :=
  match a / 0x100000 with
  | 0 => (some R.GLB_LOCKVIOL, some R.GLB_TMR_CORR, some R.GLB_TMR_FAIL)
  | 1 => (some R.EV_LOCKVIOL, some R.EV_TMR_CORR, some R.EV_TMR_FAIL)
  | 2 => (some R.QB_LOCKVIOL, some R.QB_TMR_CORR, some R.QB_TMR_FAIL)
  | 3 => (some R.ADM_LOCKVIOL, none, none)
  | 4 => (some R.FAB_LOCKVIOL, some R.FAB_TMR_CORR, some R.FAB_TMR_FAIL)
  | 5 => (some R.MEM_LOCKVIOL, some R.MEM_TMR_CORR, some R.MEM_TMR_FAIL)
  | 6 => (some R.COMP_LOCKVIOL, some R.COMP_TMR_CORR, some R.COMP_TMR_FAIL)
  | 7 => (some R.CAL_LOCKVIOL, some R.CAL_TMR_CORR, some R.CAL_TMR_FAIL)
  | 8 => (some R.PUSH_LOCKVIOL, some R.PUSH_TMR_CORR, some R.PUSH_TMR_FAIL)
  | 9 =>
    let n := (a - 0x900000) / 0x1000
    (some (R.SNK_LOCKVIOL n), some (R.SNK_TMR_CORR n), some (R.SNK_TMR_FAIL n))
  | 10 => (some R.ING_LOCKVIOL, some R.ING_TMR_CORR, some R.ING_TMR_FAIL)
  | 11 => (some R.CLIP_LOCKVIOL, some R.CLIP_TMR_CORR, some R.CLIP_TMR_FAIL)
  | 12 => (some R.BLT_LOCKVIOL, some R.BLT_TMR_CORR, some R.BLT_TMR_FAIL)
  | 13 => (some R.SNS_LOCKVIOL, some R.SNS_TMR_CORR, some R.SNS_TMR_FAIL)
  | 14 => (some R.TB_LOCKVIOL, some R.TB_TMR_CORR, some R.TB_TMR_FAIL)
  | 15 => (some R.SYN_LOCKVIOL, some R.SYN_TMR_CORR, some R.SYN_TMR_FAIL)
  | 16 => (some R.PWR_LOCKVIOL, some R.PWR_TMR_CORR, some R.PWR_TMR_FAIL)
  | 17 => (some R.MBX_LOCKVIOL, some R.MBX_TMR_CORR, some R.MBX_TMR_FAIL)
  | 18 => (some R.ST_LOCKVIOL, some R.ST_TMR_CORR, some R.ST_TMR_FAIL)
  | _ => (none, none, none)

/-- A status field set where the block has one. -/
def Dev.flag? (d : Dev) : Option Fld → Dev
  | some f => d.flag f
  | none => d

/-- The LOCK field that governs the RWL fields at an address (R731). -/
def lockFld (a : Nat) : Fld :=
  if a / 0x100000 = 9 then R.SNK_LOCK ((a - 0x900000) / 0x1000) else ⟨(a / 0x100000) * 0x100000 + 4, 0, 0, 0⟩

/-! ### Records of refused writes (R718, R733) -/

/-- LAST_REG_LOC as one value: offset within the block's window, block, requester (R745). -/
def regLoc (req offset : Nat) : Nat := offset % 0x100000 + (offset / 0x100000 % 32) * 2 ^ 20 + (req % 64) * 2 ^ 25

/-- LAST_REG_LOC, LAST_REG_VAL and LAST_REG_KIND record a write. -/
def Dev.lastReg (d : Dev) (req offset value kind : Nat) : Dev :=
  ((((d.put R.GLB_OFFSET offset).put R.GLB_BLOCK_18 (offset / 0x100000)).put R.GLB_REQ req).put
    R.GLB_LAST_REG_VAL value).put R.GLB_LAST_REG_KIND kind

/-- A write of a form that R718 does not take. -/
def Dev.accErr (d : Dev) (req offset value : Nat) : Dev :=
  let d := (d.flag R.GLB_ACC_ERR).lastReg req offset value 2
  let d := d.bump R.GLB_ACC_ERR_CNT 1
  d.raiseOnceD 1013 (regLoc req offset)

/-- A lock violation (R733). Further ones of the block in the turn only count. -/
def Dev.lockViol (d : Dev) (req a value : Nat) : Dev :=
  let b := a / 0x100000
  let d := d.flag? (statusFlds a).1
  let d := (d.bump R.GLB_LOCKVIOL_CNT 1).lastReg req a value 1
  let n := Tab.getD d.ev.viol b 0
  let d := { d with ev := { d.ev with viol := Tab.set d.ev.viol b (n + 1) } }
  if n = 0 then
    let d := d.raiseOnceD (992 + b) (regLoc req a)
    d.ledger ⟨true, 0x0401, b, 1, leBytes 4 (regLoc req a) ++ leBytes 4 value, false⟩
  else d

/-! ### Triplicated registers (R735 to R738) -/

/-- The register at a canonical address put to a whole value. -/
def Dev.putReg (d : Dev) (a : Nat) (f : Found) (v : Nat) : Dev :=
  let place (t : Tab Nat) (x : FieldDef) : Tab Nat := Tab.set t (f.base a * 64 + x.lo) (bits v x.hi x.lo)
  { d with regs := f.row.fields.foldl place d.regs }

/-- One register as the scrubber finds its copies: corrected by majority, or forced to its safe value. -/
def Dev.scrub (d : Dev) (t : TmrCopies) : Dev :=
  match findReg t.addr with
  | none => d
  | some f =>
    if !f.row.tmr then d
    else if t.a = t.b ∧ t.b = t.c then d
    else if t.a = t.b ∨ t.b = t.c ∨ t.a = t.c then
      let v := if t.a = t.b ∨ t.a = t.c then t.a else t.b
      let d := (d.putReg t.addr f v.toNat).flag? (statusFlds t.addr).2.1
      (d.bump R.GLB_TMR_CORR_CNT 1).raiseOnceD 1012 (regLoc 32 t.addr)
    else
      let d := (d.putReg t.addr f f.safe).flag? (statusFlds t.addr).2.2
      let d := (d.bump R.GLB_TMR_FAIL_CNT 1).lastReg 32 t.addr f.safe 3
      let d := d.raiseD 1 (regLoc 32 t.addr)
      d.ledger ⟨true, 0x0403, t.addr / 0x100000, 1,
        leBytes 4 (regLoc 32 t.addr) ++ leBytes 4 t.a.toNat ++ leBytes 4 t.b.toNat ++ leBytes 4 t.c.toNat, false⟩

/-- TMR_SCRUB (R736, R737): the scrubber's pass, with the registers whose copies it finds to differ. -/
def execTmrScrub (upsets : List TmrCopies) (s : State) : Out :=
  .next (s.upd fun d => upsets.foldl (fun d t => d.scrub t) d)

/-! ### Snapshots (R740 to R744) -/

/-- The holding register of a counter at an address, in one row. -/
def SnapRow.hold? (r : SnapRow) (a : Nat) : Option Nat :=
  if a < r.counter then none
  else match matchDims r.dims (a - r.counter) with
    | some (_, o) => if o < 8 * r.count then some (a - r.counter + r.hold) else none
    | none => none

/-- The holding register of a counter. -/
def holdOf (a : Nat) : Option Nat := snapRows.findSome? (fun r => r.hold? a)

/-- The address is a SNAP holding register. -/
def isHold (a : Nat) : Bool :=
  snapRows.any (fun r => decide (r.hold ≤ a) && (match matchDims r.dims (a - r.hold) with
    | some (_, o) => decide (o < 8 * r.count)
    | none => false))

/-- Every counter with a holding register is copied to it, all of one instant. -/
def Dev.copyCounters (d : Dev) : Dev :=
  let kept := Tab.drop d.regs (fun k => isHold (k / 64))
  let copy (p : Nat × Nat) (t : Tab Nat) : Tab Nat :=
    match (if p.1 % 64 = 0 then holdOf (p.1 / 64) else none) with
    | some h => Tab.set t (h * 64) p.2
    | none => t
  { d with regs := d.regs.foldr copy kept }

/-- A snapshot is taken, or refused while one runs (R741, R743, R655). -/
def Dev.snapshot (d : Dev) : Dev :=
  if d.on R.GLB_SNAP_BUSY then d.flag R.GLB_SNAP_REJ
  else
    let d := d.copyCounters.put R.GLB_SNAP_BUSY 1
    let d := (d.put R.TB_SNAP_TURN d.time.turn).put R.TB_SNAP_NS d.nsec
    (d.put R.TB_SNAP_SEC_LO d.sec).put R.TB_SNAP_SEC_HI (d.sec / 2 ^ 32)

/-- SNAP (R740): a write of 1 to SNAP_CMD.SNAP by function 0 or the banker. -/
def execSnap (req : Nat) (s : State) : Out :=
  onUnit (decide (req < 33)) s (fun d => if fullAccess req then d.snapshot else d)

/-- SNAP_DONE (R741): the snapshot completes. -/
def execSnapDone (s : State) : Out :=
  .next (s.upd fun d =>
    if d.on R.GLB_SNAP_BUSY then
      ((d.bump R.GLB_SNAP_SEQ 1).put R.GLB_SNAP_BUSY 0).flagRaise R.GLB_SNAP_DONE 2
    else d)

end Sys2Proof.Machine
end

