-- ==== Sys2Proof/Machine/Colour.lean ====
section
/-! DEFINITION. The arithmetic of composition: fixed-point operations, half floats, the colour stores with
their presets (R290, R291, R295 to R308, R320, R331 to R334, R373). -/

namespace Sys2Proof.Machine

/-- 1.0 in domain S, and the largest lane value (R290). -/
def laneOne : Nat := 262144
def laneMax : Nat := 0xFFFFF

/-- mul of R302. -/
def mul (x a : Nat) : Nat := (x * a + 32767) / 65535

/-- An integer cut to 0 .. hi. -/
def clampNat (v : Int) (hi : Nat) : Nat := if v < 0 then 0 else min v.toNat hi

/-- An integer cut to lo .. hi. -/
def clampInt (v lo hi : Int) : Int := max lo (min v hi)

/-- Nearest integer of n / d, ties to even. -/
def roundEven (n d : Nat) : Nat :=
  let q := n / d
  let r := n % d
  if 2 * r < d then q else if d < 2 * r then q + 1 else if q % 2 = 0 then q else q + 1

/-! ### Half floats -/

/-- A half float's magnitude times k, rounded to nearest with ties to even and cut to hi; negative values, −0
and NaN give 0 (R290, R291). -/
def halfScaled (h k hi : Nat) : Nat :=
  let e := bits h 14 10
  let f := bits h 9 0
  if tbit h 15 then 0
  else if e = 31 then (if f = 0 then hi else 0)
  else if e = 0 then min hi (roundEven (f * k) (2 ^ 24))
  else min hi (roundEven ((1024 + f) * 2 ^ e * k) (2 ^ 25))

/-- The smallest exponent code from e at which n / d has fewer than 12 significant bits, and its significand. -/
def halfFit (n d : Nat) : Nat → Nat → Nat × Nat
  | 0, e => (e, 1024)
  | k + 1, e =>
    let q := roundEven (n * 2 ^ (25 - e)) d
    if q < 2048 then (e, q) else halfFit n d k (e + 1)

/-- The half float nearest n / d, ties to even, for values below 2^16 (R320, R321). -/
def halfOf (n d : Nat) : Nat :=
  let (e, q) := halfFit n d 24 1
  if q < 1024 then q else e * 1024 + (q - 1024)

/-! ### Unpack and quantise (R290, R291, R320, R321) -/

/-- A w-bit integer component in domain S. -/
def unpackInt (w v : Nat) : Nat := (v * laneOne + 2 ^ (w - 1) - 1) / (2 ^ w - 1)

/-- A w-bit alpha extended to 16 bits by replication. -/
def replicate16 (w v : Nat) : Nat :=
  let full := (List.range (ceilDiv 16 w + 1)).foldl (fun a _ => a * 2 ^ w + v) 0
  full / 2 ^ (w * (ceilDiv 16 w + 1) - 16)

/-- A pixel of lanes and alpha. -/
structure Lanes where
  c0 : Nat
  c1 : Nat
  c2 : Nat
  alpha : Nat
  deriving DecidableEq, Repr

def Lanes.zero : Lanes := ⟨0, 0, 0, 0⟩

/-- One stored component in domain S. -/
def unpackComp (fmt w v : Nat) : Nat := if fmt = 0x08 then halfScaled v laneOne laneMax else unpackInt w v

/-- A stored word of an RGB format as lanes and alpha. -/
def unpackPixel (fmt word : Nat) : Lanes :=
  let cs := compsOf fmt
  let vs := unpackWord fmt word
  let rgb := if hasAlpha fmt then 1 else 0
  let lane (i : Nat) : Nat := unpackComp fmt (cs.getD (rgb + i) (0, 1)).2 (vs.getD (rgb + i) 0)
  let a := if hasAlpha fmt then
      (if fmt = 0x08 then halfScaled (vs.getD 0 0) 65535 0xFFFF else replicate16 (cs.getD 0 (0, 16)).2 (vs.getD 0 0))
    else 0xFFFF
  ⟨lane 0, lane 1, lane 2, a⟩

/-- One lane quantised to a component of w bits (R320). -/
def quantComp (fmt w v : Nat) : Nat :=
  if fmt = 0x08 then halfOf v laneOne else min (2 ^ w - 1) ((v * (2 ^ w - 1) + 131072) / laneOne)

/-- The stored word of lanes, with alpha at its largest value or as the accumulator has it (R321). -/
def quantPixel (fmt : Nat) (wbAlpha : Bool) (p : Lanes) : Nat :=
  let cs := compsOf fmt
  let a (w : Nat) : Nat :=
    if fmt = 0x08 then halfOf (if wbAlpha then p.alpha else 65535) 65535
    else if wbAlpha then (p.alpha * (2 ^ w - 1) + 32767) / 65535 else 2 ^ w - 1
  let rgb := [p.c0, p.c1, p.c2]
  if hasAlpha fmt then
    packWord cs (a (cs.getD 0 (0, 16)).2 :: (rgb.zip (cs.drop 1)).map (fun q => quantComp fmt q.2.2 q.1))
  else packWord cs ((rgb.zip cs).map (fun q => quantComp fmt q.2.2 q.1))

/-! ### Preset tables (R306): values in units of 2^-96 -/

def fpOne : Nat := 2 ^ 96

/-- Terms of the series 2 atanh z with z in fixed point: z + z^3/3 + z^5/5 + …, n terms from the odd k. -/
def atanhSum (z2 : Nat) : Nat → Nat → Nat → Nat
  | 0, _, _ => 0
  | n + 1, k, t => t / k + atanhSum z2 n (k + 2) (t * z2 / fpOne)

/-- ln of m in [1, 2), fixed point. -/
def lnMant (m : Nat) : Nat :=
  let z := (m - fpOne) * fpOne / (m + fpOne)
  2 * atanhSum (z * z / fpOne) 34 1 z

/-- ln 2. -/
def ln2 : Nat := lnMant (2 * fpOne - 1)

/-- ln of the positive fraction n / d. -/
def lnFrac (n d : Nat) : Int :=
  let v := n * 2 ^ 160 / d
  let e := Nat.log2 v
  let m := if e < 96 then v * 2 ^ (96 - e) else v / 2 ^ (e - 96)
  (lnMant m : Int) + ((e : Int) - 160) * (ln2 : Int)

/-- Terms of the exponential series. -/
def expSum (r : Nat) : Nat → Nat → Nat → Nat
  | 0, _, t => t
  | n + 1, k, t => t + expSum r n (k + 1) (t * r / fpOne / k)

/-- exp of a fixed-point number. -/
def expFix (y : Int) : Nat :=
  let n := y / (ln2 : Int)
  let r := (y - n * (ln2 : Int)).toNat
  let m := expSum r 30 1 fpOne
  if 0 ≤ n then m * 2 ^ n.toNat else m / 2 ^ (-n).toNat

/-- (n / d) to the power p / q, 0 for n = 0. -/
def powFrac (n d p q : Nat) : Nat := if n = 0 then 0 else expFix (lnFrac n d * p / q)

/-- Constants of ST 2084 over 2^17 and 2^12: m1, m2, c1, c2, c3 as fractions. -/
def pqEotf (i : Nat) : Nat × Nat :=
  let e := powFrac i 4095 (4096 * 32) (2523 * 4096)
  let num := e - 3424 * fpOne / 4096
  let den := 2413 * 32 * fpOne / 4096 - 2392 * 32 * e / 4096
  (num, den)

/-- HLG: a over 10^8. -/
def hlgA : Nat := 17883277
/-- c of HLG, fixed point: 0.5 − a ln(4a). -/
def hlgC : Int := (fpOne : Int) / 2 - lnFrac (4 * hlgA) 100000000 * hlgA / 100000000

/-- F(V) of a preset table at V = i / 4095, fixed point (R306). -/
def presetF (table i : Nat) : Nat :=
  match table with
  | 1 => if i * 100000 ≤ 4045 * 4095 then i * 100 * fpOne / (4095 * 1292)
         else powFrac (i * 1000 + 55 * 4095) (1055 * 4095) 24 10
  | 2 => powFrac i 4095 24 10
  | 3 =>
    let (n, d) := pqEotf i
    10 * powFrac n d 16384 2610
  | 4 => if 2 * i ≤ 4095 then i * i * fpOne / (3 * 4095 * 4095)
         else (expFix (((i : Int) * fpOne / 4095 - hlgC) * 100000000 / hlgA) + (100000000 - 4 * hlgA) * fpOne / 100000000) / 12
  | 5 => if i * 10000000 ≤ 31308 * 4095 then i * 1292 * fpOne / (4095 * 100)
         else 1055 * powFrac i 4095 10 24 / 1000 - 55 * fpOne / 1000
  | 6 => powFrac i 4095 10 24
  | 7 =>
    let ym := powFrac i 40950 2610 16384
    powFrac (3424 * fpOne + 2413 * 32 * ym) (4096 * fpOne + 2392 * 32 * ym) (2523 * 128) 4096
  | 8 => if 12 * i ≤ 4095 then powFrac (3 * i) 4095 1 2
         else ((lnFrac (12 * i * 100000000 - (100000000 - 4 * hlgA) * 4095) (4095 * 100000000) * hlgA / 100000000) + hlgC).toNat
  | _ => i * fpOne / 4095

/-- Entry i of a preset table, halves rounded up. -/
def presetEntry (table i : Nat) : Nat := min laneMax ((presetF table i * laneOne * 2 + fpOne) / (2 * fpOne))

/-! ### Preset scaler sets (R301) -/

/-- LANCZOS3: the six coefficients of each phase. -/
def lanczos3 : List (List Int) :=
  [[0, 0, 16384, 0, 0, 0],
   [100, -405, 16356, 442, -111, 2],
   [190, -772, 16272, 919, -232, 7],
   [268, -1101, 16131, 1432, -363, 17],
   [335, -1393, 15936, 1977, -501, 30],
   [391, -1646, 15686, 2553, -647, 47],
   [436, -1862, 15384, 3157, -799, 68],
   [470, -2040, 15029, 3787, -955, 93]] ++
  [[493, -2184, 14628, 4440, -1114, 121],
   [507, -2292, 14179, 5112, -1274, 152],
   [513, -2367, 13685, 5800, -1432, 185],
   [510, -2411, 13153, 6499, -1587, 220],
   [499, -2425, 12583, 7206, -1736, 257],
   [482, -2411, 11980, 7916, -1877, 294],
   [459, -2372, 11349, 8624, -2007, 331],
   [432, -2309, 10693, 9326, -2125, 367]] ++
  [[401, -2226, 10017, 10017, -2226, 401],
   [367, -2125, 9326, 10693, -2309, 432],
   [331, -2007, 8624, 11349, -2372, 459],
   [294, -1877, 7916, 11980, -2411, 482],
   [257, -1736, 7206, 12583, -2425, 499],
   [220, -1587, 6499, 13153, -2411, 510],
   [185, -1432, 5800, 13685, -2367, 513],
   [152, -1274, 5112, 14179, -2292, 507]] ++
  [[121, -1114, 4440, 14628, -2184, 493],
   [93, -955, 3787, 15029, -2040, 470],
   [68, -799, 3157, 15384, -1862, 436],
   [47, -647, 2553, 15686, -1646, 391],
   [30, -501, 1977, 15936, -1393, 335],
   [17, -363, 1432, 16131, -1101, 268],
   [7, -232, 919, 16272, -772, 190],
   [2, -111, 442, 16356, -405, 100]]

/-- CUBIC: weights of phase p over 65,536. -/
def cubicWeights (p : Nat) : List Int :=
  let t : Int := p
  [-t * t * t + 64 * t * t - 1024 * t, 3 * t * t * t - 160 * t * t + 65536,
   -3 * t * t * t + 128 * t * t + 1024 * t, t * t * t - 32 * t * t]

/-- A weight over 65,536 rounded to 16,384ths, halves away from zero. -/
def roundWeight (w : Int) : Int :=
  let r : Nat := (2 * w.natAbs + 4) / 8
  if w < 0 then -(r : Int) else r

/-- The coefficients of a phase of CUBIC with the shortfall added to the heaviest tap. -/
def cubicPhase (p : Nat) : List Int :=
  let w := cubicWeights p
  let c := w.map roundWeight
  let short : Int := 16384 - c.foldl (· + ·) 0
  let big := w.foldl (fun m x => max m x.natAbs) 0
  let at_ := (firstIdx (fun k => (w.getD k 0).natAbs == big) 4 0).getD 0
  c.set at_ (c.getD at_ 0 + short)

/-- TAPS of a preset set. -/
def presetTaps : Nat → Nat
  | 0 => 1 | 1 => 2 | 2 => 4 | 3 => 6 | _ => 0

/-- Coefficient of tap k at phase p of a preset set. -/
def presetCoef (set p k : Nat) : Int :=
  match set with
  | 0 => if k = 0 then 16384 else 0
  | 1 => if k = 0 then 16384 - 512 * p else if k = 1 then 512 * p else 0
  | 2 => (cubicPhase p).getD k 0
  | 3 => (lanczos3.getD p []).getD k 0
  | _ => 0

/-! ### Preset matrices (R304) -/

/-- Rows of a preset matrix with their offsets. -/
def presetMx : Nat → List (List Int)
  | 0 => [[16384, 0, 0, 0], [0, 16384, 0, 0], [0, 0, 16384, 0]]
  | 1 => [[19152, 0, 29487, -15941], [19152, -3508, -8765, 4939], [19152, 34745, 0, -18570]]
  | 2 => [[19152, 0, 27611, -15003], [19152, -3081, -10698, 5692], [19152, 35228, 0, -18811]]
  | 3 => [[10279, 5395, 710, 0], [1132, 15066, 186, 0], [269, 1442, 14673, 0]]
  | 4 => [[27206, -9628, -1194, 0], [-2041, 18562, -137, 0], [-297, -1648, 18329, 0]]
  | 5 => [[12351, 3254, 779, 0], [749, 15431, 204, 0], [-20, 288, 16116, 0]]
  | 6 => [[20069, -3685, 0, 0], [-689, 17073, 0, 0], [-322, -1288, 17994, 0]]
  | _ => []

/-! ### Stores in force (R331, R332) -/

/-- Entry i of the transfer table in a slot. -/
def Dev.tableEntry (d : Dev) (t i : Nat) : Nat :=
  if t ≤ 8 then presetEntry t i else leAt (Tab.getD d.comp.tables t []) (4 * i) 4

/-- A lane through a table (R305). -/
def Dev.applyTable (d : Dev) (t x : Nat) : Nat :=
  if t = 0 then x
  else
    let p := x * 4095
    let i := p / laneOne
    if i ≤ 4094 then
      let f := p / 4096 % 64
      (d.tableEntry t i * (64 - f) + d.tableEntry t (i + 1) * f + 32) / 64
    else
      let hi : Int := d.tableEntry t 4095
      let lo : Int := d.tableEntry t 4094
      clampNat (hi + ((hi - lo) * ((p - 4095 * laneOne : Nat) : Int) + 131072) / (laneOne : Int)) laneMax

/-- Coefficient j of row r of the matrix in a slot. -/
def Dev.mxCoef (d : Dev) (m r j : Nat) : Int :=
  if m ≤ 6 then ((presetMx m).getD r []).getD j 0 else signed 32 (leAt (Tab.getD d.comp.mats m []) (16 * r + 4 * j) 4)

/-- Lanes through a matrix (R303). -/
def Dev.applyMx (d : Dev) (m : Nat) (p : Lanes) : Lanes :=
  if m = 0 then p
  else
    let row (r : Nat) : Nat :=
      clampNat ((d.mxCoef m r 0 * p.c0 + d.mxCoef m r 1 * p.c1 + d.mxCoef m r 2 * p.c2 + d.mxCoef m r 3 * laneOne + 8192) / 16384) laneMax
    ⟨row 0, row 1, row 2, p.alpha⟩

/-- TAPS of the scaler set in a slot. -/
def Dev.setTaps (d : Dev) (n : Nat) : Nat := if n ≤ 3 then presetTaps n else (Tab.getD d.comp.sets n (0, [])).1

/-- Coefficient of tap k at phase p of the scaler set in a slot. -/
def Dev.setCoef (d : Dev) (n p k : Nat) : Int :=
  if n ≤ 3 then presetCoef n p k else signed 16 (leAt (Tab.getD d.comp.sets n (0, [])).2 (16 * p + 2 * k) 2)

/-- The efficiency of an ageing curve at a dose (R373). -/
def Dev.curveAt (d : Dev) (n dose : Nat) : Nat :=
  let c := Tab.getD d.comp.curves n []
  let e (j : Nat) : Nat := leAt c (2 * j) 2
  let sh := byteAt c 512
  let j := dose / 2 ^ sh
  if 255 ≤ j then e 255
  else
    let r := dose / 2 ^ (sh - 8) % 256
    (e j * (256 - r) + e (j + 1) * r + 128) / 256

/-! ### Load bodies (R295, R333, R334, R374) -/

/-- Body length of a store. -/
def storeBytes : Nat → Nat
  | 0 => 512 | 1 => 16384 | 2 => 48 | 3 => 520 | _ => 0

/-- Slots of a store, and how many of them are presets. -/
def storeSlots : Nat → Nat
  | 0 => 16 | 1 => 32 | 2 => 64 | 3 => 16 | _ => 0
def storePresets : Nat → Nat
  | 0 => 4 | 1 => 9 | 2 => 7 | _ => 0

/-- Reserved bytes of a body are 0 (R13, R374). -/
def storeReservedOk (store : Nat) (b : List Byte) : Bool := store != 3 || allZero (slice b 513 7)

/-- A body keeps the rules of its store. -/
def storeBodyOk (store taps : Nat) (b : List Byte) : Bool :=
  b.length == storeBytes store &&
  match store with
  | 0 =>
    let coef (p k : Nat) : Int := signed 16 (leAt b (16 * p + 2 * k) 2)
    (List.range 32).all (fun p =>
      (List.range 8).all (fun k => decide (k < taps) || coef p k == 0) &&
        (List.range 8).foldl (fun a k => a + coef p k) 0 == 16384)
  | 1 => (List.range 4096).all (fun i => decide (leAt b (4 * i) 4 < 2 ^ 20))
  | 2 => (List.range 12).all (fun i =>
      let v := signed 32 (leAt b (4 * i) 4)
      decide (-131072 ≤ v) && decide (v ≤ 131071))
  | 3 =>
    let e (j : Nat) : Nat := leAt b (2 * j) 2
    e 0 == 0xFFFF && (List.range 255).all (fun j => decide (e (j + 1) ≤ e j)) && e 255 != 0 &&
      decide (8 ≤ byteAt b 512) && decide (byteAt b 512 ≤ 24)
  | _ => false

end Sys2Proof.Machine
end

