-- ==== Sys2Proof/Machine/Layer.lean ====
section
/-! DEFINITION. Layers: records, checks, footprints, damage, and the pixels a layer contributes (R282 to R300,
R315 to R318, R322 to R325, R394 to R396). -/

namespace Sys2Proof.Machine

/-! ### Fields of a layer record (R283) -/

def lKind (r : List Byte) : Nat := byteAt r 4
def lFlag (r : List Byte) (i : Nat) : Bool := tbit (byteAt r 5) i
def lVisible (r : List Byte) : Bool := lFlag r 0
def lPremult (r : List Byte) : Bool := lFlag r 1
def lOpaque (r : List Byte) : Bool := lFlag r 2
def lZ (r : List Byte) : Nat := byteAt r 6
def lRung (r : List Byte) : Nat := byteAt r 7
def lSource (r : List Byte) : Nat := leAt r 8 4
def lTargetB (r : List Byte) : Nat := leAt r 12 4
def lCropX (r : List Byte) : Nat := leAt r 16 2
def lCropY (r : List Byte) : Nat := leAt r 18 2
def lCropW (r : List Byte) : Nat := leAt r 20 2
def lCropH (r : List Byte) : Nat := leAt r 22 2
def lDstX (r : List Byte) : Int := signed 32 (leAt r 24 4)
def lDstY (r : List Byte) : Int := signed 32 (leAt r 28 4)
def lDstW (r : List Byte) : Nat := leAt r 32 2
def lDstH (r : List Byte) : Nat := leAt r 34 2
def lPhaseX (r : List Byte) : Int := signed 32 (leAt r 36 4)
def lPhaseY (r : List Byte) : Int := signed 32 (leAt r 40 4)
def lHset (r : List Byte) : Nat := byteAt r 44
def lVset (r : List Byte) : Nat := byteAt r 45
def lOpacity (r : List Byte) : Nat := leAt r 46 2
def lKeyMode (r : List Byte) : Nat := byteAt r 48 % 4
def lKeyA (r : List Byte) : Bool := tbit (byteAt r 48) 2
def lKeySoft (r : List Byte) : Nat := byteAt r 49
def lKeyAlpha (r : List Byte) : Nat := leAt r 50 2
def lKeyC (r : List Byte) (i : Nat) : Nat := leAt r (52 + 4 * i) 4
def lKeyTol (r : List Byte) : Nat := leAt r 64 4
def lTable (r : List Byte) : Nat := byteAt r 68
def lPreMx (r : List Byte) : Nat := byteAt r 69
def lPostMx (r : List Byte) : Nat := byteAt r 70
def lTargetDev (r : List Byte) : Nat := byteAt r 71
def lFillC (r : List Byte) (i : Nat) : Nat := leAt r (72 + 4 * i) 4
def lFillA (r : List Byte) : Nat := leAt r 84 2
def lEnv (r : List Byte) : Rect := ⟨leAt r 88 2, leAt r 90 2, leAt r 92 2, leAt r 94 2⟩
def lCseq (r : List Byte) : Nat := leAt r 96 8

/-- A rectangle at a signed position meets a rectangle of the board. -/
def dstMeets (x y : Int) (w h : Nat) (p : Rect) : Bool :=
  decide (x < (p.x + p.w : Nat)) && decide ((p.x : Int) < x + w) && decide (y < (p.y + p.h : Nat)) && decide ((p.y : Int) < y + h) &&
    decide (0 < p.w) && decide (0 < p.h)

/-- The footprint or capture rectangle of a layer meets a board rectangle (R286). -/
def lMeets (r : List Byte) (p : Rect) : Bool := dstMeets (lDstX r) (lDstY r) (lDstW r) (lDstH r) p

/-- The part of a board rectangle inside the footprint. -/
def lInter (r : List Byte) (p : Rect) : Rect :=
  if lMeets r p then
    let x0 := (max (p.x : Int) (lDstX r)).toNat
    let y0 := (max (p.y : Int) (lDstY r)).toNat
    let x1 := (min ((p.x + p.w : Nat) : Int) (lDstX r + lDstW r)).toNat
    let y1 := (min ((p.y + p.h : Nat) : Int) (lDstY r + lDstH r)).toNat
    ⟨x0, y0, x1 - x0, y1 - y0⟩
  else ⟨p.x, p.y, 0, 0⟩

/-- A layer draws: its KIND is SOURCE or FILL (R328). -/
def lDraws (r : List Byte) : Bool := lKind r != 2

/-- A layer is unscaled (R300). -/
def lUnscaled (r : List Byte) : Bool :=
  lCropW r == lDstW r && lCropH r == lDstH r && lPhaseX r == 0 && lPhaseY r == 0

/-- STEP of R296. -/
def stepOf (crop dst : Nat) : Nat := (crop * 2097152 + dst) / (2 * dst)

/-- START of R296. -/
def startOf (step : Nat) (phase : Int) : Int := (step / 2 : Nat) - 524288 + phase

/-! ### Marking damage (R395) -/

/-- D set on one patch, whatever its S. -/
def Dev.mark (d : Dev) (k : Nat) : Dev :=
  if k ∈ d.push.dmg then d else { d with push := { d.push with dmg := k :: d.push.dmg } }

/-- D set on every patch of a list. -/
def Dev.markAll (d : Dev) (l : List Nat) : Dev := l.foldl Dev.mark d

/-- Patches of this device that a board rectangle meets. -/
def Dev.patchesIn (d : Dev) (r : Rect) : List Nat := d.allPatches.filter (fun k => (d.patchRect k).meets r)

/-- Patches that a layer's footprint or capture rectangle meets. -/
def Dev.patchesOf (d : Dev) (rec : List Byte) : List Nat := d.allPatches.filter (fun k => lMeets rec (d.patchRect k))

/-- D set on every patch of a square. -/
def Dev.markSquare (d : Dev) (sq : Nat) : Dev :=
  match d.square? sq with
  | some q => d.markAll (squarePatches sq q)
  | none => d

/-- D set on every patch that a layer's footprint meets; a CAPTURE layer contributes no pixels and marks
its rectangle only under R325. -/
def Dev.markLayer (d : Dev) (rec : List Byte) : Dev := if lDraws rec then d.markAll (d.patchesOf rec) else d

/-- The footprint positions of one axis, first and one past the last, that a range of source positions maps onto:
cut to the crop, widened by ceil(TAPS / 2) where the layer is scaled, mapped under R296 and rounded outward (R594). -/
def mapAxis (crop cropLen dst : Nat) (phase : Int) (flip unscaled : Bool) (taps lo len : Nat) : Nat × Nat :=
  let a := max lo crop - crop
  let b := min (lo + len) (crop + cropLen) - crop
  if b ≤ a then (0, 0)
  else
    let w : Int := if unscaled then 0 else ((taps + 1) / 2 : Nat)
    let step : Int := if unscaled then 1048576 else stepOf cropLen dst
    let p : Int := if unscaled then 0 else phase
    let l := clampNat ((((a : Int) - w) * 1048576 - p) / step) dst
    let r := clampNat (-((p - ((b : Int) + w) * 1048576) / step)) dst
    if flip then (dst - r, dst - l) else (l, r)

/-- D set on the patches of every LIVE SOURCE layer that names a surface, where a written rectangle of it maps (R594). -/
def Dev.sourceDamage (d : Dev) (surf x y w h : Nat) : Dev :=
  (d.liveOf clsLayer).foldl (fun (d : Dev) p =>
    let r := p.2.record
    if lKind r = 0 ∧ p.2.home = none ∧ handleCls (lSource r) = clsSurface ∧ handleIdx (lSource r) = surf ∧
        (d.handleOf? clsSurface (lSource r)).isSome then
      let taps := max (d.setTaps (lHset r)) (d.setTaps (lVset r))
      let ax := mapAxis (lCropX r) (lCropW r) (lDstW r) (lPhaseX r) (lFlag r 3) (lUnscaled r) taps x w
      let ay := mapAxis (lCropY r) (lCropH r) (lDstH r) (lPhaseY r) (lFlag r 4) (lUnscaled r) taps y h
      if ax.2 ≤ ax.1 ∨ ay.2 ≤ ay.1 then d
      else d.markAll (d.allPatches.filter (fun k => dstMeets (lDstX r + ax.1) (lDstY r + ay.1) (ax.2 - ax.1) (ay.2 - ay.1) (d.patchRect k)))
    else d) d

/-! ### Reading the source of a layer -/

/-- Chroma of pair p of a frame row. -/
def State.yccPair (s : State) (u : Surf) (p y off : Nat) : Nat := leOf (s.surfGet u (y * u.pitch + 8 * p + off) 2)

/-- A source pixel unpacked (R290 to R292). `fw` is the frame's width. -/
def State.rawPixel (s : State) (u : Surf) (fw x y : Nat) : Lanes :=
  if isYcc u.fmt then
    let p := x / 2
    let next := if p + 1 < fw / 2 then p + 1 else p
    let lum := s.yccPair u p y (if x % 2 = 0 then 2 else 6)
    let chroma (off : Nat) : Nat :=
      if x % 2 = 0 then s.yccPair u p y off else (s.yccPair u p y off + s.yccPair u next y off + 1) / 2
    ⟨lum * 4, chroma 0 * 4, chroma 4 * 4, 0xFFFF⟩
  else unpackPixel u.fmt (leOf (s.pixelBytes u x y))

/-- |a − b|. -/
def absDiff (a b : Nat) : Nat := (a - b) + (b - a)

/-- The Key stage (R293). -/
def keyPixel (r : List Byte) (p : Lanes) : Lanes :=
  if lKeyMode r = 0 then p
  else
    let d := max (max (absDiff p.c0 (lKeyC r 0)) (absDiff p.c1 (lKeyC r 1))) (absDiff p.c2 (lKeyC r 2))
    let d := if lKeyA r then max d (4 * absDiff p.alpha (lKeyAlpha r)) else d
    let soft := lKeySoft r
    let ka :=
      if d ≤ lKeyTol r then 0
      else if soft = 0 then 0xFFFF
      else min 0xFFFF (((d - lKeyTol r) * 0xFFFF + 2 ^ (soft - 1)) / 2 ^ soft)
    let ka := if lKeyMode r = 2 then 0xFFFF - ka else ka
    let a := mul p.alpha ka
    if lPremult r then ⟨mul p.c0 ka, mul p.c1 ka, mul p.c2 ka, a⟩ else ⟨p.c0, p.c1, p.c2, a⟩

/-- A crop axis as a latched frame leaves it: pixels of the crop inside the frame (R317). -/
def cropEnd (crop len frame : Nat) : Nat := min (crop + len) frame

/-- The pixel a tap reads at a source position, keyed (R298). Where no crop pixel lies inside the frame, CLAMP
has no nearest pixel: the value is open. -/
def State.tapPixel (s : State) (l : Latch) (u : Surf) (x y : Int) : Lanes :=
  let r := l.record
  let x0 := lCropX r
  let y0 := lCropY r
  let x1 := cropEnd x0 (lCropW r) l.fw
  let y1 := cropEnd y0 (lCropH r) l.fh
  let inside := decide ((x0 : Int) ≤ x) && decide (x < x1) && decide ((y0 : Int) ≤ y) && decide (y < y1)
  if inside then keyPixel r (s.rawPixel u l.fw x.toNat y.toNat)
  else if lFlag r 5 then Lanes.zero
  else if x1 ≤ x0 ∨ y1 ≤ y0 then
    let v := (Config.freeValue 6 (x.toNat * 65536 + y.toNat)).toNat
    ⟨v % 2 ^ 20, v / 2 ^ 20 % 2 ^ 20, v / 2 ^ 40 % 2 ^ 20, v / 2 ^ 48⟩
  else keyPixel r (s.rawPixel u l.fw (clampInt x x0 (x1 - 1 : Nat)).toNat (clampInt y y0 (y1 - 1 : Nat)).toNat)

/-- First tap and phase of a position (R297). -/
def tapsAt (taps : Nat) (pos : Int) : Int × Nat :=
  if taps % 2 = 0 then (pos / 1048576 - (taps / 2 - 1 : Nat), (pos / 32768 % 32).toNat)
  else
    let q := pos + 524288
    (q / 1048576 - ((taps - 1) / 2 : Nat), (q / 32768 % 32).toNat)

/-- A filter sum with its rounding shift. -/
def filterSum (coefs vals : List Int) : Int := ((coefs.zip vals).foldl (fun a p => a + p.1 * p.2) 0 + 8192) / 16384

/-- Source position of footprint column or row (R296). -/
def srcPos (crop cropLen dst : Nat) (phase : Int) (flip : Bool) (u : Nat) : Int :=
  let v := if flip then dst - 1 - u else u
  (crop : Int) * 1048576 + startOf (stepOf cropLen dst) phase + (v : Int) * stepOf cropLen dst

/-- The scaled pixel of a layer at a footprint position (R296 to R300). -/
def State.layerSample (s : State) (l : Latch) (src : Surf) (ux uy : Nat) : Lanes :=
  let r := l.record
  if lUnscaled r then
    let x := if lFlag r 3 then lDstW r - 1 - ux else ux
    let y := if lFlag r 4 then lDstH r - 1 - uy else uy
    s.tapPixel l src ((lCropX r + x : Nat) : Int) ((lCropY r + y : Nat) : Int)
  else
    let th := s.dev.setTaps (lHset r)
    let tv := s.dev.setTaps (lVset r)
    let (x0, ph) := tapsAt th (srcPos (lCropX r) (lCropW r) (lDstW r) (lPhaseX r) (lFlag r 3) ux)
    let (y0, pv) := tapsAt tv (srcPos (lCropY r) (lCropH r) (lDstH r) (lPhaseY r) (lFlag r 4) uy)
    let ch := (List.range th).map (fun k => s.dev.setCoef (lHset r) ph k)
    let cv := (List.range tv).map (fun k => s.dev.setCoef (lVset r) pv k)
    let rows := (List.range tv).map (fun j => (List.range th).map (fun i => s.tapPixel l src (x0 + i) (y0 + j)))
    let lane (f : Lanes → Nat) (bound : Int) (hi : Nat) : Nat :=
      let hs := rows.map (fun row => clampInt (filterSum ch (row.map (fun p => (f p : Int)))) (-bound) (bound - 1))
      clampNat (filterSum cv hs) hi
    ⟨lane Lanes.c0 2097152 laneMax, lane Lanes.c1 2097152 laneMax, lane Lanes.c2 2097152 laneMax,
     lane Lanes.alpha 131072 0xFFFF⟩

/-- The working pixel of a layer at a board position, with its scaled alpha (R293 to R305, R310). -/
def State.layerPixel (s : State) (l : Latch) (x y : Nat) : Lanes :=
  let r := l.record
  if lKind r = 1 then ⟨lFillC r 0, lFillC r 1, lFillC r 2, lFillA r⟩
  else
    match l.src.bind s.dev.surf? with
    | none => Lanes.zero
    | some u =>
      let p := s.layerSample l u ((x : Int) - lDstX r).toNat ((y : Int) - lDstY r).toNat
      let p := s.dev.applyMx (lPreMx r) p
      let t (v : Nat) : Nat := s.dev.applyTable (lTable r) v
      let p := s.dev.applyMx (lPostMx r) ⟨t p.c0, t p.c1, t p.c2, p.alpha⟩
      if lOpaque r then { p with alpha := 0xFFFF } else p

/-! ### Which source pixels a patch reads -/

/-- First and last source coordinate that footprint positions a to b read on one axis, inside the crop. -/
def readSpan (crop cropLen dst : Nat) (phase : Int) (flip unscaled : Bool) (taps a b : Nat) : Nat × Nat :=
  let ends : List (Int × Int) := [a, b].map (fun (u : Nat) =>
    if unscaled then (((crop + if flip then dst - 1 - u else u : Nat) : Int), ((crop + if flip then dst - 1 - u else u : Nat) : Int))
    else
      let t := (tapsAt taps (srcPos crop cropLen dst phase flip u)).1
      (t, t + taps - 1))
  let lo := ends.foldl (fun (m : Int) (e : Int × Int) => min m e.1) ((crop + cropLen : Nat) : Int)
  let hi := ends.foldl (fun (m : Int) (e : Int × Int) => max m e.2) (crop : Int)
  ((clampInt lo crop (crop + cropLen - 1 : Nat)).toNat, (clampInt hi crop (crop + cropLen - 1 : Nat)).toNat)

/-- The rectangle of source pixels that a layer reads for a board rectangle. -/
def State.readRect (s : State) (l : Latch) (p : Rect) : Rect :=
  let r := l.record
  let i := lInter r p
  let ux := ((i.x : Int) - lDstX r).toNat
  let uy := ((i.y : Int) - lDstY r).toNat
  let un := lUnscaled r
  let (x0, x1) := readSpan (lCropX r) (lCropW r) (lDstW r) (lPhaseX r) (lFlag r 3) un (s.dev.setTaps (lHset r)) ux (ux + i.w - 1)
  let (y0, y1) := readSpan (lCropY r) (lCropH r) (lDstH r) (lPhaseY r) (lFlag r 4) un (s.dev.setTaps (lVset r)) uy (uy + i.h - 1)
  let x1 := min (x1 + 1) l.fw
  let y1 := min (y1 + 1) l.fh
  ⟨x0, y0, x1 - x0, y1 - y0⟩

/-- Kamius blocks that meet a rectangle of pixels. -/
def Surf.blocksMeeting (u : Surf) (q : Rect) : List Nat :=
  if q.w = 0 ∨ q.h = 0 then []
  else
    (List.range ((q.y + q.h - 1) / 8 - q.y / 8 + 1)).flatMap (fun j =>
      (List.range ((q.x + q.w - 1) / 8 - q.x / 8 + 1)).map (fun i => (q.y / 8 + j) * u.bw + q.x / 8 + i))

/-- Any flit that a layer's fetch for a board rectangle reads is poisoned (R250, R318). -/
def State.layerPoisoned (s : State) (l : Latch) (p : Rect) : Bool :=
  if s.dev.mem.poison.isEmpty then false
  else
    match l.src.bind s.dev.surf? with
    | none => false
    | some u =>
      let q := s.readRect l p
      if u.kamius then
        (u.blocksMeeting q).any (fun b =>
          (s.surfPoison u (u.hdrOff b) 4).isSome ||
            (s.surfPoison u (u.slotOff b) (bits (leOf (s.surfGet u (u.hdrOff b) 4)) 9 0)).isSome)
      else (List.range q.h).any (fun j =>
        (s.surfPoison u ((q.y + j) * u.pitch + q.x * bppOf u.fmt) (q.w * bppOf u.fmt)).isSome)

/-! ### Checks of a request (R284, R285, R322 to R324) -/

/-- Reserved bits and MODE, KIND of a requested record. -/
def layerFormOk (r : List Byte) : Bool :=
  decide (lKind r ≤ 2) && lKeyMode r != 3 && lHset r / 16 == 0 && lVset r / 16 == 0 && byteAt r 48 / 8 == 0 &&
    leAt r 86 2 == 0

/-- A LIVE channel that a handle names for function f: its class and channel. -/
def Dev.named? (d : Dev) (f h : Nat) : Option (Nat × Chan) :=
  match d.handle? h with
  | some c => if c.mayName f then some (handleCls h, c) else none
  | none => none

/-- The handles that a layer names are good. -/
def Dev.layerHandlesOk (d : Dev) (f : Nat) (r : List Byte) : Bool :=
  if lKind r = 0 then
    match d.named? f (lSource r) with
    | some (cls, c) => cls == clsSurface || cls == clsIngest || cls == clsClip || (cls == clsLayer && lKind c.record == 2)
    | none => false
  else if lKind r = 2 ∧ lTargetDev r = d.get R.PUSH_DEV_INDEX then
    (match d.named? f (lSource r) with | some (cls, _) => cls == clsSurface | none => false) &&
      (lTargetB r == 0 || (match d.named? f (lTargetB r) with | some (cls, _) => cls == clsSurface | none => false))
  else true

/-- The surface a SOURCE layer's crop must lie in: the named surface, or target A of the named CAPTURE layer. -/
def Dev.cropSurface (d : Dev) (r : List Byte) : Option Surf :=
  let h := lSource r
  if handleCls h = clsSurface then d.surf? (handleIdx h)
  else if handleCls h = clsLayer then
    match d.chan? clsLayer (handleIdx h) with
    | some c => d.surf? (handleIdx (lSource c.record))
    | none => none
  else none

/-- Matrix, table and set slots named are valid. -/
def Dev.mxValid (d : Dev) (m : Nat) : Bool := decide (m < 64) && tbit (d.get R.COMP_MX_VALID) m
def Dev.tableValid (d : Dev) (t : Nat) : Bool := decide (t < 32) && tbit (d.get R.COMP_TABLE_VALID) t
def Dev.setValid (d : Dev) (n : Nat) : Bool := decide (n < 16) && tbit (d.get R.COMP_SET_VALID) n

/-- The offset column of a matrix is 0. -/
def Dev.mxNoOffset (d : Dev) (m : Nat) : Bool := (List.range 3).all (fun r => d.mxCoef m r 3 == 0)

/-- A capture rectangle placed in a target surface lies inside it, aligned for Kamius (R322). -/
def captureFits (r : List Byte) (u : Surf) : Bool :=
  decide (lCropX r + lDstW r ≤ u.w) && decide (lCropY r + lDstH r ≤ u.h) &&
    (!u.kamius || (lDstX r % 8 == 0 && lDstY r % 8 == 0 && lDstW r % 8 == 0 && lDstH r % 8 == 0 &&
      lCropX r % 8 == 0 && lCropY r % 8 == 0))

/-- The rules of R322. -/
def Dev.captureOk (d : Dev) (r : List Byte) : Bool :=
  decide (0 ≤ lDstX r) && decide (0 ≤ lDstY r) && decide (lDstX r + lDstW r ≤ d.geo.width) &&
    decide (lDstY r + lDstH r ≤ d.geo.height) &&
    (if lTargetDev r ≠ d.get R.PUSH_DEV_INDEX then decide (lTargetDev r < d.geo.devices)
     else match d.surf? (handleIdx (lSource r)) with
     | none => false
     | some a => captureFits r a &&
        (lTargetB r == 0 ||
         match d.surf? (handleIdx (lTargetB r)) with
         | none => false
         | some b => captureFits r b && a.fmt == b.fmt && a.kamius == b.kamius && a.w == b.w && a.h == b.h))

/-- The rules of R285 and R120. -/
def Dev.layerRangeOk (d : Dev) (r : List Byte) : Bool :=
  let env := lEnv r
  let inDst (v : Int) : Bool := decide (-65536 ≤ v) && decide (v ≤ 65535)
  let inPhase (v : Int) : Bool := decide (-1048576 ≤ v) && decide (v ≤ 1048576)
  decide (lRung r ≤ 7) && inDst (lDstX r) && inDst (lDstY r) && decide (1 ≤ lDstW r) && decide (1 ≤ lDstH r) &&
    decide (1 ≤ env.w) && decide (1 ≤ env.h) && decide (env.x + env.w ≤ d.geo.width) && decide (env.y + env.h ≤ d.geo.height) &&
    inPhase (lPhaseX r) && inPhase (lPhaseY r) &&
    d.setValid (lHset r) && d.setValid (lVset r) && d.tableValid (lTable r) && d.mxValid (lPostMx r) &&
    (lKind r == 2 || d.mxValid (lPreMx r)) &&
    (List.range 3).all (fun i => decide (lKeyC r i ≤ laneMax) && decide (lFillC r i ≤ laneMax)) &&
    decide (lKeySoft r ≤ 20) && decide (lKeyTol r ≤ 1048576) &&
    (!lPremult r || (lTable r == 0 && d.mxNoOffset (lPostMx r) && (lKind r == 2 || d.mxNoOffset (lPreMx r)))) &&
    (!lOpaque r || lKeyMode r == 0) &&
    (if lKind r = 0 then
      decide (1 ≤ lCropW r) && decide (lCropW r ≤ 32768) && decide (1 ≤ lCropH r) && decide (lCropH r ≤ 32768) &&
        decide (16384 ≤ stepOf (lCropW r) (lDstW r)) && decide (stepOf (lCropW r) (lDstW r) ≤ 8388608) &&
        decide (16384 ≤ stepOf (lCropH r) (lDstH r)) && decide (stepOf (lCropH r) (lDstH r) ≤ 8388608) &&
        (match d.cropSurface r with
         | some u => decide (lCropX r + lCropW r ≤ u.w) && decide (lCropY r + lCropH r ≤ u.h)
         | none => true)
     else lCropW r == 0 && lCropH r == 0) &&
    (lKind r == 2 || (lTargetB r == 0 && lTargetDev r == 0 && !lFlag r 7)) &&
    (lKind r != 1 || lSource r == 0) &&
    (lKind r != 2 || (decide (lTargetDev r ≤ 7) && d.captureOk r))

/-- Targets of the LIVE CAPTURE layers that name this device, but the one at an index. -/
def Dev.captureTargets (d : Dev) (but : Option Nat) : List Nat :=
  (d.liveOf clsLayer).flatMap (fun p =>
    if lKind p.2.record = 2 ∧ lTargetDev p.2.record = d.get R.PUSH_DEV_INDEX ∧ some p.1 ≠ but then
      lSource p.2.record :: (if lTargetB p.2.record = 0 then [] else [lTargetB p.2.record])
    else [])

/-- R324: a SOURCE layer that names a capture target or a single-buffer CAPTURE layer; the same for a
CAPTURE layer that takes a surface which a LIVE SOURCE layer names, and for one that loses its second buffer
while a SOURCE layer names it (R175). -/
def Dev.layerCycle (d : Dev) (but : Option Nat) (r : List Byte) : Bool :=
  if lKind r = 0 then
    lSource r ∈ d.captureTargets but ||
      (handleCls (lSource r) == clsLayer &&
        (match d.chan? clsLayer (handleIdx (lSource r)) with | some c => lTargetB c.record == 0 | none => false))
  else if lKind r = 2 then
    (d.liveOf clsLayer).any (fun p => lKind p.2.record == 0 && some p.1 != but &&
      (lSource p.2.record == lSource r || (lTargetB r != 0 && lSource p.2.record == lTargetB r) ||
        (lTargetB r == 0 && handleCls (lSource p.2.record) == clsLayer && some (handleIdx (lSource p.2.record)) == but)))
  else false

/-- Eight other CAPTURE layers name the device already (R323). -/
def Dev.captureFull (d : Dev) (but : Option Nat) (r : List Byte) : Bool :=
  lKind r == 2 &&
    decide (8 ≤ ((d.liveOf clsLayer).filter (fun p => lKind p.2.record == 2 && some p.1 != but &&
      lTargetDev p.2.record == lTargetDev r)).length)

end Sys2Proof.Machine
end

