-- ==== Sys2Proof/Machine/Events.lean ====
section
/-! DEFINITION. The commands of the event controller: pending bits, holdoffs, rings, coalescing (R747 to R760). -/

namespace Sys2Proof.Machine

/-- PEND_CLEAR (R747): a W1C write to word j of `PEND`. -/
def execPendClear (req word : Nat) (value : BitVec 32) (s : State) : Out :=
  onUnit (decide (req < 33) && decide (word < 32)) s (fun d =>
    if fullAccess req then
      d.put (R.EV_PEND word) ((BitVec.ofNat 32 (d.get (R.EV_PEND word))) &&& ~~~value).toNat
    else d)

/-- EVENT_HOLDOFF_END (R749): a holdoff ends; the raises it collected make one delivery, which opens the
next, unless a mask stands then. -/
def execEventHoldoffEnd (event : Nat) (s : State) : Out :=
  onUnit (decide (event < 1024)) s (fun d =>
    match Tab.get? d.ev.holds event with
    | none => d
    | some h =>
      let d := { d with ev := { d.ev with holds := Tab.erase d.ev.holds event } }
      if h.count = 0 || !d.evEnabled event then d
      else
        let d := d.deliver ⟨event, h.count, h.turn, h.detail, h.time, fatalEvent event⟩ (!fatalEvent event)
        if d.get (R.EVC_HOLDOFF event) = 0 then d
        else { d with ev := { d.ev with holds := Tab.set d.ev.holds event ⟨0, 0, 0, 0⟩ } })

/-- EVENT_RING_HEAD_WRITE (R753, R759): the word at 0x10 of ring r. -/
def Dev.eringHead (d : Dev) (r v : Nat) : Dev :=
  let head := bits v 31 16
  if 2 ^ d.get (R.ERING_SIZE_LOG2 r) ≤ head then d.wrange 0x100400 else d.put (R.ERING_HEAD r) head

def execEventRingHeadWrite (req ring : Nat) (value : BitVec 32) (s : State) : Out :=
  onUnit (decide (req < 33) && decide (ring < 32)) s (fun d =>
    if fullAccess req then d.eringHead ring value.toNat else d)

/-- A write to a configuration word of ring r (R759). -/
def Dev.eringConfig (d : Dev) (r off v : Nat) : Dev :=
  let en := d.on (R.ERING_EN r)
  if off = 0 then
    if en && d.get (R.ERING_BASE_LO r) ≠ v then d.wrange 0x100400 else d.put (R.ERING_BASE_LO r) v
  else if off = 4 then
    if en && d.get (R.ERING_BASE_HI r) ≠ v then d.wrange 0x100400 else d.put (R.ERING_BASE_HI r) v
  else if off = 8 then
    let size := bits v 4 0
    let set := tbit v 5
    if en && size ≠ d.get (R.ERING_SIZE_LOG2 r) then d.wrange 0x100400
    else if set && (decide (size < 4) || decide (16 < size) || d.get (R.ERING_BASE_LO r) % 4096 ≠ 0) then
      d.wrange 0x100400
    else
      let d := (d.put (R.ERING_SIZE_LOG2 r) size).put (R.ERING_EN r) (bit v 5)
      let d := (d.put (R.ERING_IRQ_EN r) (bit v 6)).put (R.ERING_VEC r) (bits v 17 7)
      if set && !en then
        let d := ((d.put (R.ERING_TAIL r) 0).put (R.ERING_HEAD r) 0).put (R.ERING_PHASE r) 1
        { d with ev := { d.ev with since := Tab.set d.ev.since r 0 } }
      else d
  else if off = 0xC then
    let n := bits v 8 0
    let us := bits v 18 9
    if n < 1 ∨ 256 < n ∨ 1000 < us then d.wrange 0x100400
    else (d.put (R.ERING_COAL_N r) n).put (R.ERING_COAL_US r) us
  else if off = 0x10 then d.eringHead r v
  else d

/-- EVENT_RING_CONFIG_WRITE. -/
def execEventRingConfigWrite (req ring offset : Nat) (value : BitVec 32) (s : State) : Out :=
  onUnit (decide (req < 33) && decide (ring < 32)) s (fun d =>
    if fullAccess req then d.eringConfig ring offset value.toNat else d)

/-- COAL_TIMEOUT (R704, R756): COAL_US µs have passed since the first entry after the last signal. -/
def execCoalTimeout (ring : CoalRing) (s : State) : Out :=
  match ring with
  | .completion c =>
    onUnit (decide (c < 256)) s (fun d =>
      if d.on (R.CQ_IRQ_EN c) && d.get (R.CQ_COAL_US c) ≠ 0 && Tab.getD d.q.since c 0 ≠ 0 then
        ({ d with q := { d.q with since := Tab.set d.q.since c 0 } }).msi (ringFn c) (d.get (R.CQ_VEC c))
      else d)
  | .event r =>
    onUnit (decide (r < 32)) s (fun d =>
      if d.on (R.ERING_IRQ_EN r) && d.get (R.ERING_COAL_US r) ≠ 0 && Tab.getD d.ev.since r 0 ≠ 0 then
        ({ d with ev := { d.ev with since := Tab.set d.ev.since r 0 } }).msi 0 (d.get (R.ERING_VEC r))
      else d)

/-! ### PCI Express configuration space and link (R676, R709, R710, R751, R867) -/

/-- Vectors of function f that are unmasked now leave the pending-bit array. -/
def Dev.releasePending (d : Dev) (fn : Nat) : Dev :=
  let ready := d.ev.pba.filter (fun k => k / 2048 = fn && !(fn ∈ d.ev.msixMask) && decide (k ∈ d.ev.unmasked))
  let d := { d with ev := { d.ev with pba := d.ev.pba.filter (fun k => !(k ∈ ready)) } }
  ready.foldl (fun d k => d.msi fn (k % 2048)) d

/-- A list with an element put in or taken out. -/
def putMember (l : List Nat) (x : Nat) (b : Bool) : List Nat :=
  if b then (if x ∈ l then l else x :: l) else l.filter (· ≠ x)

/-- CONFIGURATION_SPACE_WRITE (R676, R714, R751). -/
def execConfigurationSpaceWrite (w : CfgWrite) (s : State) : Out :=
  match w with
  | .numVfs n => .next (s.upd fun d => if n ≤ 31 then d.put R.QB_NUM_VFS n else d)
  | .vfEnable on => .next (s.upd fun d => { d with ev := { d.ev with vfEnable := on } })
  | .msixEnable fn on => onUnit (decide (fn < 32)) s (fun d =>
      ({ d with ev := { d.ev with msixEn := putMember d.ev.msixEn fn on } }).releasePending fn)
  | .msixFunctionMask fn on => onUnit (decide (fn < 32)) s (fun d =>
      ({ d with ev := { d.ev with msixMask := putMember d.ev.msixMask fn on } }).releasePending fn)
  | .busMaster fn on => onUnit (decide (fn < 32)) s (fun d =>
      { d with ev := { d.ev with busMaster := putMember d.ev.busMaster fn on } })
  | .msixVectorMask fn vec on => onUnit (decide (fn < 32) && decide (vec < 2048)) s (fun d =>
      ({ d with ev := { d.ev with unmasked := putMember d.ev.unmasked (fn * 2048 + vec) (!on) } }).releasePending fn)
  | .other fn => onUnit (decide (fn < 32)) s (fun d => d)

/-- The MSI-X table and enables of function f cleared. -/
def Dev.clearMsix (d : Dev) (f : Nat) : Dev :=
  { d with ev := { d.ev with
      msixEn := d.ev.msixEn.filter (· ≠ f), msixMask := d.ev.msixMask.filter (· ≠ f),
      busMaster := d.ev.busMaster.filter (· ≠ f),
      unmasked := d.ev.unmasked.filter (fun k => k / 2048 ≠ f),
      pba := d.ev.pba.filter (fun k => k / 2048 ≠ f) } }

/-- Queues of function f. -/
def queuesOf (f : Nat) : List Nat :=
  (List.range 32).map (fun i => 32 * f + i) ++ (if f = 0 then (List.range 8).map (fun i => 1024 + i) else [])

/-- Completion rings of function f. -/
def ringsOf (f : Nat) : List Nat := (List.range 8).map (fun i => 8 * f + i)

/-- A queue disabled at once, with nothing outstanding (R709, R710). -/
def Dev.killQueue (d : Dev) (q : Nat) : Dev :=
  if d.on (qEN q) || d.get (qSTATE q) ≠ 0 then ((d.put (qEN q) 0).put (qOUT q) 0).put (qSTATE q) 0 else d

/-- A completion ring disabled at once; what it held or was owed is discarded (R709, R711). -/
def Dev.killRing (d : Dev) (c : Nat) (owed : Bool) : Dev :=
  let held := Tab.getD d.q.held c []
  let d := if held ≠ [] || (owed && d.get (R.CQ_RESV c) ≠ 0) then d.ringDrop c else d
  let d := { d with q := { d.q with held := Tab.erase d.q.held c, since := Tab.erase d.q.since c } }
  if d.on (R.CQ_EN c) then ((d.put (R.CQ_EN c) 0).put (R.CQ_HELD c) 0).put (R.CQ_RESV c) 0 else d

/-- Every queue and ring of function f disabled, its started entries discarded without completions. -/
def Dev.killFunction (d : Dev) (f : Nat) (drop : Bool) : Dev :=
  let d := { d with q := { d.q with owed := d.q.owed.filter (fun o => queueFn o.queue ≠ f) } }
  let d := (queuesOf f).foldl (fun d q => d.killQueue q) d
  (ringsOf f).foldl (fun d c => d.killRing c drop) d

/-- FLR (R709): a function-level reset. -/
def execFlr (fn : Nat) (s : State) : Out :=
  onUnit (decide (fn < 32)) s (fun d =>
    let d := (d.killFunction fn true).clearMsix fn
    let d := if fn = 0 then { d with ev := { d.ev with vfEnable := false } } else d
    d.flagRaise R.QB_FLR 33)

/-- Loss of the PCIe link (R710). -/
def Dev.linkLoss (d : Dev) : Dev :=
  if d.on R.QB_LINK_UP then
    let d := (List.range 32).foldl (fun d f => d.killFunction f false) d
    let d := ((d.put R.QB_LINK_UP 0).put R.QB_SPEED 0).put R.QB_WIDTH 0
    d.flagRaise R.QB_LINK_DOWN 32
  else d

/-- PCIE_LINK_LOSS. -/
def execPcieLinkLoss (s : State) : Out := .next (s.upd Dev.linkLoss)

/-- PCIE_LINK_UP (R675, R714): the link has trained to a rate code and a width. -/
def execPcieLinkUp (speed width : Nat) (s : State) : Out :=
  onUnit (decide (1 ≤ speed) && decide (speed ≤ 6) && decide (1 ≤ width) && decide (width ≤ 16)) s (fun d =>
    let was := d.on R.QB_LINK_UP
    let d := ((d.put R.QB_LINK_UP 1).put R.QB_SPEED speed).put R.QB_WIDTH width
    let d := { d with pwr := { d.pwr with perst := false } }
    if was then d else d.raise 32)

/-- PCIE_PERST (R867): PCIE_PERST_N falls; the link is lost and configuration space takes its reset values. -/
def execPciePerst (s : State) : Out :=
  .next (s.upd fun d =>
    let d := d.linkLoss
    let d := { d with ev := { d.ev with
      vfEnable := false, msixEn := [], msixMask := [], busMaster := [], unmasked := [], pba := [] } }
    let d := { d with pwr := { d.pwr with perst := true } }
    d.put R.QB_NUM_VFS 0)

/-- AER_ERROR (R715): an error is logged. -/
def execAerError (uncorrectable : Bool) (s : State) : Out :=
  .next (s.upd fun d => if uncorrectable then d.raise 41 else d.raiseOnce 40)

end Sys2Proof.Machine
end

