-- ==== Sys2Proof/Machine/Queue.lean ====
section
/-! DEFINITION. Submission queues and completion rings: doorbells, configuration, taking an entry, FENCE
(R681 to R714). -/

namespace Sys2Proof.Machine

/-! ### Doorbells (R679, R680, R685, R702, R703) -/

/-- A doorbell write is discarded (R680). -/
def Dev.dbErr (d : Dev) : Dev := (d.bump R.QB_DB_ERR_CNT 1).flagRaiseOnce R.QB_DB_ERR 34

/-- SQ_DOORBELL (R680, R683): the producer index of an ordinary queue. -/
def execSqDoorbell (fn queue value bytes : Nat) (s : State) : Out :=
  onUnit (decide (fn < 32) && decide (queue / 32 = fn)) s (fun d =>
    if bytes ≠ 4 ∨ 2 ^ d.get (R.SQ_SIZE_LOG2 queue) ≤ value ∨ !d.on (R.SQ_EN queue) then
      (d.queueFlag queue (R.SQ_DB_ERR queue)).dbErr
    else d.put (R.SQ_DB queue) value)

/-- CQ_HEAD_DOORBELL (R680, R699, R703): the head of a completion ring. Held entries take the freed slots. -/
def execCqHeadDoorbell (fn ring value bytes : Nat) (s : State) : Out :=
  onUnit (decide (fn < 32) && decide (ring / 8 = fn)) s (fun d =>
    if bytes ≠ 4 ∨ 2 ^ d.get (R.CQ_SIZE_LOG2 ring) ≤ value ∨ !d.on (R.CQ_EN ring) then
      (d.flag (R.CQ_DB_ERR ring)).dbErr
    else (d.put (R.CQ_HEAD ring) value).ringFlush ring 256)

/-- The producer index of privileged queue p (R685, R714). -/
def Dev.pqPi (d : Dev) (p value : Nat) : Dev :=
  if 2 ^ d.get (R.PQ_SIZE_LOG2 p) ≤ value ∨ !d.on (R.PQ_EN p) then
    (d.flag (R.PQ_PI_ERR p)).raiseD 42 (2 ^ 0)
  else d.put (R.PQ_PQ_PI p) value

/-- PQ_PI_WRITE. -/
def execPqPiWrite (queue value : Nat) (s : State) : Out :=
  onUnit (decide (queue < 8)) s (fun d => d.pqPi queue value)

/-! ### Configuration (R713) -/

/-- The address of the registers of queue q. -/
def queueAddr (q : Nat) : Nat := if q < 1024 then 0x210000 + 0x20 * q else 0x21A000 + 0x20 * (q - 1024)

/-- The word at 0x08 of queue q. -/
def Dev.queueEnWord (d : Dev) (q v : Nat) : Dev :=
  let en := d.on (qEN q)
  let size := bits v 4 0
  let cq := bits v 7 5
  let set := tbit v 8
  if en && (size ≠ d.get (qSIZE q) || cq ≠ d.get (qCQ q)) then d.wrange (queueAddr q)
  else if set && !en && (decide (size < 4) || decide (16 < size) || d.get (qLO q) % 4096 ≠ 0 ||
      !d.on (R.CQ_EN (8 * queueFn q + cq)) || d.get (qSTATE q) ≠ 0) then d.wrange (queueAddr q)
  else
    let d := ((d.put (qSIZE q) size).put (qCQ q) cq).put (qCTIME q) (bit v 9)
    let d := d.put (qEN q) (bit v 8)
    if set && !en then ((d.put (qCI q) 0).put (qPI q) 0).put (qSTATE q) 1
    else d.queueSettle q

/-- A write to a configuration word of queue q by a requester that may make it. -/
def Dev.queueConfig (d : Dev) (req q off v : Nat) : Dev :=
  let en := d.on (qEN q)
  if off = 0 then
    if en && d.get (qLO q) ≠ v then d.wrange (queueAddr q) else d.put (qLO q) v
  else if off = 4 then
    if en && d.get (qHI q) ≠ v then d.wrange (queueAddr q) else d.put (qHI q) v
  else if off = 8 then d.queueEnWord q v
  else if off = 0xC then
    if 1024 ≤ q then d.pqPi (q - 1024) (bits v 15 0)
    else if !fullAccess req then d
    else if d.on R.QB_LOCK then d.lockViol req (queueAddr q + 0xC) v
    else
      let w := bits v 7 0
      let b := bits v 14 8
      if w < 1 ∨ b < 1 ∨ 64 < b then d.wrange (queueAddr q)
      else (d.put (R.SQ_WEIGHT q) w).put (R.SQ_BURST q) b
  else d

/-- A requester reaches the registers of queue q (R678). -/
def reachesQueue (req q : Nat) : Bool := fullAccess req || (decide (q < 1024) && q / 32 == req)

/-- SQ_CFG_WRITE (R713): a whole word of queue q's registers, privileged queues from 1,024. -/
def execSqCfgWrite (req queue offset : Nat) (value : BitVec 32) (s : State) : Out :=
  onUnit (decide (req < 33) && decide (queue < 1032)) s (fun d =>
    if reachesQueue req queue then d.queueConfig req queue offset value.toNat else d)

/-- Queues of ring c's function that name the ring and are enabled or not yet OFF (R713). -/
def Dev.ringNamed (d : Dev) (c : Nat) : Bool :=
  (queuesOf (ringFn c)).any (fun q => d.queueRing q == c && (d.on (qEN q) || d.get (qSTATE q) ≠ 0))

/-- The word at 0x08 of ring c. -/
def Dev.ringEnWord (d : Dev) (c v : Nat) : Dev :=
  let en := d.on (R.CQ_EN c)
  let size := bits v 4 0
  let set := tbit v 5
  let a := 0x218000 + 0x20 * c
  if en && size ≠ d.get (R.CQ_SIZE_LOG2 c) then d.wrange a
  else if set && !en && (decide (size < 4) || decide (16 < size) || d.get (R.CQ_BASE_LO c) % 4096 ≠ 0) then d.wrange a
  else if !set && en && (d.ringNamed c || Tab.getD d.q.held c [] ≠ []) then d.wrange a
  else
    let d := ((d.put (R.CQ_SIZE_LOG2 c) size).put (R.CQ_EN c) (bit v 5)).put (R.CQ_IRQ_EN c) (bit v 6)
    let d := d.put (R.CQ_VEC c) (bits v 17 7)
    if set && !en then
      let d := ((d.put (R.CQ_TAIL c) 0).put (R.CQ_HEAD c) 0).put (R.CQ_PHASE c) 1
      { d with q := { d.q with since := Tab.set d.q.since c 0 } }
    else d

/-- A write to a configuration word of ring c. -/
def Dev.ringConfig (d : Dev) (c off v : Nat) : Dev :=
  let en := d.on (R.CQ_EN c)
  let a := 0x218000 + 0x20 * c
  if off = 0 then
    if en && d.get (R.CQ_BASE_LO c) ≠ v then d.wrange a else d.put (R.CQ_BASE_LO c) v
  else if off = 4 then
    if en && d.get (R.CQ_BASE_HI c) ≠ v then d.wrange a else d.put (R.CQ_BASE_HI c) v
  else if off = 8 then d.ringEnWord c v
  else if off = 0xC then
    let n := bits v 8 0
    let us := bits v 18 9
    if n < 1 ∨ 256 < n ∨ 1000 < us then d.wrange a
    else (d.put (R.CQ_COAL_N c) n).put (R.CQ_COAL_US c) us
  else d

/-- A requester reaches the registers of ring c. -/
def reachesRing (req c : Nat) : Bool := fullAccess req || c / 8 == req

/-- CQ_CFG_WRITE (R713). -/
def execCqCfgWrite (req ring offset : Nat) (value : BitVec 32) (s : State) : Out :=
  onUnit (decide (req < 33) && decide (ring < 256)) s (fun d =>
    if reachesRing req ring then d.ringConfig ring offset value.toNat else d)

/-! ### Waiting and errors -/

/-- OWN_POLL (R684): the head entry of an ordinary queue below its doorbell is read again. -/
def execOwnPoll (queue : Nat) (own waited1ms : Bool) (s : State) : Out :=
  onUnit (decide (queue < 1024)) s (fun d =>
    if !d.on (R.SQ_EN queue) || d.get (R.SQ_STATE queue) == 3 then d
    else if own then
      let d := { d with q := { d.q with ownStall := d.q.ownStall.filter (· ≠ queue) } }
      if d.get (R.SQ_STATE queue) = 2 then d.put (R.SQ_STATE queue) 1 else d
    else
      let d := d.put (R.SQ_STATE queue) 2
      if waited1ms && !(queue ∈ d.q.ownStall) then
        let d := { d with q := { d.q with ownStall := queue :: d.q.ownStall } }
        (d.queueFlag queue (R.SQ_OWN_STALL queue)).flagRaise R.QB_OWN_STALL 35
      else d)

/-- FETCH_ERR (R708): a fetch of a queue entry returns an error. -/
def execFetchErr (queue : Nat) (s : State) : Out :=
  onUnit (decide (queue < 1032)) s (fun d =>
    if !d.on (qEN queue) then d
    else ((d.put (qSTATE queue) 3).queueFlag queue (qFETCHERR queue)).flagRaise R.QB_FETCH_ERR 36)

/-! ### Taking an entry (R683 to R689, R702) -/

/-- What came of the head entry of a queue. -/
inductive Taken where
  /-- it has not started -/
  | waits (d : Dev)
  /-- it cannot be framed, and has started to complete MALFORMED (R686) -/
  | unframed (d : Dev)
  /-- it has started -/
  | started (d : Dev)

/-- The queue waits for room in its completion ring (R702). -/
def Dev.stallRoom (d : Dev) (q c : Nat) : Dev :=
  let d := (d.queueFlag q (qCQSTALL q)).flag (R.CQ_STALL c)
  let d := (d.putMap R.QB_CQ_STALL_MAP c true).put (qSTATE q) 2
  d.flagRaiseOnce R.QB_CQ_STALL 37

/-- An entry starts: counters, reservation, OWN written back as 0, consumer index (R684, R688, R702). -/
def Dev.beginEntry (d : Dev) (q slots next : Nat) (byte0 : Nat) : Dev :=
  let c := d.queueRing q
  let ci := d.get (qCI q)
  let base := d.get (qLO q) + d.get (qHI q) * 2 ^ 32
  let d := d.bump R.QB_ENTRIES 1
  let d := d.put (qOUT q) (d.get (qOUT q) + 1)
  let d := (d.put (R.CQ_RESV c) (d.get (R.CQ_RESV c) + slots)).put (qSTATE q) 1
  let d := if isPq q then d else d.send (.hostWrite (queueFn q) (base + 32 * ci) (leBytes 1 (byte0 % 128)))
  let d := { d with q := { d.q with ownStall := d.q.ownStall.filter (· ≠ q) } }
  d.put (qCI q) next

/-- The entry may not start yet: the queue, the engine, the start-up state, the outstanding limit, or the
order of R689 holds it. `admission`: it needs admission or a switched domain (R842). -/
def Dev.entryHeld (d : Dev) (q handle : Nat) (admission : Bool) : Bool :=
  let st := d.get (qSTATE q)
  let su := d.get R.PWR_SU_STATE
  !d.on (qEN q) || st == 0 || st == 3 || !d.on R.QB_EN || d.get (qCI q) == d.get (qPI q) ||
    decide (d.get R.QB_MAX_OUT ≤ d.get (qOUT q)) || decide (suFaulted ≤ su) || (admission && su != suRun) ||
    d.q.owed.any (fun o => o.queue == q && handle != 0 && o.handle == handle)

/-- The head entry of queue q, as fetched (R683 to R689, R702). -/
def Dev.take (d : Dev) (q : Nat) (entry : List Byte) (slots : Nat) (admission : Bool) : Taken :=
  let size := 2 ^ d.get (qSIZE q)
  let ci := d.get (qCI q)
  let avail := (d.get (qPI q) + size - ci) % size
  let len := byteAt entry 1
  let c := d.queueRing q
  let room := d.get (R.CQ_RESV c) + d.get (R.CQ_HELD c) + slots
  if d.entryHeld q (leAt entry 4 4) admission || (!isPq q && !tbit (byteAt entry 0) 7) then .waits d
  else
    let bad := len == 0 || decide (16 < len) || decide (size < ci + len)
    if !bad && decide (avail < len) then .waits d
    else if d.ringFree c < room then .waits (d.stallRoom q c)
    else if len = 0 ∨ 16 < len then .unframed (d.beginEntry q 1 ((ci + 1) % size) (byteAt entry 0))
    else if size < ci + len then .unframed (d.beginEntry q 1 0 (byteAt entry 0))
    else .started (d.beginEntry q slots ((ci + len) % size) (byteAt entry 0))

/-- TAG and HANDLE of an entry (R691). -/
def entryTag (e : List Byte) : Nat := leAt e 2 2
def entryHandle (e : List Byte) : Nat := leAt e 4 4
def entryOp (e : List Byte) : Nat := byteAt e 0 % 128
def entryLen (e : List Byte) : Nat := byteAt e 1

/-- An entry completes now with a status that applies nothing. -/
def Dev.answer (d : Dev) (q : Nat) (e : List Byte) (status : Nat) : Dev :=
  d.complete q (entryTag e) (entryHandle e) status 0 none

/-- The opcodes of R693 but NOP. -/
def listedOps : List Nat :=
  [0x01, 0x02, 0x03, 0x10, 0x11, 0x12, 0x13, 0x14, 0x15, 0x16, 0x17, 0x18, 0x20, 0x21, 0x22, 0x23, 0x24, 0x25]

/-- A queue entry under the row of opcode op: taken where it may start, and then acted on. An entry that spells
NOP completes OK, one of an unlisted opcode MALFORMED (R693); one of another row is refused. -/
def onEntry (q : Nat) (e : List Byte) (op slots : Nat) (admission : Bool) (s : State)
    (act : State → State) : Out :=
  if 1032 ≤ q then .refused .noSuchUnit
  else
    let o := entryOp e
    if o = op then
      match s.dev.take q e slots admission with
      | .waits d => .next { s with dev := d }
      | .unframed d => .next { s with dev := d.answer q e stMalformed }
      | .started d => .next (act { s with dev := d })
    else if o ∈ listedOps then .refused .otherRow
    else
      match s.dev.take q e 1 false with
      | .waits d => .next { s with dev := d }
      | .unframed d => .next { s with dev := d.answer q e stMalformed }
      | .started d =>
        .next { s with dev := d.answer q e (if o = 0 ∧ allZero (slice e 4 (32 * entryLen e - 4)) then stOk else stMalformed) }

/-- The same for an entry that acts on nothing but the block. -/
def onEntryDev (q : Nat) (e : List Byte) (op slots : Nat) (admission : Bool) (s : State) (act : Dev → Dev) : Out :=
  onEntry q e op slots admission s (fun s => s.upd act)

/-- FENCE (R689): it starts when every earlier entry of its queue has completed, and completes at once. -/
def execFence (queue : Nat) (entry : List Byte) (s : State) : Out :=
  if decide (queue < 1032) && entryOp entry == 1 && s.dev.get (qOUT queue) != 0 then .next s
  else onEntryDev queue entry 1 1 false s (fun d =>
    if entryLen entry ≠ 1 ∨ !allZero (slice entry 4 28) then d.answer queue entry stMalformed
    else d.answer queue entry stOk)

/-- A request of a function is accepted from queue q as privileged (R121). -/
def rung0Queue (q : Nat) : Bool := isPq q

end Sys2Proof.Machine
end

