-- ==== Sys2Proof/Machine/Banker.lean ====
section
/-! DEFINITION. The banker: journal, fuses, restart, sensors, MRAM health, ledger chain (R798 to R816). -/

namespace Sys2Proof.Machine

/-! ### The journal (R812, R813) -/

/-- Lines that a transaction stages: its bytes in lines of 64. -/
def Txn.lines (t : Txn) : Nat :=
  ceilDiv ((t.objs.foldl (fun n o => n + 8 + o.2.length) 0) + (match t.image with | some i => i.length | none => 0) +
    2 * t.retire.length) 64

/-- JSTATE and JQUEUE as the journal stands. -/
def Dev.journalRegs (d : Dev) : Dev :=
  (d.put R.ST_JSTATE (if d.bank.staged.isSome then 1 else 0)).put R.ST_JQUEUE d.bank.waiting.length

/-! ### Responses (R784, R787, R791, R792) -/

/-- A response as bytes, stamped with device time now and authenticated under its key; TIME has no trailer (R784). -/
def Dev.replyBytes (d : Dev) (r : Reply) : List Byte :=
  let m := beBytes 2 0x5356 ++ beBytes 1 1 ++ beBytes 1 (128 + r.op % 128) ++ beBytes 1 r.role ++ beBytes 1 r.status ++
    beBytes 2 r.body.length ++ beBytes 4 r.client ++ beBytes 4 r.seq ++ d.time80Be ++ List.replicate 6 0 ++ r.body
  match r.key with
  | some k => m ++ hmacSha256 k m
  | none => m

/-- A response written to the mailbox's RESP. -/
def Dev.putResp (d : Dev) (bytes : List Byte) : Dev :=
  (List.range (ceilDiv bytes.length 4)).foldl (fun (d : Dev) k => d.put (R.MBX_RESP k) (leAt bytes (4 * k) 4)) d

/-- The mailbox reaches DONE with a response, empty where the request failed R786 or R787, and the status bits of that. -/
def Dev.mbxDone (d : Dev) (bytes : List Byte) (auth stale : Bool) : Dev :=
  let d := ((d.putResp bytes).put R.MBX_RESP_LEN bytes.length).put R.MBX_MBX_STATE 2
  let d := d.flag R.MBX_DONE
  let d := if auth then d.flag R.MBX_AUTH_FAIL else d
  let d := if stale then d.flag R.MBX_STALE else d
  d.raiseD 964 (16 + (if auth then 64 else 0) + (if stale then 128 else 0))

/-- A response goes out on its transport: one for a mailbox request that was aborted
is discarded (R792), and one with no way to its subnet stays (R782). -/
def Dev.respond (d : Dev) (transport tok : Nat) (dest : Option (Nat × Nat × Nat)) (bytes : List Byte) : Dev :=
  if transport = 2 then
    if tok = d.bank.mbxTok ∧ d.get R.MBX_MBX_STATE = 1 then
      ({ d with bank := { d.bank with answered := d.bank.answered + 1 } }).mbxDone bytes false false
    else d
  else match dest with
    | some (0, _, _) => d
    | _ => ({ d with bank := { d.bank with answered := d.bank.answered + 1 } }).send (.response transport dest bytes)

/-- A request is answered: its response is recorded against replay and goes out, to copies that wait for it too. -/
def Dev.reply (d : Dev) (r : Reply) : Dev :=
  let bytes := d.replyBytes r
  let mine (p : Replay) : Bool := r.key.isSome && p.role == r.role && p.client == r.client && p.seq == r.seq
  let waits := (d.bank.replays.filter mine).flatMap (fun p => p.waits)
  let d := { d with bank := { d.bank with
    replays := d.bank.replays.map (fun p => if mine p then { p with response := some bytes, waits := [] } else p) } }
  let d := d.respond r.transport r.tok r.dest bytes
  waits.foldl (fun (d : Dev) (w : Nat × Nat × Option (Nat × Nat × Nat)) => d.respond w.1 w.2.1 w.2.2 bytes) d

/-- A request is answered where it asks for an answer. -/
def Dev.reply? (d : Dev) (r : Option Reply) : Dev :=
  match r with
  | some r => d.reply r
  | none => d

/-! ### Commits (R764, R768, R812) -/

/-- A transaction commits, is applied to the store, makes its ledger entries and is answered (R764, R768). -/
def Dev.commitTxn (d : Dev) (t : Txn) : Dev :=
  let d := { d with bank := { d.bank with
    store := t.objs.foldl (fun s (o : Nat × List Byte) => Tab.set s o.1 o.2) d.bank.store,
    storedImage := match t.image with | some i => some i | none => d.bank.storedImage,
    retiredSlots := t.retire ++ d.bank.retiredSlots } }
  let d := (d.bump R.ST_JCOMMITS 1).bump R.ST_MRAM_WR_LINES (2 * t.lines + 1)
  let d := (t.entries.foldl (fun (d : Dev) e => d.ledger e) d).reply? t.answer
  { d with bank := { d.bank with objs := t.late.foldl (fun s (o : Nat × List Byte) => Tab.set s o.1 o.2) d.bank.objs } }

/-- The journal takes no further transaction of a request: 64 wait already (R812). -/
def Dev.journalFull (d : Dev) : Bool := d.bank.staged.isSome && decide (64 ≤ d.bank.waiting.length)

/-- A transaction: committed at once while no present schedule runs, else staged or waiting for a quiet interval. -/
def Dev.journal (d : Dev) (t : Txn) : Dev :=
  if d.bank.writeProtect then d
  else if !d.running && !d.bank.restarting && d.bank.staged.isNone then d.commitTxn t
  else
    let d := match d.bank.staged with
      | none => { d with bank := { d.bank with staged := some t } }
      | some _ => { d with bank := { d.bank with waiting := d.bank.waiting ++ [t] } }
    d.journalRegs

/-- Once no present schedule runs, what is staged and what waits commits at once (R812). -/
def Dev.journalIdle (d : Dev) : Dev :=
  if d.running || d.bank.restarting || d.bank.writeProtect then d
  else
    let l := (match d.bank.staged with | some t => [t] | none => []) ++ d.bank.waiting
    let d := { d with bank := { d.bank with staged := none, waiting := [] } }
    (l.foldl (fun (d : Dev) t => d.commitTxn t) d).journalRegs

/-- A device-level fault (R848), after which the journal commits at once. -/
def Dev.deviceFault (d : Dev) (state : Nat) : Dev := (d.deviceStop state).journalIdle

/-! ### Fuses (R815, R816) -/

/-- Fuse bit i reads 1. -/
def Dev.fuseBlown (d : Dev) (i : Nat) : Bool :=
  i ∈ d.bank.blown || (Config.fuseWord (i / 32)).getLsbD (i % 32)

/-- Fuses of a count still unblown (R816). -/
def Dev.fusesLeft (d : Dev) (lo hi : Nat) : Nat :=
  ((List.range (hi - lo + 1)).filter (fun k => !d.fuseBlown (lo + k))).length

/-- The next fuse of a count in ascending bit order. -/
def Dev.nextFuse (d : Dev) (lo hi : Nat) : Option Nat :=
  firstIdx (fun i => !d.fuseBlown i) (hi - lo + 1) lo

/-- A fuse is blown and verifies (R816). -/
def Dev.blowFuse (d : Dev) (bitNo : Nat) : Dev :=
  let d := { d with bank := { d.bank with blown := bitNo :: d.bank.blown } }
  (d.bump R.ST_FUSE_BLOWS 1).ledger ⟨true, 0x0504, 0x1F, 1, leBytes 4 bitNo, false⟩

/-! ### Restart (R798, R799, R820, R821) -/

/-- DATA of the entries of class 0x05 that name a slot: slot, VERSION, ROLLBACK, status (R807). -/
def slotEntry (slot : Nat) (image : List Byte) (status : Nat) : List Byte :=
  leBytes 1 slot ++ leBytes 4 (leAt image 8 4) ++ leBytes 4 (leAt image 12 4) ++ leBytes 1 status

/-- The image of banker slot A (0) or B (1). -/
def Dev.slotImage (d : Dev) (slot : Nat) : List Byte := Tab.getD d.bank.slots slot (Config.shippedSlot slot)

/-- The slot that an update is received into: the one that is not active. -/
def Dev.spareSlot (d : Dev) : Nat := 1 - d.get R.ST_ACTIVE_SLOT

/-- The update state (R820), with the ledger entry of a change and its event, if it has one. -/
def Dev.putUpd (d : Dev) (st slot : Nat) (ev : Option Nat) : Dev :=
  if d.get R.ST_UPD_STATE = st then d
  else
    let d := (d.put R.ST_UPD_STATE st).ledger ⟨true, if ev = some 981 then 0x0503 else 0x0502, 0x1F, 1,
      slotEntry slot (d.slotImage slot) st, false⟩
    match ev with
    | some e => d.raise e
    | none => d

/-- A banker restart begins: the dictionary service and the mailbox lose what they hold, and requests that wait for the
journal get no answer. A trial ends in a revert unless this is the restart that ACTIVATE asked for. -/
def Dev.bankerRestart (d : Dev) (trial : Bool) : Dev :=
  if d.bank.restarting then d
  else
    let quietly (t : Txn) : Txn := { t with answer := none }
    let boot := if trial then 1 else if d.get R.ST_UPD_STATE = 3 then 2 else 0
    let d := { d with bank := { d.bank with
      restarting := true
      restarts := d.bank.restarts + 1
      rw := Tab.drop d.bank.rw (fun k => k ≠ 0x7002 * 256 + 1)
      mirror := []
      cursor := []
      replays := []
      segs := []
      firstFail := 0
      activating := false
      activateDue := false
      boot := boot
      mbxTok := d.bank.mbxTok + 1
      staged := d.bank.staged.map quietly
      waiting := d.bank.waiting.map quietly } }
    d.resetBlock 17

/-- The banker returns (R799); what waited for it is done, and the update state is that of the
slot that it booted (R820). -/
def Dev.bankerUp (d : Dev) : Dev :=
  if !d.bank.restarting then d
  else
    let waits := d.bank.ledWait
    let boot := d.bank.boot
    let d := { d with bank := { d.bank with restarting := false, ledWait := [], boot := 0 }, ev := { d.ev with bank := [] } }
    let d : Dev := waits.foldl (fun (d : Dev) r => d.ledger r) d
    let d := if boot = 1 then d.putUpd 3 d.spareSlot (some 979)
      else if boot = 2 then d.putUpd 0 (d.get R.ST_ACTIVE_SLOT) (some 981)
      else d.put R.ST_UPD_STATE 0
    (d.raiseLedger 982 0 0x1F).journalIdle

/-- BANKER_WATCHDOG (R798): the watchdog expires, or the SRAM has an uncorrectable error. -/
def execBankerWatchdog (s : State) : Out := .next (s.upd (fun d => d.bankerRestart false))

/-- The restart after ACTIVATE, once no journal transaction waits (R821). -/
def Dev.activateNow (d : Dev) : Dev :=
  if !d.bank.activateDue then d
  else if d.bank.staged.isSome then d
  else d.bankerRestart true

/-- ACTIVATE_RESTART (R821): 100 ms have passed since ACTIVATE. -/
def execActivateRestart (s : State) : Out :=
  .next (s.upd fun d =>
    if d.bank.activating && !d.bank.restarting then
      ({ d with bank := { d.bank with activating := false, activateDue := true } }).activateNow
    else d)

/-- TRIAL_CONFIRM_TIMEOUT (R821): CONFIRM_S has passed in TRIAL, and the banker restarts on the old slot. -/
def execTrialConfirmTimeout (s : State) : Out :=
  .next (s.upd fun d => if d.get R.ST_UPD_STATE = 3 then d.bankerRestart false else d)

/-- The commit of a quiet interval: the staged transaction, and the next one staged (R812). -/
def Dev.journalCommit (d : Dev) : Dev :=
  if d.bank.writeProtect || d.bank.restarting then d
  else match d.bank.staged with
    | none => d.activateNow
    | some t =>
      let d := d.commitTxn t
      let d := match d.bank.waiting with
        | [] => { d with bank := { d.bank with staged := none } }
        | u :: w => { d with bank := { d.bank with staged := some u, waiting := w } }
      d.journalRegs.activateNow

/-! ### Sensors (R800, R836, R849, R859) -/

/-- Why the pace loop is limited, as registers show it (R836, R837). -/
def Dev.limitRegs (d : Dev) : Dev :=
  let lim := d.pwr.limTemp || d.pwr.limPower || d.pwr.limPmb
  let was := d.on R.PWR_VC_LIMITED
  let d := d.put R.PWR_VC_LIMITED (if lim then 1 else 0)
  let d := d.put R.ADM_VCEIL (if lim || decide (d.get R.ADM_VADM_MV ≤ d.get R.PWR_VCORE_MV) then 1 else 0)
  if lim && !was then d.flagRaiseOnce R.PWR_VC_LIMIT 934 else d

/-- One die sensor against TJ_WARN: it warns once and rearms 3 °C below (R800). -/
def Dev.dieSensor (d : Dev) (j : Nat) (t : Int) : Dev :=
  let warn := signed 16 (d.objNat 0x8010 1 1600)
  if warn ≤ t then
    if j ∈ d.bank.warm then d
    else
      let d := { d with bank := { d.bank with warm := j :: d.bank.warm } }
      (d.flag R.ST_TJ_WARN).raiseLedger 983 (2 ^ 9) 0x1F
  else if t ≤ warn - 48 then { d with bank := { d.bank with warm := d.bank.warm.filter (· ≠ j) } }
  else d

/-- The highest of a list of readings. -/
def maxInt : List Int → Int
  | [] => 0
  | [x] => x
  | x :: t => max x (maxInt t)

/-- Windows of a rail in tenths of a millivolt: operating low and high, absolute low and high (R859). -/
def Dev.railWindow (d : Dev) (rail : Nat) : Nat × Nat × Nat × Nat :=
  let v := 10 * d.get R.PWR_VC_TARGET_MV
  match rail with
  | 0 => (v - 150, v + 150, 4500, 9900)
  | 1 => (7275, 7725, 6500, 8500)
  | 2 => (8245, 8755, 7500, 9500)
  | 3 => (11640, 12360, 10500, 13200)
  | 4 => (11640, 12360, 10500, 13200)
  | 5 => (17100, 18900, 15500, 19800)
  | 6 => (31350, 34650, 29000, 36300)
  | n => Config.hbmRail n

/-- One voltage monitor (R800, R849): the first element tells whether it trips. -/
def Dev.monitor (d : Dev) (j mv : Nat) : Bool × Dev :=
  let (lo, hi, alo, ahi) := d.railWindow (Config.monitorRail j)
  let v := 10 * mv
  let d := if v < lo ∨ hi < v then d.raiseLedger 984 0 0x1F else d
  if v < alo ∨ ahi < v then
    if j ∈ d.pwr.outside then (true, d)
    else (false, { d with pwr := { d.pwr with outside := j :: d.pwr.outside } })
  else (false, { d with pwr := { d.pwr with outside := d.pwr.outside.filter (· ≠ j) } })

/-- VOLTAGE_READ (R800, R849): the 48 monitors, mV, every 10 µs; outside an absolute window at two readings
running is outside for 10 µs. -/
def execVoltageRead (mv : List Nat) (s : State) : Out :=
  .next (s.upd fun d =>
    let (trip, d) := (mv.zipIdx).foldl (fun p v => let (t, e) := p.2.monitor v.2 v.1; (p.1 || t, e)) (false, d)
    if trip && !d.on R.PWR_RAIL_TRIP then (d.flagRaise R.PWR_RAIL_TRIP 5).deviceFault suFaulted else d)

/-! ### MRAM health (R811) -/

/-- A line that fails its verify has its block copied and retired (R811). -/
def Dev.retireBlock (d : Dev) (line : Nat) : Dev :=
  let d := (d.bump R.ST_RETIRED_BLOCKS 1).bump R.ST_MRAM_WR_LINES 1024
  let d := (d.flag R.ST_RETIRE).raise 974
  d.ledger ⟨false, 0x0700, 0x1F, 1, leBytes 4 (line / 1024) ++ leBytes 4 (line % 1024), false⟩

/-- The wear warning (R811): once, when the estimate passes 8 × 10^7 writes. -/
def Dev.wearWarn (d : Dev) : Dev :=
  if !d.bank.wearWarned && decide (80000 < d.get R.ST_WORST_WRITES_K) then
    let d := { d with bank := { d.bank with wearWarned := true } }
    (d.raise 975).ledger ⟨false, 0x0702, 0x1F, 1, [], false⟩
  else d

/-- WEAR_MOVE (R811): a worn block moves to a free one through the journal, at most one per second. -/
def execWearMove (s : State) : Out :=
  .next (s.upd fun d =>
    if d.bank.writeProtect || d.bank.restarting || d.bank.lastMove == some d.sec then d
    else
      let d := { d with bank := { d.bank with lastMove := some d.sec } }
      let d := d.bump R.ST_MRAM_WR_LINES 1024
      (d.ledger ⟨false, 0x0701, 0x1F, 1, [], false⟩).wearWarn)

/-- MRAM_SCRUB (R811): a scrub pass rewrites the lines it corrected; a line may fail its verify. -/
def execMramScrub (corrected : List Nat) (badLine : Option Nat) (s : State) : Out :=
  .next (s.upd fun d =>
    if !d.on R.ST_SCRUB_EN || d.bank.writeProtect || d.bank.restarting then d
    else
      let d := d.bump R.ST_MRAM_WR_LINES corrected.length
      match badLine with
      | some l => d.retireBlock l
      | none => d)

/-- LEDGER_SECOND_END (R809): a second of device time ends. -/
def execLedgerSecondEnd (s : State) : Out :=
  .next (s.upd fun d =>
    if d.bank.restarting || d.bank.writeProtect then d else d.ledgerSecond)

/-! ### The chain (R808) -/

/-- The first entry, oldest first, whose LMAC does not follow from the one before it; 0 for none. -/
def chainFail : List Ledger → List Byte → Nat → Nat
  | [], _, _ => 0
  | l :: t, before, from_ =>
    if from_ ≤ l.seq ∧ l.lmac ≠ lmacOf l.body before then l.seq else chainFail t l.lmac from_

/-- The chain of a ring verified from a SEQ. -/
def Dev.verifyChain (d : Dev) (prot : Bool) (from_ : Nat) : Dev :=
  let ring := (d.ledgerRing prot).reverse
  let bad := match ring with
    | [] => 0
    | l :: t =>
      if l.seq = 1 then chainFail (l :: t) (List.replicate 16 0) from_
      else chainFail t l.lmac from_
  let d := { d with bank := { d.bank with firstFail := bad } }
  if bad = 0 then d else d.raiseLedger 985 0 0x1F

end Sys2Proof.Machine
end

