-- ==== Sys2Proof/Machine/Pips.lean ====
section
/-! DEFINITION. Pips, cups and the handshake fabric: dealing, stealing, failure, substitution, pace monitors
(R185 to R227, R801 to R804). -/

namespace Sys2Proof.Machine

/-- STATE codes of a logical pip (R226). -/
def pipParked : Nat := 0
def pipComposing : Nat := 1
def pipStealing : Nat := 2
def pipTrial : Nat := 3
def pipFailed : Nat := 4

/-- Cup and quarter of a logical pip (R32). -/
def cupOf (p : Nat) : Nat := p / 8
def pipQuarter (p : Nat) : Nat := p / 64

/-- `SLOT_MAP` in force in a cup (R193). -/
def Dev.slotMap (d : Dev) (c : Nat) : Nat := Tab.getD d.pip.map c 0x76543210

/-- The physical slot of a logical pip, 15 for none. -/
def Dev.slotOf (d : Dev) (p : Nat) : Nat := bits (d.slotMap (cupOf p)) (4 * (p % 8) + 3) (4 * (p % 8))

/-- A logical pip is active: it has a slot and has not failed. -/
def Dev.pipActive (d : Dev) (p : Nat) : Bool := d.slotOf p != 15 && d.get (R.PIP_STATE p) != pipFailed

/-- Active logical pips of a quarter, in ascending order. -/
def Dev.activePips (d : Dev) (q : Nat) : List Nat :=
  (List.range 64).filterMap (fun i => if d.pipActive (64 * q + i) then some (64 * q + i) else none)

/-- A bit of a pip's register 0x04 set, with its event (R227). -/
def Dev.pipFlag (d : Dev) (p : Nat) (f : Fld) : Dev := d.flagRaise f (96 + p)

/-- A bit of a cup's register 0x08 set, with its event (R227). -/
def Dev.cupFlag (d : Dev) (c : Nat) (f : Fld) : Dev := d.flagRaise f (352 + c)

/-- An event at most once per turn under a key of its own, where one event number has several causes. -/
def Dev.raiseOnceKey (d : Dev) (key e detail : Nat) : Dev :=
  if key ∈ d.ev.once then d
  else ({ d with ev := { d.ev with once := key :: d.ev.once } }).raiseD e detail

/-! ### The deal plan (R207, R208) -/

/-- Entries grouped by work, heaviest class first, in the order given within a class (R207). -/
def classesOf (entries : List (Nat × Nat)) : List (List Nat) :=
  let works := (sortNat (entries.map (·.2)).eraseDups).reverse
  works.map (fun w => (entries.filter (fun e => e.2 = w)).map (·.1))

/-- One class dealt to n pips from a rotation point: the slices appended to each pip's list (R208). -/
def dealClass (n ptr : Nat) (cls : List Nat) (plan : List (List Nat)) : List (List Nat) :=
  let base := cls.length / n
  let extra := cls.length % n
  let size (i : Nat) : Nat := if (i + n - ptr) % n < extra then base + 1 else base
  let step (acc : Nat × List (List Nat)) (x : List Nat × Nat) : Nat × List (List Nat) :=
    (acc.1 + size x.2, acc.2 ++ [x.1 ++ (cls.drop acc.1).take (size x.2)])
  ((plan.zipIdx).foldl step (0, [])).2

/-- The plan of a quarter for n active pips (R208). -/
def buildPlan (n : Nat) (classes : List (List Nat)) : List (List Nat) :=
  let step (acc : Nat × List (List Nat)) (c : List Nat) : Nat × List (List Nat) :=
    ((acc.1 + c.length % n) % n, dealClass n acc.1 c acc.2)
  (classes.foldl step (0, List.replicate n [])).2

/-! ### Working through entries (R212, R214) -/

def Dev.todo (d : Dev) (p : Nat) : List Nat := Tab.getD d.pip.todo p []
def Dev.putTodo (d : Dev) (p : Nat) (l : List Nat) : Dev :=
  ({ d with pip := { d.pip with todo := Tab.set d.pip.todo p l } }).put (R.PIP_REMAIN p) l.length
def Dev.putWork (d : Dev) (p : Nat) (w : Option Nat) : Dev :=
  { d with pip := { d.pip with work := match w with | some k => Tab.set d.pip.work p k | none => Tab.erase d.pip.work p } }
def Dev.putPip (d : Dev) (p st : Nat) : Dev := d.put (R.PIP_STATE p) st

/-- A pip parks. -/
def Dev.park (d : Dev) (p : Nat) : Dev := (d.putWork p none).putPip p pipParked

/-- The pip's idle period begins, or it parks where stealing is off (R214). -/
def Dev.beginIdle (d : Dev) (p : Nat) : Dev :=
  let d := (d.putWork p none).put (R.PIP_ATTEMPT p) 0
  if d.on R.FAB_STEAL_EN then d.putPip p pipStealing else d.putPip p pipParked

/-- The pip starts its next entry whose patch is damaged, skipping the others (R212). -/
def Dev.startNext (d : Dev) (damaged : Nat → Bool) (p : Nat) : Dev :=
  match (d.todo p).dropWhile (fun k => !damaged k) with
  | [] => (d.putTodo p []).beginIdle p
  | k :: t => ((d.putTodo p t).putWork p (some k)).putPip p pipComposing

/-! ### Stealing (R214 to R217) -/

/-- The victim cup of attempt a, from 0 (R214). -/
def victimOf (p a : Nat) : Nat :=
  let c := cupOf p
  let q := pipQuarter p
  if a = 0 then c else if a = 1 then 8 * q + (c + 1) % 8 else 8 * q + (c + 7) % 8

/-- The pip of a cup with the most entries not started, lowest number at ties (R215). -/
def Dev.richest (d : Dev) (c : Nat) : Nat × Nat :=
  let step (best : Nat × Nat) (i : Nat) : Nat × Nat :=
    if best.2 < (d.todo (8 * c + i)).length then (8 * c + i, (d.todo (8 * c + i)).length) else best
  (List.range 8).foldl step (8 * c, 0)

/-- What a victim cup grants: the entries, and the state without them (R215). -/
def Dev.grant (d : Dev) (c : Nat) : List Nat × Dev :=
  let pool := Tab.getD d.pip.orphans c []
  if pool.length ≠ 0 then
    let keep := pool.length - ceilDiv pool.length 2
    (pool.drop keep, { d with pip := { d.pip with orphans := Tab.set d.pip.orphans c (pool.take keep) } })
  else
    let (v, r) := d.richest c
    if r < 2 then ([], d)
    else
      let l := d.todo v
      (l.drop (r - r / 2), d.putTodo v (l.take (r - r / 2)))

/-- The back-off register stepped once (R216). -/
def lfsrStep (s : Nat) : Nat :=
  let fb := (bit s 15 + bit s 13 + bit s 12 + bit s 10) % 2
  (s * 2 + fb) % 65536

/-- The seed of a pip's back-off register (R216). -/
def lfsrSeed (p : Nat) : Nat :=
  let s := (fuseBits 15 0) ^^^ (p * 0x9E37 % 65536)
  if s = 0 then 1 else s

/-- The back-off in handshake cycles that a register value gives (R216). -/
def backoffOf (s : Nat) : Nat := 8 + (s % 256) % 57

/-- Attempts that R214 allows in one idle period. -/
def Dev.attempts (d : Dev) : Nat := if d.on R.FAB_STEAL_XCUP then 3 else 1

/-- One steal attempt of an idle pip (R214 to R217). -/
def Dev.steal (d : Dev) (damaged : Nat → Bool) (p : Nat) : Dev :=
  if d.get (R.PIP_STATE p) ≠ pipStealing then d
  else
    let a := d.get (R.PIP_ATTEMPT p)
    let victim := victimOf p a
    match d.grant victim with
    | ([], _) =>
      let d := (d.bump R.FAB_STEAL_FAIL 1).put (R.PIP_ATTEMPT p) (a + 1)
      let d := { d with pip := { d.pip with lfsr := Tab.set d.pip.lfsr p (lfsrStep (Tab.getD d.pip.lfsr p (lfsrSeed p))) } }
      if d.attempts ≤ a + 1 then (d.park p).bump R.FAB_PARKS 1 else d
    | (got, d) =>
      let d := d.bump R.FAB_STEAL_OK 1
      let d := (d.bump (R.CUP_STEAL_IN (cupOf p)) got.length).bump (R.CUP_STEAL_OUT victim) got.length
      let d := d.put (R.PIP_ATTEMPT p) 0
      (d.putTodo p got).startNext damaged p

/-- Pips that an orphan pool in cup c wakes: parked pips of the cup and of the two cups that R214 names it
for (R217). -/
def wakeCups (c : Nat) : List Nat :=
  let q := c / 8
  [c, 8 * q + (c + 7) % 8, 8 * q + (c + 1) % 8]

/-- Entries put in a cup's orphan pool; parked pips begin a new idle period (R191, R217). -/
def Dev.orphan (d : Dev) (c : Nat) (l : List Nat) : Dev :=
  if l = [] then d
  else
    let d := { d with pip := { d.pip with orphans := Tab.set d.pip.orphans c (Tab.getD d.pip.orphans c [] ++ l) } }
    let d := d.bump R.FAB_ORPHANED l.length
    if d.sched.phase ≠ .compose then d
    else (wakeCups c).foldl (fun (d : Dev) v => (List.range 8).foldl (fun (d : Dev) i =>
      if d.pipActive (8 * v + i) && d.get (R.PIP_STATE (8 * v + i)) == pipParked &&
          (v == c || d.on R.FAB_STEAL_XCUP) then d.beginIdle (8 * v + i) else d) d) d

/-! ### Failure (R189 to R194) -/

/-- Cups of a quarter with a reserve available, as QPIPS shows them. -/
def Dev.reserveRegs (d : Dev) (q : Nat) : Dev :=
  d.put (R.FAB_RES_AVAIL q) ((List.range 8).filter (fun i => d.on (R.CUP_RES_AVAIL (8 * q + i)))).length

/-- A failed pip's work goes to its cup's orphan pool (R191). -/
def Dev.orphanPip (d : Dev) (p : Nat) : Dev :=
  let l := (match Tab.get? d.pip.work p with | some k => [k] | none => []) ++ d.todo p
  let d := (d.putTodo p []).putWork p none
  d.orphan (cupOf p) l

/-- A pip fails (R189, R191). -/
def Dev.failPip (d : Dev) (p : Nat) (handshake : Bool) : Dev :=
  if !d.pipActive p then d
  else
    let d := (d.putPip p pipFailed).put (R.CUP_ACTIVE (cupOf p)) (clrBit (d.get (R.CUP_ACTIVE (cupOf p))) (p % 8))
    let d := d.orphanPip p
    let d := if handshake then d.flag (R.PIP_HS_TO p) else d
    let d := d.pipFlag p (R.PIP_FAULT p)
    d.cupFlag (cupOf p) (R.CUP_PIP_FAULT (cupOf p))

/-! ### The pace monitors (R220, R222) -/

/-- The reading that a count gives (R220). -/
def paceReading (scale count : Nat) : Nat := min 0xFFFF (count * scale / 65536)

/-- One sample of a cup (R222). -/
def Dev.samplePace (d : Dev) (c count : Nat) : Dev :=
  let v := paceReading (d.get (R.CUP_MON_SCALE c)) count
  let pa := d.get (R.ADM_PA (c / 8))
  let d := d.put (R.CUP_PACE_NOW c) v
  let d := (d.put (R.CUP_PACE_MIN c) (min v (d.get (R.CUP_PACE_MIN c)))).put (R.CUP_PACE_MAX c)
    (max v (d.get (R.CUP_PACE_MAX c)))
  let d :=
    if v < pa then
      let d := ((d.put (R.CUP_BELOW c) 1).bumpSat (R.CUP_BELOW_US c) 1).flag (R.CUP_PACE_LOW c)
      d.raiseOnceKey (100000 + c) (352 + c) (2 ^ 0)
    else (d.put (R.CUP_BELOW c) 0).put (R.CUP_BELOW_US c) 0
  if v < 3072 then (d.flag (R.CUP_PACE_FLOOR c)).raiseOnceKey (200000 + c) (352 + c) (2 ^ 1) else d

/-- PACE_SAMPLE (R220, R222): the counts of the 32 monitors over 1 µs. -/
def execPaceSample (counts : List Nat) (s : State) : Out :=
  .next (s.upd fun d => (counts.take 32).zipIdx.foldl (fun (d : Dev) x => d.samplePace x.2 x.1) d)

/-! ### Reserve pips (R190, R801 to R803) -/

/-- RESERVE_SELFTEST_DONE (R190): the 40 µs self-test of a cup's idle reserve ends. -/
def execReserveSelftestDone (cup : Nat) (ok : Bool) (s : State) : Out :=
  onUnit (decide (cup < 32)) s (fun d =>
    if ok || !d.on (R.CUP_RES_AVAIL cup) then d
    else
      let d := (d.put (R.CUP_RES_AVAIL cup) 0).reserveRegs (cup / 8)
      d.cupFlag cup (R.CUP_RES_FAIL cup))

/-- A field of SLOT_MAP put. -/
def slotPut (m i v : Nat) : Nat := m - bits m (4 * i + 3) (4 * i) * 16 ^ i + v * 16 ^ i

/-- DATA of a class 0x01 entry (R807). -/
def slotData (cup pip old new map : Nat) : List Byte :=
  leBytes 1 cup ++ leBytes 1 pip ++ leBytes 1 old ++ leBytes 1 new ++ leBytes 4 map

/-- SUBSTITUTION (R802): the banker serves the PIP_FAULT record of a failed pip. -/
def execSubstitution (pip : Nat) (s : State) : Out :=
  onUnit (decide (pip < 256)) s (fun d =>
    let c := cupOf pip
    let m := d.get (R.CUP_SLOT_MAP c)
    let old := bits m (4 * (pip % 8) + 3) (4 * (pip % 8))
    if d.bank.restarting || d.get (R.PIP_STATE pip) ≠ pipFailed || old = 15 then d
    else
      let d := d.journal { retire := [c * 9 + old] }
      if d.on (R.CUP_RES_AVAIL c) then
        let new := Tab.getD d.pip.reserve c 8
        let m' := slotPut m (pip % 8) new
        let d := ((d.put (R.CUP_SLOT_MAP c) m').put (R.CUP_RES_AVAIL c) 0).put (R.CUP_RES_USED c) 1
        let d := (d.reserveRegs (c / 8)).raise 968
        d.ledger ⟨false, 0x0100, 0x1F, 1, slotData c pip old new m', false⟩
      else
        let m' := slotPut m (pip % 8) 15
        let d := (d.put (R.CUP_SLOT_MAP c) m').raise 969
        d.ledger ⟨false, 0x0101, 0x1F, 1, slotData c pip old 15 m', false⟩)

/-- A cup taken out by the banker after a hub fault (R803). -/
def Dev.cupOut (d : Dev) (c code : Nat) : Dev :=
  let d := (d.put (R.CUP_SLOT_MAP c) 0xFFFFFFFF).raise 970
  d.ledger ⟨false, 0x0100 + code, 0x1F, 1, slotData c 0xFF 0xFF 0xFF 0xFFFFFFFF, false⟩

/-- HUB_OUT (R803, R850): the banker serves a HUB_FAULT of a cup, which may also be that of its quarter hub or
of a crossbar half. -/
def execHubOut (cup : Nat) (quarterHub xbarHalf : Bool) (s : State) : Out :=
  onUnit (decide (cup < 32)) s (fun d =>
    if d.bank.restarting then d
    else if xbarHalf then (d.raise 6).deviceFault suFaulted
    else if quarterHub then (List.range 8).foldl (fun (d : Dev) i => d.cupOut (8 * (cup / 8) + i) 3) d
    else d.cupOut cup 2)

end Sys2Proof.Machine
end

