-- ==== Sys2Proof/Machine/Admission.lean ====
section
/-! DEFINITION. The admission controller: charges, budgets, the computation of R144, held patches, the trial, shortfalls,
demotion and safe board (R116 to R184, R532, R561, R606, R878). -/

namespace Sys2Proof.Machine

/-! ### Fractions -/

/-- A numerator over a denominator above 0. -/
abbrev Frac := Nat × Nat

def Frac.add (a b : Frac) : Frac := if a.2 = b.2 then (a.1 + b.1, a.2) else (a.1 * b.2 + b.1 * a.2, a.2 * b.2)
def Frac.lt (a b : Frac) : Bool := decide (a.1 * b.2 < b.1 * a.2)
def Frac.sum (l : List Frac) : Frac := l.foldl Frac.add (0, 1)
/-- A fraction times a natural number. -/
def Frac.times (a : Frac) (n : Nat) : Frac := (a.1 * n, a.2)

/-! ### States and objects (R181, R183) -/

def admOff : Nat := 0
def admTrial : Nat := 1
def admNormal : Nat := 2
def admShedding : Nat := 3
def admSafe : Nat := 4

def Dev.adm? (d : Dev) : Nat := d.get R.ADM_STATE

/-- Index of the ladder objects of function f: 0x4001 + f. Function 15's collide with the drive rates of 0x4010 and
have an inner index of their own. -/
def fnIndex (f : Nat) : Nat := if f = 15 then 0x14010 else 0x4001 + f

/-- Best rung that function f may request. -/
def Dev.bestRung (d : Dev) (f : Nat) : Nat := d.objNat (fnIndex f) 1 (if f = 0 then 0 else 1)
/-- Share of pip time that function f may hold, percent. -/
def Dev.quotaPct (d : Dev) (f : Nat) : Nat := d.objNat (fnIndex f) 2 100
/-- Layer stakes that function f may hold. -/
def Dev.quotaLayers (d : Dev) (f : Nat) : Nat := d.objNat (fnIndex f) 3 64
/-- DRV_RATE of root port r, MB/s (R561). -/
def Dev.drvRate (d : Dev) (r : Nat) : Nat := d.objNat 0x4010 (1 + r) 3000

/-! ### Charges of a layer (R137 to R141, R327) -/

/-- A mask of stacks, 0 standing for all eight (R254). -/
def fullMask (m : Nat) : Nat := if m = 0 then 0xFF else m

/-- Stacks that hold a surface, as a mask. -/
def Surf.mask (u : Surf) : Nat := u.parts.foldl (fun m p => setBit m p.1) 0

/-- Bytes per pixel, form and stacks of what a SOURCE handle names. -/
def Dev.sourceCharge (d : Dev) (h : Nat) : Nat × Bool × Nat :=
  let ofSurf (i : Nat) : Nat × Bool × Nat :=
    match d.surf? i with
    | some u => (bppOf u.fmt, u.kamius, u.mask)
    | none => (0, false, 0)
  match d.chan? (handleCls h) (handleIdx h) with
  | none => (0, false, 0)
  | some c =>
    if handleCls h = clsSurface then ofSurf (handleIdx h)
    else if handleCls h = clsIngest then (4, false, fullMask (byteAt c.record 14))
    else if handleCls h = clsClip then
      match Tab.get? d.ing.packs (leAt c.record 4 4) with
      | some p => (bppOf p.fmt, p.kamius, fullMask (byteAt c.record 11))
      | none => (0, false, 0)
    else if handleCls h = clsLayer then ofSurf (handleIdx (lSource c.record))
    else (0, false, 0)

/-- A source-to-footprint ratio in sixteenths, rounded up, at least 1 (R139). -/
def ratio16 (crop dst : Nat) : Nat := max 16 (ceilDiv (16 * crop) dst)

/-- The cost weight of a layer in halves (R138, R328). -/
def Dev.layerWeight (d : Dev) (r : List Byte) : Nat :=
  if lKind r = 2 then 0
  else if lKind r = 1 ∨ lUnscaled r then 2
  else 2 + (if 4 < d.setTaps (lHset r) then 1 else 0) + (if 4 < d.setTaps (lVset r) then 1 else 0)

/-- The fetch charge of a layer in 1/4096 byte per turn, and its stacks (R139). A layer of another device reads
frames that come over table links, in frame-surface layout on all stacks, or nothing here. -/
def Dev.layerFetch (d : Dev) (home : Option Nat) (r : List Byte) : Nat × Nat :=
  if lKind r ≠ 0 then (0, 0)
  else
    let (bpp, kam, mask) :=
      if home.isSome then (if handleCls (lSource r) = clsIngest then (4, false, 0xFF) else (0, false, 0))
      else d.sourceCharge (lSource r)
    ((lEnv r).area * bpp * ratio16 (lCropW r) (lDstW r) * ratio16 (lCropH r) (lDstH r) * (if kam then 17 else 16), mask)

/-- The charge of a CAPTURE layer in 1/16 byte per turn, and its stacks (R327). -/
def Dev.layerCapture (d : Dev) (r : List Byte) : Nat × Nat :=
  if lKind r ≠ 2 ∨ lTargetDev r ≠ d.get R.PUSH_DEV_INDEX then (0, 0)
  else
    match d.surf? (handleIdx (lSource r)) with
    | none => (0, 0)
    | some a =>
      let b := if lTargetB r = 0 then 0 else (match d.surf? (handleIdx (lTargetB r)) with | some u => u.mask | none => 0)
      (lDstW r * lDstH r * bppOf a.fmt * (if a.kamius then 17 else 16), a.mask ||| b)

/-- A layer channel with the charges that its record makes. -/
def Dev.withCharges (d : Dev) (c : Chan) (r : List Byte) : Chan :=
  { c with
    record := r, stake := r, weight := (d.layerWeight r),
    fetch := (d.layerFetch c.home r).1, mask := (d.layerFetch c.home r).2,
    cap := (d.layerCapture r).1, capMask := (d.layerCapture r).2 }

/-- The envelope of a stake. -/
def Chan.env (c : Chan) : Rect := lEnv c.stake

/-! ### Held patches (R164, R167) -/

/-- A demoted layer's envelope meets the patch. -/
def Dev.demMeets (d : Dev) (k : Nat) : Bool :=
  (d.liveOf clsLayer).any (fun p => p.2.demoted && p.2.env.meets (d.patchRect k))

/-- A rung-0 layer's envelope meets the patch. -/
def Dev.pinMeets (d : Dev) (k : Nat) : Bool :=
  (d.liveOf clsLayer).any (fun p => p.2.rung == 0 && p.2.env.meets (d.patchRect k))

/-- Held patches as the stakes stand: those of R164, and those held before with no demoted layer over them
any more, until R167 releases them. -/
def Dev.reheld (d : Dev) : Dev :=
  let keep (k : Nat) : Bool := if d.demMeets k then !d.pinMeets k else decide (k ∈ d.adm.held)
  { d with adm := { d.adm with held := d.allPatches.filter keep } }

/-! ### Work (R137, R143, R878) -/

/-- The weight, in halves, of the layers whose work on a patch counts: a demoted stake keeps its work only on
patches that a rung-0 layer meets. `pin` counts rung-0 layers alone. -/
def Dev.patchWeight (d : Dev) (k : Nat) (pin : Bool) : Nat :=
  let r := d.patchRect k
  let composed := d.pinMeets k
  (d.liveOf clsLayer).foldl (fun n p =>
    if p.2.env.meets r && (!p.2.demoted || composed) && (!pin || p.2.rung == 0) then n + p.2.weight else n) 0

/-- Layer-pixel work of a patch (R137). -/
def Dev.patchWork (d : Dev) (k : Nat) (pin : Bool) : Nat := (d.patchRect k).area * d.patchWeight k pin / 2

/-- Patches of the squares that quarter q composes (R35). -/
def Dev.quarterPatches (d : Dev) (q : Nat) : List Nat :=
  d.allPatches.filter (fun k => quarterOf (patchSquare k / 64) == q)

/-- Largest of a list. -/
def maxNat (l : List Nat) : Nat := l.foldl max 0

/-- The pip time of R143 and R144 in ns: work w, largest m, n pips, np patches, pace pa over 1024. -/
def pipTime (w m n np : Nat) (pa : Frac) : Frac :=
  ((ceilDiv w n + 3 * m) * pa.2 + ((ceilDiv np n + 3) * 16 + 772) * pa.1, pa.1)

/-- The compose window of R144 in ns. -/
def Dev.windowNs (d : Dev) : Frac := (d.num - (d.sched.quiet * 1000 + 40000) * d.den, d.den)

/-- Admitted pip time of quarter q: none where it has no pip or no pace. The Bool tells of layer work. -/
def Dev.quarterTime (d : Dev) (q : Nat) : Bool × Option Frac :=
  let ps := d.quarterPatches q
  let free := ps.filter (fun k => !decide (k ∈ d.adm.held))
  let w := free.foldl (fun n k => n + d.patchWork k false) 0
  let m := maxNat (ps.map (fun k => d.patchWork k false))
  let n := d.get (R.ADM_NPIPS q)
  let pa := d.get (R.ADM_PA q)
  (decide (0 < w), if n = 0 ∨ pa = 0 then none else some (pipTime w m n free.length (pa, 1024)))

/-- Cups of a quarter with at least one active pip. -/
def Dev.liveCups (d : Dev) (q : Nat) : Nat :=
  ((List.range 8).filter (fun i => (List.range 8).any (fun j => d.pipActive (8 * (8 * q + i) + j)))).length

/-- The pip-time check of quarter q fails. -/
def Dev.pipOver (d : Dev) (q : Nat) : Bool :=
  match d.quarterTime q with
  | (work, none) => work
  | (_, some t) => d.windowNs.lt t

/-- The rung-0 reserve check of quarter q fails. -/
def Dev.pinOver (d : Dev) (q : Nat) : Bool :=
  let ps := (d.quarterPatches q).filter d.pinMeets
  if ps.isEmpty then false
  else
    let n0 := d.get (R.ADM_NPIPS q) - d.liveCups q
    if n0 < 1 then true
    else
      let works := ps.map (fun k => d.patchWork k true)
      let t0 := pipTime (works.foldl (· + ·) 0) (maxNat works) n0 ps.length (282, 100)
      Frac.lt (d.windowNs.1 * d.get R.ADM_PIN_SHARE, d.windowNs.2 * 32) t0

/-! ### HBM (R136, R139 to R141, R259, R327, R532, R561) -/

/-- Stacks in a mask. -/
def stackCount (m : Nat) : Nat := max 1 (popCount m 8)

/-- A charge of n / den bytes divided equally among the stacks of a mask: the share of stack k. -/
def share (k mask : Nat) (c : Frac) : Frac := if tbit mask k then (c.1, c.2 * stackCount mask) else (0, 1)

/-- The part of a rectangle that lies in patches which a rung-0 layer meets, in pixels. -/
def Dev.pinArea (d : Dev) (r : Rect) : Nat :=
  ((d.patchesIn r).filter d.pinMeets).foldl (fun n k => n + (r.inter (d.patchRect k)).area) 0

/-- Bytes per turn of a layer stake on stack k (R878 while demoted). -/
def Dev.layerBytes (d : Dev) (k : Nat) (c : Chan) : Frac :=
  let rect : Rect := ⟨(lDstX c.stake).toNat, (lDstY c.stake).toNat, lDstW c.stake, lDstH c.stake⟩
  let part (r : Rect) (f : Frac) : Frac := if c.demoted then (f.1 * d.pinArea r, f.2 * max 1 r.area) else f
  Frac.add (part c.env (share k c.mask (c.fetch, 4096))) (part rect (share k c.capMask (c.cap, 16)))

/-- Turns per second as a fraction: the cadence. -/
def Dev.cadence (d : Dev) : Frac := (d.den * 1000000000, d.num)

/-- Frames per turn of a rate. -/
def Dev.perTurn (d : Dev) (num den : Nat) : Frac := (num * d.num, den * d.den * 1000000000)

/-- Frames per turn of a clip channel: 1 for STEP (R561). -/
def Dev.clipPerTurn (d : Dev) (r : List Byte) (p : Pack) : Frac :=
  if byteAt r 8 = 1 then (1, 1) else d.perTurn p.rateNum p.rateDen

/-- The stored clip that a clip record names. -/
def Dev.packOf (d : Dev) (r : List Byte) : Option Pack := Tab.get? d.ing.packs (leAt r 4 4)

/-- Bytes per turn of an ingest stake on stack k. -/
def Dev.ingestBytes (d : Dev) (k : Nat) (c : Chan) : Frac :=
  if c.demoted then (0, 1)
  else share k (fullMask (byteAt c.stake 14))
    ((d.perTurn (leAt c.stake 16 4) (leAt c.stake 20 4)).times (leAt c.stake 8 2 * leAt c.stake 10 2 * 4))

/-- Bytes per turn of a clip stake on stack k. -/
def Dev.clipBytes (d : Dev) (k : Nat) (c : Chan) : Frac :=
  match d.packOf c.stake with
  | some p => if c.demoted then (0, 1) else share k (fullMask (byteAt c.stake 11)) ((d.clipPerTurn c.stake p).times p.length)
  | none => (0, 1)

/-- Calibration bytes per turn on stack k: 48 for each pixel whose cell lies there (R140, R360). -/
def Dev.calBytes (d : Dev) (k : Nat) : Nat :=
  d.geo.squares.foldl (fun n p =>
    let cols := ((List.range (ceilDiv p.2.w 8)).filter (fun i => (p.2.x / 8 + i) % 8 == k)).length
    n + 3072 * ceilDiv p.2.h 8 * cols) 0

/-- Everything admitted on stack k, bytes per turn. -/
def Dev.stackLoad (d : Dev) (k : Nat) : Frac :=
  Frac.sum ((d.calBytes k, 1) ::
    ((d.liveOf clsLayer).map (fun p => d.layerBytes k p.2) ++
     (d.liveOf clsIngest).map (fun p => d.ingestBytes k p.2) ++
     (d.liveOf clsClip).map (fun p => d.clipBytes k p.2)))

/-- Capacity of a stack, bytes per turn (R136). -/
def Dev.stackCap (d : Dev) : Frac := (2048 * 3490 * (d.num - d.sched.quiet * 1000 * d.den), 3900 * d.den)

/-- The budget of stack k is over. -/
def Dev.stackOver (d : Dev) (k : Nat) : Bool := d.stackCap.lt (d.stackLoad k)

/-! ### The other budgets (R136, R532, R547, R561, R562, R606) -/

/-- Bits per second of ingest stakes on port i. -/
def Dev.portLoad (d : Dev) (i : Nat) : Nat :=
  (d.liveOf clsIngest).foldl (fun n p =>
    n + ((legPorts p.2.stake).filter (· == i)).length * leAt p.2.stake 24 4 * 1000) 0

/-- Ingest port i is over. -/
def Dev.portOver (d : Dev) (i : Nat) : Bool := decide (400000000000 < d.portLoad i)

/-- Stakes on JPEG XS decoder j that still decode. -/
def Dev.xsStakes (d : Dev) (j : Nat) : List Chan :=
  ((d.liveOf clsIngest).filter (fun p => byteAt p.2.stake 4 == 1 && byteAt p.2.stake 7 == j && !p.2.demoted)).map (·.2)

/-- Pixels per second on decoder j. -/
def Dev.xsLoad (d : Dev) (j : Nat) : Frac :=
  Frac.sum ((d.xsStakes j).map (fun c => (leAt c.stake 8 2 * leAt c.stake 10 2 * leAt c.stake 16 4, max 1 (leAt c.stake 20 4))))

/-- Decoder j is over: its rate, or its 16 channels (R544). -/
def Dev.xsOver (d : Dev) (j : Nat) : Bool := Frac.lt (4000000000, 1) (d.xsLoad j) || decide (16 < (d.xsStakes j).length)

/-- MiB units of a frame. -/
def Pack.units (p : Pack) : Nat := ceilDiv p.length 1048576

/-- Bytes per second of clip stakes on one member drive. -/
def Dev.driveLoad (d : Dev) : Frac :=
  Frac.sum ((d.liveOf clsClip).map (fun c =>
    match d.packOf c.2.stake with
    | some p =>
      if c.2.demoted then (0, 1)
      else
        let f : Frac := if byteAt c.2.stake 8 = 1 then d.cadence else (p.rateNum, p.rateDen)
        f.times (ceilDiv p.units (max 1 d.ing.members.length) * 1048576)
    | none => (0, 1)))

/-- A member drive is over (R561). -/
def Dev.clipOver (d : Dev) : Bool :=
  d.ing.members.any (fun m => Frac.lt (d.drvRate m.1 * 1000000, 1) d.driveLoad)

/-- (NLOOK − 2) / F is at least 50 ms (R562). -/
def Dev.lookOk (d : Dev) (r : List Byte) : Bool :=
  match d.packOf r with
  | none => true
  | some p =>
    let f : Frac := if byteAt r 8 = 1 then d.cadence else (p.rateNum, p.rateDen)
    decide (f.1 * 50 ≤ (byteAt r 10 - 2) * 1000 * f.2)

/-- SENSE_HZ and CELL_LOG2 of a snake. -/
def Dev.senseHz (d : Dev) (s : Nat) : Nat := d.get (R.SNK_SENSE_HZ s)
def Dev.cellLog2 (d : Dev) (s : Nat) : Nat := d.get (R.SNK_CELL_LOG2 s)

/-- Planes that a square scans: touch and pressure flags of its record (R87). -/
def Square.planes (q : Square) : Nat := (if tbit q.flags 3 then 1 else 0) + (if tbit q.flags 4 then 1 else 0)

/-- Cells of a square (R605). -/
def cellsOf (q : Square) (log2 : Nat) : Nat := ceilDiv q.w (2 ^ log2) * ceilDiv q.h (2 ^ log2)

/-- The region of a sense record (R608). -/
def senseRegion (r : List Byte) : Rect := ⟨leAt r 8 2, leAt r 10 2, leAt r 12 2, leAt r 14 2⟩

/-- Square n is sensed (R604). -/
def Dev.sensed (d : Dev) (q : Square) : Bool :=
  decide (0 < q.planes) && (d.liveOf clsSense).any (fun c => (senseRegion c.2.record).meets ⟨q.x, q.y, q.w, q.h⟩)

/-- Words of the SENSE frames of one scan of n cells on one plane: frames of at most 1,024 readings, four to a
word, each with three further words (R606, R614). -/
def planeWords (n : Nat) : Nat := (n / 1024) * 259 + (if n % 1024 = 0 then 0 else 3 + ceilDiv (n % 1024) 4)

/-- The sense budgets of R606 fail. `hz` and `log2` give the settings of each snake. -/
def Dev.senseFails (d : Dev) (hz log2 : Nat → Nat) : Bool :=
  let sq := d.geo.squares.filter (fun p => d.sensed p.2)
  let rate (p : Nat × Square) : Nat := cellsOf p.2 (log2 (p.1 / 64)) * p.2.planes * hz (p.1 / 64)
  let bits (p : Nat × Square) : Nat := planeWords (cellsOf p.2 (log2 (p.1 / 64))) * p.2.planes * 64 * hz (p.1 / 64)
  sq.any (fun p => decide (250000000 < bits p)) || decide (1536000000 < sq.foldl (fun n p => n + rate p) 0)

/-- The sense budgets are over. -/
def Dev.senseOver (d : Dev) : Bool := d.senseFails d.senseHz d.cellLog2

/-! ### Table links (R550) -/

/-- The table channels' ports with the device at their other end: byte 0 and byte 1 of the record that the
model keeps for a table channel. -/
def Dev.tablePorts (d : Dev) : List (Nat × Nat) :=
  (d.liveOf clsTable).map (fun c => (byteAt c.2.record 0, byteAt c.2.record 1))

/-- Board rectangles of the squares of another device, from the image in force (R86, R87). -/
def Dev.peerRects (d : Dev) (dev : Nat) : List Rect := (d.geo.others.filter (fun p => p.1 == dev)).map (fun p => ⟨p.2.x, p.2.y, p.2.w, p.2.h⟩)

/-- Frames of ingest channel i go to another device: it holds squares that a layer naming the channel reaches. -/
def Dev.forwardsTo (d : Dev) (i dev : Nat) : Bool :=
  (d.liveOf clsLayer).any (fun p => lKind p.2.stake == 0 && p.2.home.isNone && handleCls (lSource p.2.stake) == clsIngest &&
    handleIdx (lSource p.2.stake) == i && (d.peerRects dev).any (fun r => p.2.env.meets r))

/-- Bits per second that forwarded frames put on a table port. -/
def Dev.tableLoad (d : Dev) (dev : Nat) : Nat :=
  (d.liveOf clsIngest).foldl (fun n p =>
    if d.forwardsTo p.1 dev then n + leAt p.2.stake 24 4 * 1000 else n) 0

/-- A table link is over. -/
def Dev.tableOver (d : Dev) : Bool := d.tablePorts.any (fun p => decide (400000000000 < d.tableLoad p.2))

/-! ### The verdict (R144, R145) -/

/-- A mask of the indices below n that p holds of. -/
def maskOf (p : Nat → Bool) (n : Nat) : Nat := (List.range n).foldl (fun m i => if p i then m + 2 ^ i else m) 0

/-- What the budgets say: quarters by pip time, quarters by the rung-0 reserve, stacks, and the rest in the
order of R145. -/
structure Verdict where
  pip : Nat
  pin : Nat
  hbm : Nat
  port : Nat
  xs : Nat
  clip : Bool
  sense : Bool
  table : Bool
  deriving DecidableEq, Repr

def Dev.verdict (d : Dev) : Verdict :=
  ⟨maskOf d.pipOver 4, maskOf d.pinOver 4, maskOf d.stackOver 8, maskOf d.portOver 8, maskOf d.xsOver 8,
   d.clipOver, d.senseOver, d.tableOver⟩

/-- Some budget is over. -/
def Verdict.over (v : Verdict) : Bool :=
  v.pip != 0 || v.pin != 0 || v.hbm != 0 || v.port != 0 || v.xs != 0 || v.clip || v.sense || v.table

/-- Reason codes of R181. -/
def rsSafe : Nat := 1
def rsQuota : Nat := 2
def rsDepth : Nat := 3
def rsClip : Nat := 9
def rsTable : Nat := 11

/-- The first reason of R145, 0 for none. -/
def Verdict.reason (v : Verdict) : Nat :=
  if v.pip ≠ 0 then 4 else if v.pin ≠ 0 then 5 else if v.hbm ≠ 0 then 6 else if v.port ≠ 0 then 7
  else if v.xs ≠ 0 then 8 else if v.clip then rsClip else if v.sense then 10 else if v.table then rsTable else 0

/-- The pip-time quota of function f is exceeded (R183). -/
def Dev.quotaOver (d : Dev) (f : Nat) : Bool :=
  (List.range 4).any (fun q =>
    let n := d.get (R.ADM_NPIPS q)
    let pa := d.get (R.ADM_PA q)
    if n = 0 ∨ pa = 0 then false
    else
      let free := (d.quarterPatches q).filter (fun k => !decide (k ∈ d.adm.held))
      let w := free.foldl (fun n k =>
        let r := d.patchRect k
        n + r.area * ((d.liveOf clsLayer).foldl (fun m p =>
          if p.2.owner == f && p.2.env.meets r && (!p.2.demoted || d.pinMeets k) then m + p.2.weight else m) 0) / 2) 0
      let limit : Frac := (d.windowNs.1 * d.quotaPct f, d.windowNs.2 * 100)
      limit.lt (ceilDiv w n * 1024, pa))

/-- Layers that meet a patch, CAPTURE layers left out (R144, R328). -/
def Dev.depth (d : Dev) (k : Nat) : Nat :=
  ((d.liveOf clsLayer).filter (fun p => lDraws p.2.stake && p.2.env.meets (d.patchRect k))).length

/-- More than 16 layers meet a patch that an envelope touches. -/
def Dev.depthOver (d : Dev) (env : Rect) : Bool := (d.patchesIn env).any (fun k => decide (16 < d.depth k))

/-! ### Registers that show the ledger -/

/-- Loads, stakes and demoted channels as the ledger stands (R181, R567). -/
def Dev.admRegs (d : Dev) : Dev :=
  let cap (n : Nat) : Nat := min n (2 ^ 32 - 1)
  let e := (List.range 4).foldl (fun (e : Dev) q =>
    e.put (R.ADM_LOAD_Q q) (match d.quarterTime q with
      | (_, some t) => cap (t.1 * d.windowNs.2 * 65536 / (t.2 * d.windowNs.1))
      | (_, none) => 0)) d
  let e := (List.range 8).foldl (fun (e : Dev) k =>
    let l := d.stackLoad k
    e.put (R.ADM_LOAD_S k) (cap (l.1 * d.stackCap.2 * 65536 / (l.2 * d.stackCap.1)))) e
  let all := [clsLayer, clsIngest, clsClip, clsSense, clsTable].flatMap (fun c => (d.liveOf c).map (·.2))
  let e := (List.range 8).foldl (fun (e : Dev) r =>
    (e.put (R.ADM_STAKES r) (all.filter (fun c => c.rung == r && !c.demoted)).length).put (R.ADM_DEMOTED_N r)
      (all.filter (fun c => c.rung == r && c.demoted)).length) e
  (List.range 8).foldl (fun (e : Dev) j =>
    let l := d.xsLoad j
    (e.put (R.XSD_CHANNELS j) (d.xsStakes j).length).put (R.XSD_LOAD j) (l.1 * 65536 / (l.2 * 4000000000))) e

/-- ADM_LAST records a request. -/
def Dev.admLast (d : Dev) (status reason qmask smask rung handle : Nat) : Dev :=
  let d := ((d.put R.ADM_STATUS status).put R.ADM_REASON reason).put R.ADM_QMASK qmask
  ((((d.put R.ADM_SMASK smask).put R.ADM_RUNG rung).put R.ADM_VALID 1)).put R.ADM_LAST_HANDLE handle

/-! ### Requests -/

/-- A request for a stake: the channel as it would stand. -/
structure Request where
  cls : Nat
  idx : Nat
  chan : Chan
  /-- the channel as it stands, none for a create -/
  old : Option Chan
  handle : Nat
  priv : Bool
  deriving DecidableEq, Repr

/-- Checks of R144 before the budgets, in the order of R23: a status and a reason, none where they pass. The
CYCLE and NO_CAPACITY checks of the class come in as statuses. -/
def Dev.preAdmit (d : Dev) (r : Request) (cycle full : Bool) : Option (Nat × Nat) :=
  let f := r.chan.owner
  if 7 < r.chan.rung then some (stRange, 0)
  else if r.chan.rung = 0 ∧ !r.priv then some (stLocked, 0)
  else if r.chan.rung < d.bestRung f then some (stLocked, 0)
  else if d.adm? = admOff ∨ d.adm? = admTrial then some (stBusy, 0)
  else if r.cls = clsLayer ∧ r.old.isNone ∧ d.get R.PUSH_TABLE = 3 then some (stBusy, 0)
  else if cycle then some (stCycle, 0)
  else if full then some (stNoCapacity, 0)
  else if d.adm? = admSafe ∧ 0 < r.chan.rung then some (stRefused, rsSafe)
  else if r.cls = clsLayer ∧ r.old.isNone ∧
      d.quotaLayers f < ((d.liveOf clsLayer).filter (fun p => p.2.owner == f)).length + 1 then some (stRefused, rsQuota)
  else none

/-- The ledger as it would be with the request admitted: held patches counted as they would then be (R166). -/
def Dev.asIf (d : Dev) (r : Request) : Dev :=
  let e := (d.putChan r.cls r.idx { r.chan with demoted := false, retiring := false }).reheld
  match r.old with
  | some o =>
    if o.demoted ∧ r.cls = clsLayer then
      let back (k : Nat) : Bool := o.env.meets (d.patchRect k) && !e.demMeets k
      { e with adm := { e.adm with held := e.adm.held.filter (fun k => !back k) } }
    else e
  | none => e

/-- The budgets against a request: reason, quarters and stacks that fail. -/
def Dev.judge (d : Dev) (r : Request) : Nat × Nat × Nat :=
  let e := d.asIf r
  if r.cls = clsLayer && e.quotaOver r.chan.owner then (rsQuota, 0, 0)
  else if r.cls = clsLayer && (e.depthOver r.chan.env || (match r.old with | some o => e.depthOver o.env | none => false)) then (rsDepth, 0, 0)
  else if r.cls = clsClip && !d.lookOk r.chan.stake then (rsClip, 0, 0)
  else
    let v := e.verdict
    (v.reason, v.pip ||| v.pin, v.hbm)

/-- A refused or failed request is reported (R24, R145). -/
def Dev.admFail (d : Dev) (r : Request) (status reason qmask smask : Nat) : Dev :=
  let d := d.admLast status reason qmask smask r.chan.rung r.handle
  if status = stRefused then (d.bump R.ADM_REFUSE_CNT 1).raiseOnce 74
  else if status = stCycle then d.raise 75 else d

/-- Quarters in which a plan entry may have changed. -/
def Dev.planDirty (d : Dev) : Dev :=
  { d with pip := { d.pip with rebuild := [0, 1, 2, 3] } }

/-- The stake is admitted: ASEQ, counters, and the plans to be rebuilt (R144, R210). The channel itself is put
by the caller's create or here for a replacement. -/
def Dev.admPass (d : Dev) (r : Request) (handle : Nat) : Dev :=
  let aseq := d.get R.ADM_ASEQ + 1
  let d := (d.put R.ADM_ASEQ aseq).bump R.ADM_ADMIT_CNT 1
  let d := d.admLast stOk 0 0 0 r.chan.rung handle
  let d := d.modChan r.cls r.idx (fun c => { c with aseq := aseq, demoted := false })
  (d.reheld.planDirty).admRegs

/-- The result of a request: its status and reason, and the state; on OK a replacement is in force. -/
def Dev.admitStake (d : Dev) (r : Request) (cycle full : Bool) : Nat × Nat × Dev :=
  match d.preAdmit r cycle full with
  | some (st, rs) => (st, rs, d.admFail r st rs 0 0)
  | none =>
    match d.judge r with
    | (0, _, _) =>
      match r.old with
      | some _ => (stOk, 0, (d.putChan r.cls r.idx r.chan).admPass r r.handle)
      | none => (stOk, 0, d)
    | (rs, q, s) => (stRefused, rs, d.admFail r stRefused rs q s)

/-- A stake leaves the ledger with its channel's retirement (R144, R172). -/
def Dev.stakeGone (d : Dev) : Dev := (d.reheld.planDirty).admRegs

/-! ### Trial (R126 to R135) -/

/-- A class whose LIVE channels forbid a TRIAL (R133). -/
def Dev.trialBarred (d : Dev) : Bool :=
  d.adm? == admTrial || d.adm? == admOff ||
    [clsLayer, clsIngest, clsClip, clsSense].any (fun c => !(d.liveOf c).isEmpty)

/-- A rejected ADM_CMD. -/
def Dev.admCmdRej (d : Dev) (event : Nat) : Dev := (d.flag R.ADM_CMD_REJ).raiseD event (2 ^ 10)

/-- ADM_CMD of TRIAL. -/
def Dev.trialCmd (d : Dev) : Dev :=
  if d.trialBarred then d.admCmdRej 76
  else
    let d := d.put R.ADM_STATE admTrial
    let d : Dev := (List.range 256).foldl (fun (d : Dev) p => if d.pipActive p then d.putPip p pipTrial else d) d
    (d.put R.PWR_VC_TARGET_MV (d.get R.ADM_VADM_MV)).put R.PWR_VCORE_MV (d.get R.ADM_VADM_MV)

/-- The measured paces of the 32 cups, 1/1024 lpx/ns, end a trial (R128, R129, R135). -/
def Dev.trialResult (d : Dev) (paces : List Nat) : Dev :=
  let pace (q : Nat) : Nat :=
    let cups := (List.range 8).filter (fun i => (List.range 8).any (fun j => d.pipActive (8 * (8 * q + i) + j)))
    match cups.map (fun i => paces.getD (8 * q + i) 0) with
    | [] => 0
    | x :: t => t.foldl min x
  let d := (List.range 4).foldl (fun (d : Dev) q =>
    (((d.put (R.ADM_TRIAL q) (pace q)).put (R.ADM_PA q) (pace q * 94 / 100)).put (R.ADM_NPIPS q) (d.activePips q).length)) d
  let d := (List.range 256).foldl (fun (d : Dev) p =>
    if d.get (R.PIP_STATE p) = pipTrial then d.putPip p pipParked else d) d
  let d := (d.put R.ADM_STATE admNormal).flagRaise R.ADM_TRIAL_DONE 69
  let low := d.get R.ADM_VADM_MV == 900 && (List.range 4).any (fun q => decide (pace q * 100 < 330 * 1024))
  let d := if low then d.flagRaise R.ADM_TRIAL_LOW 70 else d
  let d := { d with pwr := { d.pwr with trialDone := true } }
  d.planDirty.admRegs

/-- TRIAL (R126, R133, R134): ADM_CMD of TRIAL by a requester. -/
def execTrial (req : Nat) (s : State) : Out :=
  onUnit (decide (req < 33)) s (fun d => if fullAccess req then d.trialCmd else d)

/-- TRIAL_DONE (R128 to R135): 250 ms of the load have run; the lowest paces of the last 50 ms by cup. -/
def execTrialDone (paces : List Nat) (s : State) : Out :=
  .next (s.upd fun d => if d.adm? = admTrial then d.trialResult paces else d)

/-! ### Shortfalls (R158 to R160) -/

/-- A shortfall occurs (R158, R159, R184). -/
def Dev.short (d : Dev) : Dev :=
  let d := (d.flagRaise R.ADM_PACE_SHORT 67).bump R.ADM_SHED_CNT 1
  if d.adm? = admNormal then d.put R.ADM_STATE admShedding else d

/-- SHORTFALL (R158, R160): a cup of a quarter has stayed under PA for SHED_US with VCORE at VADM. PA takes the
lowest live pace of the quarter's cups. -/
def execShortfall (quarter : Nat) (s : State) : Out :=
  onUnit (decide (quarter < 4)) s (fun d =>
    if d.adm? = admOff ∨ d.adm? = admTrial then d
    else
      let cups := (List.range 8).filter (fun i => (List.range 8).any (fun j => d.pipActive (8 * (8 * quarter + i) + j)))
      let paces := cups.map (fun i => d.get (R.CUP_PACE_NOW (8 * quarter + i)))
      let low := match paces with | [] => 0 | x :: t => t.foldl min x
      let d := d.short
      let d := d.put (R.ADM_NPIPS quarter) (d.activePips quarter).length
      if low < d.get (R.ADM_PA quarter) then
        (d.put (R.ADM_PA quarter) low).flagRaise R.ADM_PA_LOWERED 71
      else d)

/-! ### Recomputation (R161 to R168, R172) -/

/-- Stakes of rungs 1 to 7 that are not demoted, in the order of R161. -/
def Dev.shedOrder (d : Dev) : List (Nat × Nat × Chan) :=
  let all := [clsLayer, clsIngest, clsClip, clsSense].flatMap (fun cls => (d.liveOf cls).map (fun p => (cls, p.1, p.2)))
  let open_ := all.filter (fun x => decide (0 < x.2.2.rung) && !x.2.2.demoted)
  sortBy (fun x : Nat × Nat × Chan => (7 - x.2.2.rung) * 2 ^ 64 + (2 ^ 64 - 1 - x.2.2.aseq)) open_

/-- A stake draws on a budget that is over. -/
def Dev.drawsOver (d : Dev) (v : Verdict) (cls : Nat) (c : Chan) : Bool :=
  if cls = clsLayer then
    (decide (0 < c.weight) && (d.patchesIn c.env).any (fun k => tbit (v.pip ||| v.pin) (quarterOf (patchSquare k / 64)))) ||
      (decide (0 < c.fetch) && (c.mask &&& v.hbm) != 0) || (decide (0 < c.cap) && (c.capMask &&& v.hbm) != 0) ||
      (v.table && handleCls (lSource c.stake) == clsIngest)
  else if cls = clsIngest then
    (fullMask (byteAt c.stake 14) &&& v.hbm) != 0 || (legPorts c.stake).any (fun i => tbit v.port i) ||
      (byteAt c.stake 4 == 1 && tbit v.xs (byteAt c.stake 7))
  else if cls = clsClip then (fullMask (byteAt c.stake 11) &&& v.hbm) != 0 || v.clip
  else v.sense

/-- A stake is demoted (R162, R163): the flag, the layer's register, the DEMOTED entry, event 64. -/
def Dev.demote (d : Dev) (cls idx : Nat) (c : Chan) : Dev :=
  let d := (d.modChan cls idx (fun c => { c with demoted := true })).reheld.planDirty
  let d := if cls = clsLayer then (d.put (R.LAY_DEMOTED idx) 1).markLayer c.record
    else if cls = clsSense then d.put (R.SCH_DEMOTED idx) 1 else d
  let d := (d.flagRaise R.ADM_DEMOTED 64).bump R.ADM_DEMOTE_CNT 1
  d.postAsync (d.queueRing c.queue)
    ⟨c.tag, stDemoted, false, true, c.handle cls idx, (d.time.turn + 1) % 2 ^ 32, c.queue, 0⟩

/-- Demotions of R161, at most n: while a budget is over, the first stake of the order that draws on one. The
Bool tells whether a budget is still over. -/
def Dev.shed (d : Dev) : Nat → Bool × Dev
  | 0 => (d.verdict.over, d)
  | n + 1 =>
    let v := d.verdict
    if !v.over then (false, d)
    else match d.shedOrder.find? (fun x => d.drawsOver v x.1 x.2.2) with
      | none => (true, d)
      | some x => (d.demote x.1 x.2.1 x.2.2).shed n

/-- Held patches with no demoted layer over them, released together when their work fits (R167). -/
def Dev.releaseHeld (d : Dev) : Dev :=
  let back := d.adm.held.filter (fun k => !d.demMeets k)
  if back.isEmpty then d
  else
    let e := { d with adm := { d.adm with held := d.adm.held.filter (fun k => !decide (k ∈ back)) } }
    if e.verdict.over then d else (e.planDirty).markAll back

/-- The recomputation at the opening of a compose window (R161, R167, R168). -/
def Dev.recompute (d : Dev) : Dev :=
  if d.adm? = admOff ∨ d.adm? = admTrial then d
  else
    let (still, d) := d.shed d.shedOrder.length
    if still then
      if d.adm? = admSafe then d.admRegs
      else
        let d := d.shedOrder.foldl (fun (d : Dev) x => d.demote x.1 x.2.1 x.2.2) d
        let d := (d.put R.ADM_STATE admSafe).bump R.ADM_SAFE_CNT 1
        (d.flagRaise R.ADM_SAFE_ENTER 65).admRegs
    else
      let d := if d.adm? = admShedding then d.put R.ADM_STATE admNormal else d
      (if d.adm? = admSafe then d else d.releaseHeld).admRegs

/-! ### Resume (R170, R171) -/

def Dev.resumeCmd (d : Dev) : Dev :=
  if d.adm? ≠ admSafe then d.admCmdRej 76
  else if d.verdict.over then d.admCmdRej 73
  else (d.put R.ADM_STATE admNormal).flagRaise R.ADM_SAFE_EXIT 66

/-- RESUME: ADM_CMD of RESUME by a requester. -/
def execResume (req : Nat) (s : State) : Out :=
  onUnit (decide (req < 33)) s (fun d => if fullAccess req then d.resumeCmd else d)

/-! ### A new geometry or period against the stakes (R92, R148, R149) -/

/-- Every stake fits as the device would be: the reason that fails first, 0 for none. -/
def Dev.stakesFail (d : Dev) : Nat :=
  let e := d.reheld
  let layers := (e.liveOf clsLayer).map (·.2)
  let none_ := layers.isEmpty && (e.liveOf clsIngest).isEmpty && (e.liveOf clsClip).isEmpty && (e.liveOf clsSense).isEmpty
  if none_ then 0
  else if (layers.map (·.owner)).eraseDups.any (fun f => e.quotaOver f) then rsQuota
  else if layers.any (fun c => e.depthOver c.env) then rsDepth
  else if (e.liveOf clsClip).any (fun p => !e.lookOk p.2.stake) then rsClip
  else e.verdict.reason

end Sys2Proof.Machine
end

