-- ==== Sys2Proof/Machine/Blit.lean ====
section
/-! DEFINITION. The block engine: its commands, checks, operations, rings, and the direct interface
(R570 to R603). -/

namespace Sys2Proof.Machine

/-! ### Fields of a command (R582) and of a blit record (R581) -/

def bOp (c : List Byte) : Nat := byteAt c 0 % 128
def bFlags (c : List Byte) : Nat := byteAt c 8
def bDir (c : List Byte) : Nat := bits (bFlags c) 3 2
def bRop (c : List Byte) : Nat := byteAt c 9
def bSrc (c : List Byte) : Nat := leAt c 12 4
def bDst (c : List Byte) : Nat := leAt c 16 4
def bSrcX (c : List Byte) : Nat := leAt c 20 2
def bSrcY (c : List Byte) : Nat := leAt c 22 2
def bDstX (c : List Byte) : Nat := leAt c 24 2
def bDstY (c : List Byte) : Nat := leAt c 26 2
def bW (c : List Byte) : Nat := leAt c 28 2
def bH (c : List Byte) : Nat := leAt c 30 2
def bFill (c : List Byte) : Nat := leAt c 32 8
def bArg (c : List Byte) : Nat := leAt c 40 4

/-- A channel is ONESHOT. -/
def bkOneshot (r : List Byte) : Bool := byteAt r 4 == 1
/-- Clip MODE and the clip rectangles in use. -/
def bkMode (r : List Byte) : Nat := byteAt r 5 % 4
def bkClips (r : List Byte) : List Rect :=
  (List.range (byteAt r 6)).map (fun i => ⟨leAt r (32 + 8 * i) 2, leAt r (34 + 8 * i) 2, leAt r (36 + 8 * i) 2, leAt r (38 + 8 * i) 2⟩)

/-! ### An operation -/

/-- An operation with its surfaces found. -/
structure BlitJob where
  op : Nat
  rop : Nat
  dir : Nat
  src : Option Surf
  dst : Surf
  dstIdx : Nat
  sx : Nat
  sy : Nat
  dx : Nat
  dy : Nat
  w : Nat
  h : Nat
  fill : Nat
  mode : Nat
  clips : List Rect

/-- The operation that a command asks for, where its destination names a surface held. -/
def Dev.blitJob (d : Dev) (cmd record : List Byte) : Option BlitJob :=
  match d.surf? (handleIdx (bDst cmd)) with
  | none => none
  | some dst => some {
      op := bOp cmd, rop := bRop cmd, dir := bDir cmd,
      src := if bSrc cmd = 0 then none else d.surf? (handleIdx (bSrc cmd)),
      dst := dst, dstIdx := handleIdx (bDst cmd),
      sx := bSrcX cmd, sy := bSrcY cmd, dx := bDstX cmd, dy := bDstY cmd, w := bW cmd, h := bH cmd,
      fill := bFill cmd, mode := bkMode record, clips := bkClips record }

/-- The operation writes the pixel at (x, y) of its rectangle (R588). -/
def BlitJob.writes (j : BlitJob) (x y : Nat) : Bool :=
  let inside := j.clips.any (fun r => decide (r.x ≤ j.dx + x) && decide (j.dx + x < r.x + r.w) &&
    decide (r.y ≤ j.dy + y) && decide (j.dy + y < r.y + r.h))
  decide (j.dx + x < j.dst.w) && decide (j.dy + y < j.dst.h) &&
    (match j.src with
     | some u => decide (j.sx + x < u.w) && decide (j.sy + y < u.h)
     | none => true) &&
    (if j.mode = 1 then inside else if j.mode = 2 then !inside else true)

/-- Pixels of the rectangle that clipping leaves out. -/
def BlitJob.clipped (j : BlitJob) : Nat :=
  (List.range j.h).foldl (fun n y => n + ((List.range j.w).filter (fun x => !j.writes x y)).length) 0

/-- For a Kamius destination the written pixels are a union of whole blocks (R588). -/
def BlitJob.wholeBlocks (j : BlitJob) : Bool :=
  (List.range (j.h / 8)).all (fun by_ => (List.range (j.w / 8)).all (fun bx =>
    let cell := (List.range 64).map (fun i => j.writes (8 * bx + i % 8) (8 * by_ + i / 8))
    cell.all (· == true) || cell.all (· == false)))

/-- The result word of a pixel: code, width in bits, and the words of FILL, source and destination (R571). -/
def ropWord (code n p s d : Nat) : Nat :=
  (List.range n).foldl (fun a i => a + bit code (4 * bit p i + 2 * bit s i + bit d i) * 2 ^ i) 0

/-- The ROP code that an operation amounts to. -/
def BlitJob.code (j : BlitJob) : Nat := if j.op = 1 then 0xCC else if j.op = 2 then 0xF0 else j.rop

/-- Stored word of a pixel of a surface. -/
def State.word (s : State) (u : Surf) (x y : Nat) : Nat := leOf (s.pixelBytes u x y)

/-- The pixel of an uncompressed surface touches a poisoned flit; a block in error reads as CLEAR instead. -/
def State.pixelPoisoned (s : State) (u : Surf) (x y : Nat) : Bool :=
  !u.kamius && (s.surfPoison u (y * u.pitch + x * bppOf u.fmt) (bppOf u.fmt)).isSome

/-- A pixel's operands meet poison: its source, as read in `at_`, or the destination that a ROP reads. -/
def BlitJob.poisonAt (j : BlitJob) (at_ s : State) (x y : Nat) : Bool :=
  (match j.src with | some u => at_.pixelPoisoned u (j.sx + x) (j.sy + y) | none => false) ||
    (j.op == 3 && s.pixelPoisoned j.dst (j.dx + x) (j.dy + y))

/-- The bytes that a pixel takes, with the source read in `at_` and the destination in s. -/
def BlitJob.pixel (j : BlitJob) (at_ s : State) (x y : Nat) : List Byte :=
  let bpp := bppOf j.dst.fmt
  let sw := match j.src with | some u => at_.word u (j.sx + x) (j.sy + y) | none => 0
  let dw := if j.op = 3 then s.word j.dst (j.dx + x) (j.dy + y) else 0
  leBytes bpp (ropWord j.code (8 * bpp) j.fill sw dw)

/-! ### Running it -/

/-- How far an operation has come: pixels it may still write, pixels written, and their bounding box. -/
structure BlitRun where
  s : State
  ok : Bool := true
  left : Nat
  px : Nat := 0
  x0 : Nat := 0
  y0 : Nat := 0
  x1 : Nat := 0
  y1 : Nat := 0

/-- n pixels from (x, y), in one row, have been written. -/
def BlitRun.cover (r : BlitRun) (x y n : Nat) : BlitRun :=
  if n = 0 then r
  else if r.px = 0 then { r with px := n, x0 := x, y0 := y, x1 := x + n, y1 := y + 1 }
  else { r with px := r.px + n, x0 := min r.x0 x, y0 := min r.y0 y, x1 := max r.x1 (x + n), y1 := max r.y1 (y + 1) }

/-- A run of bytes written piece by piece, from its end under BACKWARD: a merge that meets poison ends it. The
number of bytes written is answered beside (R574, R597). -/
def State.blitPut (s : State) (u : Surf) (back : Bool) (off : Nat) (bs : List Byte) : Nat × State :=
  let ps := chunks bs.length off bs
  let ps := if back then ps.reverse else ps
  let good := ps.takeWhile (fun p => !(decide (p.2.length < 32) && decide (flitOf (u.addr p.1) ∈ s.dev.mem.poison)))
  let n := good.foldl (fun n (p : Nat × List Byte) => n + p.2.length) 0
  let s := good.foldl (fun (s : State) p => (s.writePiece (u.addr p.1) p.2).2) s
  (n, s.upd (fun d => d.countWrite (u.addr off) n))

/-- Values of a row's pixels in order, until one meets poison. Under FORWARD and BACKWARD each read sees the
writes before it (R577); under AUTO the source is read in the state `at_` from before the operation (R576). -/
def BlitJob.rowValues (j : BlitJob) (at_ : Option State) (y : Nat) : State → List Nat → List (Nat × List Byte)
  | _, [] => []
  | s, x :: t =>
    let read := at_.getD s
    if j.poisonAt read s x y then []
    else
      let v := j.pixel read s x y
      let s' := match at_ with
        | some _ => s
        | none => (s.putPieces j.dst false (chunks v.length ((j.dy + y) * j.dst.pitch + (j.dx + x) * bppOf j.dst.fmt) v)).2
      (x, v) :: j.rowValues at_ y s' t

/-- Pixels of a row in rising order gathered into runs of neighbours: first column, and bytes of each. -/
def rowRuns : List (Nat × List Byte) → List (Nat × List (List Byte))
  | [] => []
  | (x, v) :: t =>
    match rowRuns t with
    | (x', vs) :: rest => if x' = x + 1 then (x, v :: vs) :: rest else (x, [v]) :: (x', vs) :: rest
    | [] => [(x, [v])]

/-- One row of an operation on an uncompressed destination. -/
def BlitJob.row (j : BlitJob) (at_ : Option State) (r : BlitRun) (y : Nat) : BlitRun :=
  if !r.ok then r
  else
    let back := j.dir == 2
    let cols := (List.range j.w).filter (fun x => j.writes x y)
    let cols := if back then cols.reverse else cols
    let vals := (j.rowValues at_ y r.s cols).take r.left
    let bpp := bppOf j.dst.fmt
    let runs := rowRuns (if back then vals.reverse else vals)
    let runs := if back then runs.reverse else runs
    let r' := runs.foldl (fun (r : BlitRun) (p : Nat × List (List Byte)) =>
      if !r.ok then r
      else
        let bs := p.2.flatten
        let (n, s) := r.s.blitPut j.dst back ((j.dy + y) * j.dst.pitch + (j.dx + p.1) * bpp) bs
        let k := ceilDiv n bpp
        let x := if back then j.dx + p.1 + p.2.length - k else j.dx + p.1
        { (r.cover x (j.dy + y) k) with s := s, ok := n == bs.length }) r
    { r' with ok := r'.ok && vals.length == cols.length, left := r.left - vals.length }

/-- The 64 pixels of a block in the layout of R268, where none meets poison. -/
def BlitJob.blockBytes (j : BlitJob) (read s : State) (bx by_ : Nat) : Option (List Byte) :=
  let at_ (i : Nat) : Nat × Nat := (8 * bx + i % 8, 8 * by_ + i / 8)
  if (List.range 64).any (fun i => j.poisonAt read s (at_ i).1 (at_ i).2) then none
  else some ((List.range 64).flatMap (fun i => j.pixel read s (at_ i).1 (at_ i).2))

/-- A COPY between Kamius surfaces that moves whole blocks as they stand (R573). -/
def BlitJob.raw (j : BlitJob) : Option Surf :=
  match j.src with
  | some u => if j.op = 1 ∧ u.kamius ∧ j.sx % 8 = 0 ∧ j.sy % 8 = 0 then some u else none
  | none => none

/-- One block copied as it stands: header and LEN payload bytes; a block in error as CLEAR. -/
def State.copyBlock (s : State) (read : State) (u : Surf) (b : Nat) (dst : Surf) (b' : Nat) : Bool × State :=
  let hdr := leOf (read.surfGet u (u.hdrOff b) 4)
  let hdr := if (read.kamBlock u b).2 then 0 else hdr
  let (ok, s) := s.surfPut dst true (dst.slotOff b') (read.surfGet u (u.slotOff b) (bits hdr 9 0))
  if !ok then (false, s)
  else
    let (ok, s) := s.surfPut dst true (dst.hdrOff b') (leBytes 4 hdr)
    (ok, s.upd (fun d => d.bump R.MEM_KAM_WRITE 1))

/-- One block of an operation on a Kamius destination. -/
def BlitJob.block (j : BlitJob) (at_ : Option State) (r : BlitRun) (p : Nat × Nat) : BlitRun :=
  let (bx, by_) := p
  if !r.ok || !j.writes (8 * bx) (8 * by_) then r
  else if r.left < 64 then { r with ok := false }
  else
    let read := at_.getD r.s
    let b' := (j.dy / 8 + by_) * j.dst.bw + j.dx / 8 + bx
    let (ok, s) := match j.raw with
      | some u => r.s.copyBlock read u ((j.sy / 8 + by_) * u.bw + j.sx / 8 + bx) j.dst b'
      | none =>
        match j.blockBytes read r.s bx by_ with
        | some bs => r.s.kamWrite j.dst true b' bs
        | none => (false, r.s)
    if !ok then { r with ok := false, s := s }
    else
      let r := (List.range 8).foldl (fun (r : BlitRun) k => r.cover (j.dx + 8 * bx) (j.dy + 8 * by_ + k) 8) r
      { r with s := s, left := r.left - 64 }

/-- Blocks that the written pixels of an operation take from a Kamius surface placed at (x, y). -/
def BlitJob.blocksUsed (j : BlitJob) (u : Surf) (x y : Nat) : List Nat :=
  if !u.kamius then []
  else
    (u.blocksMeeting ⟨x, y, j.w, j.h⟩).filter (fun b =>
      (List.range 64).any (fun i =>
        let px := b % u.bw * 8 + i % 8
        let py := b / u.bw * 8 + i / 8
        decide (x ≤ px) && decide (px < x + j.w) && decide (y ≤ py) && decide (py < y + j.h) && j.writes (px - x) (py - y)))

/-- The Kamius blocks of an operation counted, and those of them in error (R271). -/
def BlitJob.countKam (j : BlitJob) (s : State) : State :=
  let one (s : State) (u : Surf) (x y : Nat) : State :=
    let bl := j.blocksUsed u x y
    if bl.isEmpty then s else s.upd (fun d => d.kamRead bl.length (s.kamErrors u bl))
  let s := match j.src with | some u => one s u j.sx j.sy | none => s
  if j.op = 3 then one s j.dst j.dx j.dy else s

/-- The operation, as far as `left` pixels and the poison it meets let it come (R570 to R577, R597). -/
def BlitJob.run (j : BlitJob) (left : Nat) (s : State) : BlitRun :=
  let auto := j.dir == 0
  let at_ : Option State := if auto then some s else none
  let start : BlitRun := { s := j.countKam s, left := left }
  let stuck := auto && !s.dev.mem.poison.isEmpty && (List.range j.h).any (fun y => (List.range j.w).any (fun x =>
    j.writes x y && (match j.src with | some u => s.pixelPoisoned u (j.sx + x) (j.sy + y) | none => false)))
  if stuck then { start with ok := false }
  else if j.dst.kamius then
    let bl := (List.range (j.h / 8)).flatMap (fun y => (List.range (j.w / 8)).map (fun x => (x, y)))
    (if j.dir = 2 then bl.reverse else bl).foldl (j.block at_) start
  else
    let ys := List.range j.h
    (if j.dir = 2 then ys.reverse else ys).foldl (j.row at_) start

/-- What every operation leaves when it ends: counters and the damage of R594. -/
def BlitJob.close (j : BlitJob) (r : BlitRun) : State :=
  let bpp := bppOf j.dst.fmt
  let reads := (if j.src.isSome then 1 else 0) + (if j.op = 3 then 1 else 0)
  r.s.upd (fun d =>
    let d := (d.bump R.BLT_OPS 1).bump R.BLT_RD_BYTES (r.px * bpp * reads)
    let d := (d.bump R.BLT_WR_BYTES (r.px * bpp)).bump R.BLT_CLIP_PX j.clipped
    let d := if r.ok then d else d.bump R.BLT_ABORT_CNT 1
    if r.px = 0 then d else d.sourceDamage j.dstIdx r.x0 r.y0 (r.x1 - r.x0) (r.y1 - r.y0))

/-! ### Checks (R572, R586, R588) -/

/-- LEN, DIR, reserved fields and the fields that the OP does not use. -/
def blitFormOk (c : List Byte) : Bool :=
  let op := bOp c
  let zero (off n : Nat) : Bool := allZero (slice c off n)
  decide (op ≤ 5) && byteAt c 1 == 2 && bDir c != 3 && bFlags c / 16 == 0 && zero 10 2 && zero 44 20 &&
    (op == 3 || bRop c == 0) &&
    (if op = 4 then bArg c / 4 == 0 else op == 5 || bArg c == 0) &&
    (if op = 0 ∨ 4 ≤ op then bDir c == 0 && zero 12 28
     else (op != 1 || zero 32 8) && (op != 2 || zero 20 4) && (op != 3 || bSrc c != 0 || zero 20 4))

/-- A surface handle that function f may name. -/
def Dev.surfNamed (d : Dev) (f h : Nat) : Bool :=
  match d.named? f h with
  | some (cls, _) => cls == clsSurface
  | none => false

/-- R570, R572 and R588 on an operation; `whole` asks that the rectangles lie inside their surfaces (R579). -/
def Dev.blitRangeOk (d : Dev) (cmd record : List Byte) (whole : Bool) : Bool :=
  let op := bOp cmd
  let size (v : Nat) : Bool := decide (1 ≤ v) && decide (v ≤ 32768)
  size (bW cmd) && size (bH cmd) && (op != 2 || bSrc cmd == 0) && (op != 1 || bSrc cmd != 0) && bDst cmd != 0 &&
    (match d.blitJob cmd record with
     | none => false
     | some j =>
       (match j.src with
        | some u => u.fmt == j.dst.fmt && (!whole || (decide (j.sx + j.w ≤ u.w) && decide (j.sy + j.h ≤ u.h)))
        | none => bSrc cmd == 0) &&
       (op == 1 || decide (j.fill < 2 ^ (8 * bppOf j.dst.fmt))) &&
       (!j.dst.kamius || (j.dx % 8 == 0 && j.dy % 8 == 0 && j.w % 8 == 0 && j.h % 8 == 0)) &&
       (!whole || (decide (j.dx + j.w ≤ j.dst.w) && decide (j.dy + j.h ≤ j.dst.h))) &&
       (!j.dst.kamius || j.wholeBlocks))

/-- The status of the checks of R586, in the order of R23. `handle` is the channel's own, none for the direct
interface. -/
def Dev.blitCheck (d : Dev) (f : Nat) (handle : Option Nat) (cmd record : List Byte) : Nat :=
  let op := bOp cmd
  let isOp := decide (1 ≤ op) && decide (op ≤ 3)
  if !blitFormOk cmd then stMalformed
  else if (match handle with | some h => leAt cmd 4 4 != h | none => false) then stBadHandle
  else if isOp && ((bSrc cmd != 0 && !d.surfNamed f (bSrc cmd)) || (bDst cmd != 0 && !d.surfNamed f (bDst cmd))) then stBadHandle
  else if isOp && !d.blitRangeOk cmd record handle.isNone then stRange
  else if op = 4 ∧ !d.on (R.PUSH_PL_EN (bArg cmd)) then stRange
  else if isOp && decide (bDst cmd ∈ d.captureTargets none) then stBusy
  else stOk

/-! ### Completion (R583, R584) -/

/-- The registers of a channel index that holds none. -/
def Dev.blitFree (d : Dev) (i : Nat) : Dev :=
  let d := (((d.put (R.BCH_HANDLE i) 0).put (R.BCH_STATE i) 0).put (R.BCH_KIND i) 0).put (R.BCH_WAIT i) 0
  { d with blt := { d.blt with chans := Tab.erase d.blt.chans i } }

/-- LIVE blit channels counted (R602). -/
def Dev.blitRings (d : Dev) : Dev := d.put R.BLT_RINGS (d.liveOf clsBlit).length

/-- A channel destroyed (R587): used by no content, it becomes FREE after its command's end. -/
def Dev.blitRetire (d : Dev) (i : Nat) : Dev :=
  let d := d.modChan clsBlit i (fun c => { c with retiring := true })
  ((d.put (R.BCH_STATE i) 2).put (R.BCH_WAIT i) 0).blitRings

/-- Retiring channels with no command left, at the close of a compose window (R108, R587). -/
def Dev.blitReap (d : Dev) : Dev :=
  let gone := (d.chansOf clsBlit).filter (fun p => p.2.retiring &&
    (match d.blt.cur with | some (i, _) => i != p.1 | none => true))
  gone.foldl (fun (d : Dev) p =>
    ({ d with ch := { d.ch with chans := Tab.erase d.ch.chans (chanKey clsBlit p.1) } }).blitFree p.1) d

/-- The ring's bookkeeping after an entry: OWN written back as 0, the consumer index advanced and told. -/
def Dev.blitAdvance (d : Dev) (i : Nat) (c : Chan) (cmd : List Byte) : Dev :=
  let r := c.record
  let cons := d.get (R.BCH_CONS i)
  let next := (cons + 1) % leAt r 16 4
  let d := d.send (.hostWrite c.owner (leAt r 8 8 + 64 * cons) (leBytes 1 (bOp cmd)))
  let d := d.put (R.BCH_CONS i) next
  let ci := leAt r 20 8
  if ci = 0 then d else d.send (.hostWrite c.owner ci (leBytes 4 next))

/-- A command completes with a status (R583, R584). -/
def Dev.blitDone (d : Dev) (i : Nat) (cmd : List Byte) (status : Nat) : Dev :=
  match Tab.get? d.blt.chans i, d.chan? clsBlit i with
  | some b, some c =>
    let oneshot := bkOneshot c.record
    let d := { d with blt := { d.blt with chans := Tab.set d.blt.chans i { b with head := none } } }
    let d := d.put (R.BCH_WAIT i) 0
    let d := if status = stOk then d else (d.flag (R.BCH_ERR i)).flagRaiseOnce R.BLT_RING_ERR 737
    let d := if tbit (bFlags cmd) 1 then d.raise 738 else d
    let d := if tbit (bFlags cmd) 0 || status != stOk || oneshot then d.blitPost i cmd status else d
    if oneshot then d.blitRetire i else d.blitAdvance i c cmd
  | _, _ => d

/-- A wait that has waited `BLT_CTL.WAIT_TO_MS` ends, or one whose moment came, with a status. -/
def Dev.blitWaitEnds (d : Dev) (i status : Nat) : Dev :=
  match Tab.get? d.blt.chans i with
  | some b =>
    match b.head with
    | some cmd => if d.get (R.BCH_WAIT i) = 2 ∨ d.get (R.BCH_WAIT i) = 3 then d.blitDone i cmd status else d
    | none => d
  | none => d

/-- Channels whose head waits on a slot (2) or a turn (3), with the ARG of the wait. -/
def Dev.blitWaiting (d : Dev) (kind : Nat) : List (Nat × Nat) :=
  d.blt.chans.filterMap (fun p =>
    match p.2.head with
    | some c => if d.get (R.BCH_WAIT p.1) = kind then some (p.1, bArg c) else none
    | none => none)

/-- A push-line slot fires (R595). -/
def Dev.blitFire (d : Dev) (slot : Nat) : Dev :=
  (d.blitWaiting 2).foldl (fun (d : Dev) (p : Nat × Nat) => if p.2 = slot then d.blitWaitEnds p.1 stOk else d) d

/-- A present instant: WAIT_TURN (R585), and the hold of R591. -/
def Dev.blitPresent (d : Dev) : Dev :=
  let d := (d.blitWaiting 3).foldl (fun (d : Dev) (p : Nat × Nat) =>
    if (d.time.turn % 2 ^ 32 + 2 ^ 32 - p.2) % 2 ^ 32 < 2 ^ 31 then d.blitWaitEnds p.1 stOk else d) d
  if d.on R.BLT_ACTIVE then d.put R.BLT_QUIET_HOLD 1 else d

/-- The engine may start an operation (R591, R592). -/
def Dev.blitCanStart (d : Dev) : Bool :=
  d.on R.BLT_EN && d.running && !d.inQuiet && d.blt.cur.isNone && !d.on R.BLT_ACTIVE

/-- The head command of a channel starts: it completes at once, waits, or becomes the engine's operation. -/
def Dev.blitStart (d : Dev) (i : Nat) (c : Chan) (b : BlitChan) (cmd : List Byte) : Dev :=
  let op := bOp cmd
  if decide (1 ≤ op) && decide (op ≤ 3) && !(d.blitCanStart && d.blt.direct.isNone) then d
  else
    let st := d.blitCheck c.owner (some (c.handle clsBlit i)) cmd c.record
    if st ≠ stOk then d.blitDone i cmd st
    else if op = 0 then d.blitDone i cmd stOk
    else if 4 ≤ op then
      let d := { d with blt := { d.blt with chans := Tab.set d.blt.chans i { b with head := some cmd, since := d.time.now } } }
      d.put (R.BCH_WAIT i) (if op = 4 then 2 else 3)
    else
      let d := { d with blt := { d.blt with
        cur := some (i, cmd)
        chans := Tab.set d.blt.chans i { b with head := none } } }
      (d.put (R.BCH_WAIT i) 0).put R.BLT_ACTIVE 1

/-- The command at the head of channel i, as fetched, under the row of OP op (R583, R592). A ONESHOT channel's
command is the one it was created with. -/
def blitRow (op i : Nat) (cmd : List Byte) (s : State) : Out :=
  if 4096 ≤ i then .refused .noSuchUnit
  else
    match s.dev.live? clsBlit i, Tab.get? s.dev.blt.chans i with
    | some c, some b =>
      let d := s.dev
      let oneshot := bkOneshot c.record
      let cmd := if oneshot then b.head.getD [] else cmd
      let busy := match d.blt.cur with | some (k, _) => k == i | none => false
      if busy || !d.running || d.get (R.BCH_WAIT i) == 2 || d.get (R.BCH_WAIT i) == 3 || (oneshot && b.head.isNone) ||
          (!oneshot && d.get (R.BCH_CONS i) == b.pi) then .next s
      else if !oneshot && !tbit (byteAt cmd 0) 7 then .next (s.upd (fun d => d.put (R.BCH_WAIT i) 1))
      else if bOp cmd ≤ 5 ∧ bOp cmd ≠ op then .refused .otherRow
      else .next (s.upd (fun d => (d.put (R.BCH_WAIT i) 0).blitStart i c b cmd))
    | _, _ => .next s

/-! ### Rows -/

/-- NOP of a blit channel (R585). -/
def execNop (chan : Nat) (cmd : List Byte) (s : State) : Out := blitRow 0 chan cmd s
/-- COPY (R570). -/
def execCopy (chan : Nat) (cmd : List Byte) (s : State) : Out := blitRow 1 chan cmd s
/-- FILL (R570). -/
def execFill (chan : Nat) (cmd : List Byte) (s : State) : Out := blitRow 2 chan cmd s
/-- ROP (R571). -/
def execRop (chan : Nat) (cmd : List Byte) (s : State) : Out := blitRow 3 chan cmd s
/-- WAIT_PL (R595). -/
def execWaitPl (chan : Nat) (cmd : List Byte) (s : State) : Out := blitRow 4 chan cmd s
/-- WAIT_TURN (R585). -/
def execWaitTurn (chan : Nat) (cmd : List Byte) (s : State) : Out := blitRow 5 chan cmd s

/-- Poison has ended an operation (R597). -/
def Dev.blitPoison (d : Dev) (chan : Option Nat) : Dev :=
  let d := match chan with | some i => d.flag (R.BCH_POISON i) | none => d
  d.flagRaise R.BLT_POISON 739

/-- The engine's operation is over. -/
def Dev.blitIdle (d : Dev) : Dev :=
  let d := { d with blt := { d.blt with cur := none } }
  (d.put R.BLT_ACTIVE 0).put R.BLT_QUIET_HOLD 0

/-- BLIT_OP_DONE (R584, R594, R597): the operation in progress of a channel ends. -/
def execBlitOpDone (s : State) : Out :=
  match s.dev.blt.cur with
  | none => .next s
  | some (i, cmd) =>
    if s.dev.inQuiet then .next s
    else
      let record := match s.dev.chan? clsBlit i with | some c => c.record | none => []
      match s.dev.blitJob cmd record with
      | none => .next (s.upd (fun d => d.blitIdle.blitDone i cmd stOk))
      | some j =>
        let r := j.run (j.w * j.h) s
        .next ((j.close r).upd (fun d =>
          let d := if r.ok then d else d.blitPoison (some i)
          d.blitIdle.blitDone i cmd (if r.ok then stOk else stAborted)))

/-- BLIT_OWN_POLL (R583): the head entry of a ring is read again. -/
def execBlitOwnPoll (chan : Nat) (own : Bool) (s : State) : Out :=
  onUnit (decide (chan < 4096)) s (fun d =>
    if d.get (R.BCH_WAIT chan) = 1 ∧ own then d.put (R.BCH_WAIT chan) 0 else d)

/-- BLIT_WAIT_TIMEOUT (R596). -/
def execBlitWaitTimeout (chan : Nat) (s : State) : Out :=
  onUnit (decide (chan < 4096)) s (fun d =>
    if d.get (R.BCH_WAIT chan) = 2 ∨ d.get (R.BCH_WAIT chan) = 3 then
      let d := (d.bump R.BLT_WAIT_TO_CNT 1).flag (R.BCH_WAIT_TO chan)
      (d.flagRaise R.BLT_WAIT_TO 741).blitWaitEnds chan stTimeout
    else d)

/-! ### The direct interface (R578 to R580) -/

/-- The direct operation as a command of R582. -/
def Dev.directCmd (d : Dev) : List Byte :=
  leBytes 1 (d.get R.BLT_D_OP) ++ leBytes 1 2 ++ leBytes 2 0 ++ leBytes 4 0 ++ leBytes 1 (d.get R.BLT_D_DIR * 4) ++
    leBytes 1 (d.get R.BLT_D_ROP) ++ leBytes 2 0 ++ leBytes 4 (d.get R.BLT_D_SRC) ++ leBytes 4 (d.get R.BLT_D_DST) ++
    leBytes 2 (d.get R.BLT_D_SRC_X) ++ leBytes 2 (d.get R.BLT_D_SRC_Y) ++ leBytes 2 (d.get R.BLT_D_DST_X) ++
    leBytes 2 (d.get R.BLT_D_DST_Y) ++ leBytes 2 (d.get R.BLT_D_W) ++ leBytes 2 (d.get R.BLT_D_H) ++
    leBytes 8 (d.get R.BLT_D_FILL) ++ List.replicate 24 0

/-- The direct operation ends with a status (R580). -/
def Dev.directEnds (d : Dev) (status : Nat) : Dev :=
  let d := { d with blt := { d.blt with direct := none } }
  let d := (d.put R.BLT_RUN 0).put R.BLT_STATUS status
  (d.put R.BLT_D_TURN d.time.turn).flagRaise R.BLT_DONE 736

/-- A write to `D_GO` takes effect. -/
def Dev.directGo (d : Dev) (value : Nat) : Dev :=
  if d.on R.BLT_RUN then d.flagRaise R.BLT_GO_REJ 742
  else if !tbit value 0 then d
  else
    let cmd := d.directCmd
    let op := d.get R.BLT_D_OP
    let st := if op = 0 ∨ 3 < op then stMalformed else d.blitCheck 0 none cmd []
    if st ≠ stOk then d.directEnds st
    else
      let starts := d.blitCanStart
      let d := { d with blt := { d.blt with direct := some cmd } }
      let d := d.put R.BLT_RUN 1
      if starts then d.put R.BLT_ACTIVE 1 else d

/-- D_GO (R578, R580). -/
def execDGo (value : BitVec 32) (s : State) : Out := .next (s.upd (fun d => d.domWrite 44 (fun d => d.directGo value.toNat)))

/-- DIRECT_DONE (R580): the direct operation ends; one that could not start yet runs when it may. -/
def execDirectDone (s : State) : Out :=
  match s.dev.blt.direct with
  | none => .next s
  | some cmd =>
    if s.dev.blt.cur.isSome || s.dev.inQuiet || !(s.dev.on R.BLT_ACTIVE || s.dev.blitCanStart) then .next s
    else
      match s.dev.blitJob cmd [] with
      | none => .next (s.upd (fun d => d.blitIdle.directEnds stOk))
      | some j =>
        let r := j.run (j.w * j.h) s
        .next ((j.close r).upd (fun d =>
          let d := if r.ok then d else d.blitPoison none
          d.blitIdle.directEnds (if r.ok then stOk else stAborted)))

/-! ### Faults and the doorbell -/

/-- The operation in progress: its job, its channel and its command; a channel's before the direct one. -/
def Dev.blitNow (d : Dev) : Option (Option Nat × List Byte × BlitJob) :=
  match d.blt.cur with
  | some (i, cmd) =>
    let record := match d.chan? clsBlit i with | some c => c.record | none => []
    (d.blitJob cmd record).map (fun j => (some i, cmd, j))
  | none =>
    match d.blt.direct with
    | some cmd => if d.on R.BLT_ACTIVE then (d.blitJob cmd []).map (fun j => (none, cmd, j)) else none
    | none => none

/-- The channel and the command of the operation in progress, whether or not its surfaces are still there. -/
def Dev.blitHeld (d : Dev) : Option (Option Nat × List Byte) :=
  match d.blt.cur with
  | some (i, cmd) => some (some i, cmd)
  | none =>
    match d.blt.direct with
    | some cmd => if d.on R.BLT_ACTIVE then some (none, cmd) else none
    | none => none

/-- The engine resets itself (R598, R838): its registers, but for those that show its channels and a direct
operation that waits. -/
def Dev.blitReset (d : Dev) : Dev :=
  let run := d.get R.BLT_RUN
  let d := d.resetRegs 0xC00000 0xC10000
  let d := { d with acc := { d.acc with
    posted := Tab.erase d.acc.posted 12
    shadow := Tab.drop d.acc.shadow (fun k => k % 32 == 12) } }
  let d := (d.chansOf clsBlit).foldl (fun (d : Dev) p =>
    ((d.put (R.BCH_ERR p.1) 0).put (R.BCH_WAIT_TO p.1) 0).put (R.BCH_POISON p.1) 0) d
  (d.put R.BLT_RUN run).blitRings

/-- BLIT_FAULT (R598): the operation in progress is discarded; how many of its pixels were written is open. -/
def execBlitFault (s : State) : Out :=
  let finish (d : Dev) (now : Option (Option Nat × List Byte)) : Dev :=
    let d := d.blitIdle.blitReset
    let d := match now with
      | some (some i, cmd) => d.blitDone i cmd stAborted
      | some (none, _) => d.directEnds stAborted
      | none => d
    (d.bump R.BLT_ABORT_CNT (if now.isSome then 1 else 0)).flagRaise R.BLT_FAULT 740
  match s.dev.blitNow with
  | none => .next (s.upd (fun d => finish d d.blitHeld))
  | some (chan, cmd, j) =>
    let (n, d) := s.dev.fresh 14
    let r := j.run (n % (j.w * j.h + 1)) { s with dev := d }
    .next ((j.close { r with ok := false }).upd (fun d => finish d (some (chan, cmd))))

/-- BLIT_DOORBELL (R583, R680): the producer index of a blit ring. -/
def execBlitDoorbell (fn index value bytes : Nat) (s : State) : Out :=
  onUnit (decide (fn < 32) && decide (index < 4096)) s (fun d =>
    match d.live? clsBlit index, Tab.get? d.blt.chans index with
    | some c, some b =>
      if bytes ≠ 4 ∨ leAt c.record 16 4 ≤ value ∨ !c.mayName fn ∨ bkOneshot c.record then
        (d.bump R.QB_DB_ERR_CNT 1).flagRaiseOnce R.QB_DB_ERR 34
      else { d with blt := { d.blt with chans := Tab.set d.blt.chans index { b with pi := value } } }
    | _, _ => (d.bump R.QB_DB_ERR_CNT 1).flagRaiseOnce R.QB_DB_ERR 34)

end Sys2Proof.Machine
end

