-- ==== Sys2Proof/Machine/Contact.lean ====
section
/-! DEFINITION. The sensing unit: reports, hit-testing, filtering, baselines and contacts (R604 to R624). -/

namespace Sys2Proof.Machine

/-! ### Squares by their record (R87, R481) -/

def Square.orient (q : Square) : Nat := bits q.flags 1 0
def Square.mirror (q : Square) : Bool := tbit q.flags 2
def Square.hasTouch (q : Square) : Bool := tbit q.flags 3
def Square.hasPress (q : Square) : Bool := tbit q.flags 4
/-- Native width and height (R481). -/
def Square.tw (q : Square) : Nat := if q.orient % 2 = 0 then q.w else q.h
def Square.th (q : Square) : Nat := if q.orient % 2 = 0 then q.h else q.w

/-- Columns and rows of sense cells of a square (R492, R605). -/
def Dev.cellCols (d : Dev) (n : Nat) (q : Square) : Nat := ceilDiv q.tw (2 ^ d.cellLog2 (n / 64))
def Dev.cellRows (d : Dev) (n : Nat) (q : Square) : Nat := ceilDiv q.th (2 ^ d.cellLog2 (n / 64))

/-! ### Objects of R638 -/

def Dev.snsObj (d : Dev) (sub dflt : Nat) : Nat := d.objNat 0x6000 sub dflt
def Dev.filt (d : Dev) : Nat := d.snsObj 1 1
def Dev.baseScans (d : Dev) : Nat := d.snsObj 2 32
def Dev.noiseMin (d : Dev) : Nat := d.snsObj 3 2
def Dev.onK (d : Dev) : Nat := d.snsObj 4 8
def Dev.offK (d : Dev) : Nat := d.snsObj 5 4
def Dev.negK (d : Dev) : Nat := d.snsObj 6 3
def Dev.debOn (d : Dev) : Nat := d.snsObj 7 2
def Dev.debOff (d : Dev) : Nat := d.snsObj 8 2
def Dev.drift (d : Dev) : Nat := d.snsObj 9 4
def Dev.persistS (d : Dev) : Nat := d.snsObj 10 600
def Dev.absorbS (d : Dev) : Nat := d.snsObj 11 1800
def Dev.badScans (d : Dev) : Nat := d.snsObj 12 16
def Dev.senseToMs (d : Dev) : Nat := d.snsObj 13 100
def Dev.moveMin (d : Dev) : Nat := d.snsObj 14 16

/-! ### Sense records (R608) -/

def sPlanes (r : List Byte) : Nat := byteAt r 4
def sLayerHit (r : List Byte) : Bool := tbit (byteAt r 5) 0
def sMoves (r : List Byte) : Bool := tbit (byteAt r 5) 1
def sPriority (r : List Byte) : Nat := byteAt r 6
def sRing (r : List Byte) : Nat := leAt r 16 8
def sEntries (r : List Byte) : Nat := leAt r 24 4
def sPiAddr (r : List Byte) : Nat := leAt r 28 8
def sMax (r : List Byte) : Nat := leAt r 36 2

/-! ### Reports (R609 to R612) -/

/-- A report that has a channel: its place in the order of R611, and its content. -/
structure Report where
  group : Nat
  typ : Nat
  chan : Nat
  handle : Nat
  contact : Nat
  plane : Nat
  edge : Bool
  x : Nat
  y : Nat
  area : Nat
  peak : Nat
  scan : Nat
  deriving DecidableEq, Repr

/-- Layers of the last latch that contain a board position in 1/16 pixel (R624). -/
def Dev.hitLayers (d : Dev) (x y : Nat) : List Latch :=
  (d.comp.latched.map (·.2)).filter (fun l => lDraws l.record && lVisible l.record && lOpacity l.record != 0 &&
    lMeets l.record ⟨x / 16, y / 16, 1, 1⟩)

/-- The topmost of the layers hit: the highest Z, the lowest CSEQ among equals (R288). -/
def topLayer : List Latch → Option Latch
  | [] => none
  | l :: t =>
    match topLayer t with
    | none => some l
    | some m =>
      if lZ m.record < lZ l.record ∨ (lZ m.record = lZ l.record ∧ lCseq l.record < lCseq m.record) then some l else some m

/-- LAYER of a report, with `LAYER_SHADOW` for the layers of equal Z that lose (R624). -/
def Dev.hitLayer (d : Dev) (x y : Nat) : Nat × Dev :=
  let l := d.hitLayers x y
  match topLayer l with
  | none => (0, d)
  | some t => (t.handle, d.bump R.SNS_LAYER_SHADOW ((l.filter (fun m => lZ m.record == lZ t.record)).length - 1))

/-- The 32 bytes of a report entry (R610). -/
def Report.bytes (r : Report) (loss : Bool) (layer turn : Nat) : List Byte :=
  leBytes 1 r.typ ++ leBytes 1 (r.plane + (if loss then 2 else 0) + (if r.edge then 4 else 0)) ++ leBytes 2 r.contact ++
    leBytes 4 r.handle ++ leBytes 4 r.x ++ leBytes 4 r.y ++ leBytes 2 r.area ++ leBytes 2 r.peak ++ leBytes 4 layer ++
    leBytes 4 turn ++ leBytes 4 r.scan

/-- One report written to its channel's ring, or discarded where the ring is full (R609). A demoted channel writes
none, and a channel that is no longer LIVE receives none (R612, R633). -/
def Dev.report (d : Dev) (r : Report) : Dev :=
  match d.live? clsSense r.chan with
  | none => d
  | some c =>
    if c.handle clsSense r.chan ≠ r.handle ∨ c.demoted then d
    else
      let n := sEntries c.record
      let pi := d.get (R.SCH_PI r.chan)
      if (pi + 1) % n = d.get (R.SCH_CI r.chan) then
        let d := (d.bump (R.SCH_DROP_CNT r.chan) 1).bump R.SNS_RING_DROP 1
        let d := (d.flag (R.SCH_OVERFLOW r.chan)).flagRaiseOnce R.SNS_OVERFLOW 753
        { d with sns := { d.sns with loss := if r.chan ∈ d.sns.loss then d.sns.loss else r.chan :: d.sns.loss } }
      else
        let (layer, d) := if sLayerHit c.record && d.on R.SNS_HIT_EN then d.hitLayer r.x r.y else (0, d)
        let loss := decide (r.chan ∈ d.sns.loss)
        let d := d.send (.hostWrite c.owner (sRing c.record + 32 * pi) (r.bytes loss layer (d.time.turn % 2 ^ 32)))
        let d := { d with sns := { d.sns with loss := d.sns.loss.filter (· ≠ r.chan) } }
        let d := (d.put (R.SCH_PI r.chan) ((pi + 1) % n)).bump (R.SCH_CH_REPORTS r.chan) 1
        (d.bump R.SNS_REPORT_CNT 1).putMap R.SNS_PENDING r.chan true

/-- The producer index of a channel goes to its PI_ADDR (R609). -/
def Dev.sendPi (d : Dev) (i : Nat) : Dev :=
  match d.live? clsSense i with
  | none => d
  | some c => d.send (.hostWrite c.owner (sPiAddr c.record) (leBytes 4 (d.get (R.SCH_PI i))))

/-- Reports in the order of R611: by group, then by contact. -/
def orderReports (l : List Report) : List Report := sortBy (fun r => r.group * 65536 + r.contact) l

/-- The reports of a scan are written, then the producer indices, and event 752 tells of them. -/
def Dev.reports (d : Dev) (l : List Report) : Dev :=
  let before (i : Nat) : Nat := d.get (R.SCH_PI i)
  let chans := (l.map (·.chan)).eraseDups
  let d' := (orderReports l).foldl Dev.report d
  let wrote := chans.filter (fun i => d'.get (R.SCH_PI i) ≠ before i)
  if wrote = [] then d' else (wrote.foldl Dev.sendPi d').raiseOnce 752

/-- OPEN of every channel as the contacts stand (R636). -/
def Dev.openRegs (d : Dev) : Dev :=
  (d.chansOf clsSense).foldl (fun (d : Dev) p =>
    d.put (R.SCH_OPEN p.1) (d.sns.contacts.filter (fun k => k.owner == some (p.1, p.2.handle clsSense p.1))).length) d

/-- A report about a contact to the channel that holds it. -/
def Contact.report? (k : Contact) (group typ scan : Nat) : Option Report :=
  k.owner.map (fun o => ⟨group, typ, o.1, o.2, k.id, k.plane, k.edge, k.x, k.y, k.area, k.peak, scan⟩)

/-! ### Squares change state (R615, R618, R632) -/

def Dev.sqSense (d : Dev) (n : Nat) : SqSense := Tab.getD d.sns.squares n {}
def Dev.putSqSense (d : Dev) (n : Nat) (q : SqSense) : Dev :=
  { d with sns := { d.sns with squares := Tab.set d.sns.squares n q } }

/-- Every open contact of a square ends with LOST. -/
def Dev.loseContacts (d : Dev) (n : Nat) : Dev :=
  let gone := d.sns.contacts.filter (·.square == n)
  let scan := (d.sqSense n).lastScan
  let d := { d with sns := { d.sns with contacts := d.sns.contacts.filter (·.square != n) } }
  (d.reports (gone.filterMap (fun k => k.report? 1 7 scan))).openRegs

/-- Baseline capture of a square begins at its next complete scan (R618). -/
def Dev.startCapture (d : Dev) (n : Nat) : Dev :=
  let d := d.loseContacts n
  let q := d.sqSense n
  let cells := match d.square? n with
    | some g => List.replicate (d.cellCols n g * d.cellRows n g) ({} : Cell)
    | none => []
  d.putSqSense n { q with state := 1, touch := { cells := cells }, press := { cells := cells } }

/-- A square is no longer sensed. -/
def Dev.stopSensing (d : Dev) (n : Nat) : Dev :=
  let d := d.loseContacts n
  d.putSqSense n { d.sqSense n with state := 0, touch := {}, press := {} }

/-- An ACTIVE square becomes STALE (R615). `told`: by silence, which sets `SENSE_STALE` and raises event 757. -/
def Dev.goStale (d : Dev) (n : Nat) (told : Bool) : Dev :=
  let q := d.sqSense n
  if q.state ≠ 2 then d
  else
    let d := (d.loseContacts n).putSqSense n { q with state := 3 }
    if told then d.flagRaise R.SNS_SENSE_STALE 757 else d

/-! ### One cell at a complete scan (R616 to R619) -/

/-- Sum of a list of integers. -/
def sumInt (l : List Int) : Int := l.foldl (· + ·) 0

/-- The end of a capture over its readings (R618). -/
def Dev.endCapture (d : Dev) (c : Cell) : Cell :=
  let k : Int := (c.caps.length : Nat)
  let s : List Int := c.caps.map (fun r => ((r * 256 : Nat) : Int))
  let b := sumInt s / k
  let dev := sumInt (s.map (fun x => |x - b|))
  let n := max (d.noiseMin * 256) ((5 * dev) / (4 * k)).toNat
  { c with f := b, b := b, n := n, cap := false, caps := [], on := false, run := 0 }

/-- A failed reading (R616): the cell is as it was, but that it may become BAD. The Bool tells that it does. -/
def Dev.cellFails (d : Dev) (c : Cell) : Bool × Cell :=
  if c.bad then (false, { c with badRun := 0 })
  else if d.badScans ≤ c.badRun + 1 then (true, { c with bad := true, badRun := 0, on := false, run := 0 })
  else (false, { c with badRun := c.badRun + 1 })

/-- A reading of a BAD cell: after BASE_SCANS of them it is BAD no more and captures again. -/
def Dev.cellHeals (d : Dev) (c : Cell) : Cell :=
  if d.baseScans ≤ c.badRun + 1 then { c with bad := false, badRun := 0, cap := true, caps := [] }
  else { c with badRun := c.badRun + 1 }

/-- b moves toward f by at most DRIFT. -/
def driftTo (f b : Int) (drift : Nat) : Int :=
  if b < f then b + min (f - b) drift else b - min (b - f) drift

/-- A reading of a good cell after capture (R617, R619). The Bool tells of a release. -/
def Dev.cellMoves (d : Dev) (c : Cell) (r : Nat) : Bool × Cell :=
  let r8 : Int := ((r * 256 : Nat) : Int)
  let f := c.f + (r8 - c.f) / (2 ^ d.filt : Nat)
  let c := { c with f := f, badRun := 0 }
  let delta := f - c.b
  if c.on then
    if delta < ((d.offK * c.n : Nat) : Int) then
      if d.debOff ≤ c.run + 1 then (false, { c with on := false, run := 0 }) else (false, { c with run := c.run + 1 })
    else (false, { c with run := 0 })
  else if delta ≤ -((d.negK * c.n : Nat) : Int) then (true, { c with f := r8, b := r8, run := 0 })
  else if ((d.onK * c.n : Nat) : Int) ≤ delta then
    if d.debOn ≤ c.run + 1 then (false, { c with on := true, run := 0 })
    else (false, { c with run := c.run + 1, b := driftTo f c.b d.drift })
  else (false, { c with run := 0, b := driftTo f c.b d.drift })

/-- What a scan does to one cell: it became BAD, it was released, its delta before a release, the cell. -/
structure CellStep where
  bad : Bool
  released : Bool
  delta : Int
  cell : Cell

/-- One cell at a complete scan with reading r. -/
def Dev.cellStep (d : Dev) (c : Cell) (r : Nat) : CellStep :=
  if r = 0xFFFF then let x := d.cellFails c; ⟨x.1, false, 0, x.2⟩
  else if c.bad then ⟨false, false, 0, d.cellHeals c⟩
  else if c.cap then
    let c := { c with caps := r :: c.caps, badRun := 0 }
    ⟨false, false, 0, if d.baseScans ≤ c.caps.length then d.endCapture c else c⟩
  else
    let x := d.cellMoves c r
    let f := c.f + (((r * 256 : Nat) : Int) - c.f) / (2 ^ d.filt : Nat)
    ⟨false, x.1, f - c.b, x.2⟩

/-! ### Groups and positions (R620, R622) -/

/-- Two cells touch, edges or corners counted, or are one. -/
def cellsTouch (cols a b : Nat) : Bool :=
  decide (absDiff (a % cols) (b % cols) ≤ 1 ∧ absDiff (a / cols) (b / cols) ≤ 1)

/-- A cell joins the groups that it touches. -/
def joinGroups (cols : Nat) (gs : List (List Nat)) (c : Nat) : List (List Nat) :=
  let (near, far) := gs.partition (fun g => g.any (cellsTouch cols c))
  far ++ [near.flatten ++ [c]]

/-- Groups of cells that touch, each in rising order of cell. -/
def groupsOf (cols : Nat) (l : List Nat) : List (List Nat) := (l.foldl (joinGroups cols) []).map sortNat

/-- Twice the centre of a cell on one native axis (R622). -/
def centre2 (i side len : Nat) : Nat := i * side + min ((i + 1) * side) len

/-- Twice the board position of twice a native position (R622). -/
def boardOf2 (q : Square) (u2 v2 : Nat) : Int × Int :=
  let u1 : Int := if q.mirror then (2 * q.tw : Nat) - (u2 : Int) else u2
  let v : Int := v2
  let x : Int := (2 * q.x : Nat)
  let y : Int := (2 * q.y : Nat)
  let w : Int := (2 * q.w : Nat)
  let h : Int := (2 * q.h : Nat)
  if q.orient = 0 then (x + u1, y + v)
  else if q.orient = 1 then (x + w - v, y + u1)
  else if q.orient = 2 then (x + w - u1, y + h - v)
  else (x + v, y + h - u1)

/-- The delta-weighted mean position of cells, 1/16 pixel, halves up (R622). Where the deltas sum to 0 there is no
mean: the value is open. -/
def Dev.meanPos (d : Dev) (n : Nat) (q : Square) (cells : List (Nat × Int)) : Nat × Nat × Dev :=
  let cols := d.cellCols n q
  let side := 2 ^ d.cellLog2 (n / 64)
  let pos (c : Nat) : Int × Int := boardOf2 q (centre2 (c % cols) side q.tw) (centre2 (c / cols) side q.th)
  let sum := sumInt (cells.map (·.2))
  let sx := sumInt (cells.map (fun c => (pos c.1).1 * c.2))
  let sy := sumInt (cells.map (fun c => (pos c.1).2 * c.2))
  let round16 (a : Int) : Nat :=
    unsigned 20 (if sum < 0 then (-16 * a - sum) / (-2 * sum) else (16 * a + sum) / (2 * sum))
  if sum = 0 then
    let (fx, d) := d.fresh 10
    let (fy, d) := d.fresh 10
    (fx % 2 ^ 20, fy % 2 ^ 20, d)
  else (round16 sx, round16 sy, d)

/-- Some cell lies on the square's border. -/
def onBorder (cols rows : Nat) (cells : List Nat) : Bool :=
  cells.any (fun c => c % cols == 0 || c % cols + 1 == cols || c / cols == 0 || c / cols + 1 == rows)

/-- PEAK of deltas: the largest, in reading units, saturating. -/
def peakOf (l : List Int) : Nat := min 0xFFFF (l.foldl (fun (m : Int) x => max m (x / 256)) 0).toNat

/-! ### Hit-testing (R623) -/

/-- LIVE channels that take a position on a plane. -/
def Dev.senseTakers (d : Dev) (plane x y : Nat) : List (Nat × Chan) :=
  (d.liveOf clsSense).filter (fun p => tbit (sPlanes p.2.record) plane &&
    (senseRegion p.2.record).meets ⟨x / 16, y / 16, 1, 1⟩)

/-- The channel of the highest PRIORITY, the lowest index among equals. -/
def bestTaker : List (Nat × Chan) → Option (Nat × Chan)
  | [] => none
  | p :: t =>
    match bestTaker t with
    | none => some p
    | some m => if sPriority p.2.record < sPriority m.2.record then some m else some p

/-- A channel holds as many contacts as it may. -/
def Dev.senseFull (d : Dev) (p : Nat × Chan) : Bool :=
  decide (sMax p.2.record ≤
    (d.sns.contacts.filter (fun k => k.owner == some (p.1, p.2.handle clsSense p.1))).length)

/-- A new contact is given to a channel (R623). -/
def Dev.giveContact (d : Dev) (plane x y : Nat) : Option (Nat × Nat) × Dev :=
  let (full, cand) := (d.senseTakers plane x y).partition d.senseFull
  let d := full.foldl (fun (d : Dev) p => d.flag (R.SCH_MAX_HIT p.1)) (if full = [] then d else d.bump R.SNS_MAX_SKIP 1)
  match bestTaker cand with
  | none => (none, d)
  | some p =>
    let d := if cand.length < 2 then d
      else (d.bump R.SNS_CH_SHADOW (cand.length - 1)).flagRaiseOnce R.SNS_SHADOW 762
    (some (p.1, p.2.handle clsSense p.1), d)

/-! ### A complete scan (R613, R619 to R621) -/

/-- The lowest contact identifier that no open contact has. -/
def Dev.freeContact (d : Dev) : Nat :=
  (firstIdx (fun i => !(d.sns.contacts.any (·.id == i))) (d.sns.contacts.length + 1) 0).getD 0

/-- Cells that two lists share. -/
def shares (a b : List Nat) : Bool := a.any (fun c => c ∈ b)

/-- The group that keeps a contact: the most cells, the lowest cell at ties (R621). -/
def keeper (gs : List (List Nat)) (k : Contact) : Option (List Nat) :=
  (gs.filter (fun g => shares g k.cells)).foldl (fun (best : Option (List Nat)) g =>
    match best with
    | none => some g
    | some b =>
      if b.length < g.length ∨ (b.length = g.length ∧ g.headD 0 < b.headD 0) then some g else some b) none

/-- The contact that opened first. -/
def firstOpened : List Contact → Option Contact
  | [] => none
  | k :: t => match firstOpened t with
    | none => some k
    | some m => if m.order < k.order then some m else some k

/-- The plane of a square. -/
def SqSense.plane (q : SqSense) (p : Nat) : Plane := if p = 0 then q.touch else q.press
def SqSense.putPlane (q : SqSense) (p : Nat) (x : Plane) : SqSense := if p = 0 then { q with touch := x } else { q with press := x }

/-- What a scan found on a plane of a square, as tracking needs it. -/
structure ScanView where
  n : Nat
  sq : Square
  plane : Nat
  scan : Nat
  cols : Nat
  rows : Nat
  cells : List Cell

/-- Cells of a group with their deltas. -/
def ScanView.deltas (v : ScanView) (g : List Nat) : List (Nat × Int) :=
  g.map (fun c => let x := v.cells.getD c {}; (c, x.f - x.b))

/-- A group opens a new contact (R621, R623). -/
def Dev.openContact (d : Dev) (v : ScanView) (g : List Nat) : List Report × Dev :=
  let ds := v.deltas g
  let (x, y, d) := d.meanPos v.n v.sq ds
  let (owner, d) := d.giveContact v.plane x y
  let told := match owner with
    | some o => (match d.live? clsSense o.1 with | some c => !c.demoted | none => false)
    | none => false
  let k : Contact := ⟨d.freeContact, v.n, v.plane, g, d.sns.opens, d.time.now, owner, told, x, y, g.length,
    peakOf (ds.map (·.2)), onBorder v.cols v.rows g, false, none⟩
  let d := { d with sns := { d.sns with contacts := d.sns.contacts ++ [k], opens := d.sns.opens + 1 } }
  ((k.report? 2 1 v.scan).toList, d.bump R.SNS_CONTACT_CNT 1)

/-- The absorption period of a PERSISTENT contact (R621): it goes on while every cell stays within its noise of
where it was, and else begins again. -/
def Contact.absorbing (k : Contact) (v : ScanView) (now : Nat) : Nat × List (Nat × Int) :=
  let fs := k.cells.map (fun c => (c, (v.cells.getD c {}).f))
  match k.absorb with
  | none => (now, fs)
  | some (t, f0) =>
    let stays (c : Nat) : Bool :=
      match f0.find? (fun p => p.1 == c) with
      | none => false
      | some p => decide (|(v.cells.getD c {}).f - p.2| ≤ (((v.cells.getD c {}).n : Nat) : Int))
    if k.cells.all stays then (t, f0) else (now, fs)

/-- A contact goes on with a group: MOVE, PERSISTENT or OBJECT_ABSORBED (R621). Cells absorbed are answered. -/
def Dev.keepContact (d : Dev) (v : ScanView) (k : Contact) (g : List Nat) : List Report × List Nat × Dev :=
  let ds := v.deltas g
  let (x, y, d) := d.meanPos v.n v.sq ds
  let moved := decide (d.moveMin ≤ absDiff x k.x ∨ d.moveMin ≤ absDiff y k.y ∨ g.length ≠ k.area)
  let demoted := match k.owner with
    | some o => (match d.live? clsSense o.1 with | some c => c.demoted | none => true)
    | none => true
  let wants := match k.owner with
    | some o => (match d.live? clsSense o.1 with | some c => sMoves c.record | none => false)
    | none => false
  let persists := !k.persistent && decide (d.persistS * perSec ≤ d.time.now - k.opened)
  let k' : Contact := { k with
    cells := g
    area := g.length
    peak := peakOf (ds.map (·.2))
    edge := onBorder v.cols v.rows g
    persistent := k.persistent || persists
    told := k.told || !demoted }
  let shown : Contact := { k' with x := x, y := y }
  let period := if k'.persistent then some (k'.absorbing v d.time.now) else none
  let ripe := match period with
    | some (t, _) => d.absorbS != 0 && k.persistent && decide (d.absorbS * perSec ≤ d.time.now - t)
    | none => false
  let others := d.sns.contacts.filter (fun c => c.id != k.id)
  if ripe then
    let d := { d with sns := { d.sns with contacts := others } }
    ((shown.report? 1 5 v.scan).toList, g, d.raiseOnce 756)
  else
    let tell := !k.told && !demoted
    let report := if tell then (shown.report? 2 1 v.scan).toList
      else if moved && wants then (shown.report? 2 2 v.scan).toList else []
    let more := if persists then (shown.report? 2 4 v.scan).toList else []
    let kept : Contact := { (if moved || tell then shown else k') with absorb := period }
    let d := { d with sns := { d.sns with contacts := d.sns.contacts.map (fun c => if c.id = k.id then kept else c) } }
    (report ++ more, [], if persists then d.raiseOnce 755 else d)

/-- Contacts of a plane of a square against the groups of a scan (R621): reports, cells absorbed, the state. -/
def Dev.track (d : Dev) (v : ScanView) (gs : List (List Nat)) : List Report × List Nat × Dev :=
  let old := d.sns.contacts.filter (fun k => k.square == v.n && k.plane == v.plane)
  let won (g : List Nat) : List Contact := old.filter (fun k => keeper gs k == some g)
  let goesOn (k : Contact) : Bool := gs.any (fun g => (firstOpened (won g)).any (fun m => m.id == k.id))
  let ended := old.filter (fun k => !goesOn k)
  let d := { d with sns := { d.sns with contacts := d.sns.contacts.filter (fun k => !(ended.any (fun e => e.id == k.id))) } }
  let ups := ended.filterMap (fun k => k.report? 1 3 v.scan)
  gs.foldl (fun (acc : List Report × List Nat × Dev) g =>
    match firstOpened (won g) with
    | some k => let r := acc.2.2.keepContact v k g; (acc.1 ++ r.1, acc.2.1 ++ r.2.1, r.2.2)
    | none => let r := acc.2.2.openContact v g; (acc.1 ++ r.1, acc.2.1, r.2)) (ups, [], d)

/-- Reports of the cells released in a scan, one for each group (R620): the channel that R623 would choose gets it.
The spec gives a release no contact identifier. -/
def Dev.releases (d : Dev) (v : ScanView) (deltas : List (Nat × Int)) : List Report × Dev :=
  (groupsOf v.cols (deltas.map (·.1))).foldl (fun (acc : List Report × Dev) g =>
    let ds := deltas.filter (fun p => p.1 ∈ g)
    let (x, y, d) := acc.2.meanPos v.n v.sq ds
    let (id, d) := d.fresh 11
    let d := d.raiseOnce 754
    match bestTaker (d.senseTakers v.plane x y) with
    | none => (acc.1, d)
    | some p => (acc.1 ++ [⟨0, 6, p.1, p.2.handle clsSense p.1, id % 65536, v.plane, onBorder v.cols v.rows g, x, y, g.length,
        peakOf (ds.map (·.2)), v.scan⟩], d)) ([], d)

/-- A cell whose object has been absorbed (R621). -/
def Cell.absorbed (c : Cell) : Cell := { c with b := c.f, on := false, run := 0 }

/-- A complete scan of a plane of square n (R613 to R621): readings by cell. -/
def Dev.scanComplete (d : Dev) (n plane scan : Nat) (readings : List Nat) : Dev :=
  match d.square? n with
  | none => d
  | some sq =>
    let q := d.sqSense n
    let p := q.plane plane
    let steps := (p.cells.zip readings).map (fun x => d.cellStep x.1 x.2)
    let cells := steps.map (·.cell)
    let d := if steps.any (·.bad) then d.flagRaiseOnce R.SNS_BAD_CELL 758 else d
    let captured := min (p.captured + 1) d.baseScans
    let done := decide (d.baseScans ≤ captured)
    let other := q.plane (1 - plane)
    let otherDone := !(if plane = 0 then sq.hasPress else sq.hasTouch) || decide (d.baseScans ≤ other.captured)
    let was := q.state
    let state := if was = 1 then (if done && otherDone then 2 else 1) else if was = 3 then 2 else was
    let p' : Plane := { p with
      cells := cells
      captured := captured
      scan := some scan
      last := true
      spoiled := false }
    let q : SqSense := q.putPlane plane p'
    let q : SqSense := { q with lastScan := scan, state := state }
    let d := d.putSqSense n q
    if state ≠ 2 ∨ was = 1 then d
    else
      let v : ScanView := ⟨n, sq, plane, scan, d.cellCols n sq, d.cellRows n sq, cells⟩
      let gone := (steps.zipIdx).filterMap (fun x => if x.1.released then some (x.2, x.1.delta) else none)
      let (r0, d) := d.releases v gone
      let on := (cells.zipIdx).filterMap (fun x => if x.1.on && !x.1.bad && !x.1.cap then some x.2 else none)
      let (r1, absorbed, d) := d.track v (groupsOf v.cols on)
      let cells := (cells.zipIdx).map (fun x => if x.2 ∈ absorbed then x.1.absorbed else x.1)
      let q := d.sqSense n
      let p' : Plane := { q.plane plane with cells := cells }
      let d := d.putSqSense n (q.putPlane plane p')
      (d.reports (r0 ++ r1)).openRegs

end Sys2Proof.Machine
end

