-- ==== Sys2Proof/Machine/Frame.lean ====
section
/-! DEFINITION. Words and frames of the Fjarut link: side words, headers, trailers, payloads, the patch CRC
(R466 to R494). -/

namespace Sys2Proof.Machine

/-! ### Check codes -/

/-- CRC-8 of R469: polynomial 0x07, initial value 0, no reflection. -/
def crc8 (bs : List Byte) : Nat := bs.foldl (crcByte 8 0x07) 0

/-- CRC-32 of R82: the IEEE 802.3 polynomial, reflected, all ones at both ends. -/
def crc32 (bs : List Byte) : Nat := bs.foldl (crcRefByte 0xEDB88320) 0xFFFFFFFF ^^^ 0xFFFFFFFF

/-- PCRC of a patch (R491): CRC-32C seeded with the patch number. -/
def pcrc (patch : Nat) (bs : List Byte) : Nat := bs.foldl (crcRefByte 0x82F63B78) (0xFFFFFFFF ^^^ patch) ^^^ 0xFFFFFFFF

/-- The bytes of a link word in the order of R462. -/
def wordBytes (w : LinkWord) : List Byte := leBytes 8 w.toNat

/-- Bytes packed into link words, the last filled with zeros. -/
def bytesWords : Nat → List Byte → List LinkWord
  | 0, _ => []
  | n + 1, bs => BitVec.ofNat 64 (leAt bs 0 8) :: bytesWords n (bs.drop 8)

/-- A word whose top byte is the CRC-8 of the rest (R469, R475). -/
def sealed (low : Nat) : LinkWord := BitVec.ofNat 64 (low % 2 ^ 56 + crc8 (leBytes 7 low) * 2 ^ 56)

/-- The top byte of a word is the CRC-8 of the rest. -/
def sealOk (w : LinkWord) : Bool := crc8 ((wordBytes w).take 7) == w.toNat / 2 ^ 56

/-! ### Side words (R470 to R472) -/

/-- Link time LT at a device time in units of 10 ps (R468). -/
def linkTime (dev : Nat) : Nat := dev / perTick % 2 ^ 48

/-- A downstream side word (R470). -/
def downSide (stype fstart ltime : Nat) : LinkWord := sealed (stype + fstart * 8 + ltime * 256)

/-- The fields of a good upstream side word (R472). -/
structure UpSide where
  stype : Nat
  ublk : Nat
  owned : Bool
  ackSeq : Nat
  ackMap : Nat
  hold : Bool
  deriving DecidableEq, Repr

/-- An upstream side word as a port reads it; none where SCRC fails (R469). -/
def upSide (w : LinkWord) : Option UpSide :=
  let v := w.toNat
  if sealOk w then some ⟨bits v 2 0, bits v 13 8, tbit v 14, bits v 26 15, bits v 54 27, tbit v 55⟩ else none

/-- The SEQ values that a side word reports committed (R472). -/
def UpSide.seqs (u : UpSide) : List Nat :=
  u.ackSeq :: (List.range 28).filterMap (fun i => if tbit u.ackMap i then some ((u.ackSeq + 4096 - 1 - i) % 4096) else none)

/-! ### Frames (R474 to R478) -/

def ftPush : Nat := 1
def ftPresent : Nat := 2
def ftCadence : Nat := 3
def ftEnum : Nat := 4
def ftMaint : Nat := 5
def ftSense : Nat := 8
def ftEcho : Nat := 9
def ftHealth : Nat := 10
def ftNak : Nat := 11

/-- The fields of a header word (R475). -/
structure Header where
  ftype : Nat
  pos : Nat
  bcast : Nat := 0
  seq : Nat := 0
  len : Nat := 0
  arg : Nat := 0
  flags : Nat := 0
  deriving DecidableEq, Repr

/-- The header word (R475). -/
def Header.word (h : Header) : LinkWord :=
  sealed (h.ftype % 16 + h.pos % 64 * 2 ^ 4 + h.bcast % 2 * 2 ^ 10 + h.seq % 4096 * 2 ^ 12 + h.len % 4096 * 2 ^ 24 +
    h.arg % 4096 * 2 ^ 36 + h.flags % 256 * 2 ^ 48)

/-- A header word read; none where it is no header or HCRC fails (R475, R477). -/
def readHeader (w : LinkWord) : Option Header :=
  let v := w.toNat
  if bits v 3 0 = 0 || !sealOk w then none
  else some ⟨bits v 3 0, bits v 9 4, bit v 10, bits v 23 12, bits v 35 24, bits v 47 36, bits v 55 48⟩

/-- FCRC over the words of a frame but its trailer (R476). -/
def fcrc (ws : List LinkWord) : Nat := crc32 (ws.flatMap wordBytes)

/-- A frame: header, payload, trailer. LEN is the payload's. -/
def frameOf (h : Header) (payload : List LinkWord) (underrun : Bool) : List LinkWord :=
  let body := { h with len := payload.length }.word :: payload
  body ++ [BitVec.ofNat 64 (fcrc body + if underrun then 2 ^ 32 else 0)]

/-- A received frame read: its header and payload; none where a check of R477 fails. -/
def readFrame (ws : List LinkWord) : Option (Header × List LinkWord) :=
  match ws with
  | [] => none
  | w :: rest =>
    match readHeader w with
    | none => none
    | some h =>
      if rest.length ≠ h.len + 1 then none
      else if fcrc (w :: rest.take h.len) = (rest.getD h.len 0).toNat % 2 ^ 32 then some (h, rest.take h.len) else none

/-- Word i of a payload, as a number. -/
def payWord (p : List LinkWord) (i : Nat) : Nat := (p.getD i 0).toNat

/-- Patch numbers that a 256-bit map at word i of a payload names (R482, R490). -/
def payMap (p : List LinkWord) (i : Nat) : List Nat :=
  (List.range 256).filter (fun k => tbit (payWord p (i + k / 64)) (k % 64))

/-- The four words of a map of patch numbers. -/
def mapWords (l : List Nat) : List LinkWord :=
  (List.range 4).map (fun j => BitVec.ofNat 64
    (l.foldl (fun n k => if k / 64 = j then setBit n (k % 64) else n) 0))

/-! ### Payloads (R480, R481) -/

/-- The board pixels of a rectangle of a square in the tile's native order (R481). -/
def nativeOrder (q : Square) (r : Rect) : List (Nat × Nat) :=
  let dx := r.x - q.x
  let dy := r.y - q.y
  -- ranges of v and of u1 that the rectangle covers: start and length
  let (v0, vn, a0, an) :=
    if q.orient = 0 then (dy, r.h, dx, r.w)
    else if q.orient = 1 then (q.w - dx - r.w, r.w, dy, r.h)
    else if q.orient = 2 then (q.h - dy - r.h, r.h, q.w - dx - r.w, r.w)
    else (dx, r.w, q.h - dy - r.h, r.h)
  let us := (List.range an).map (fun i => if q.mirror then a0 + (an - 1 - i) else a0 + i)
  (List.range vn).flatMap (fun j => us.map (fun u1 =>
    let v := v0 + j
    if q.orient = 0 then (q.x + u1, q.y + v)
    else if q.orient = 1 then (q.x + (q.w - 1 - v), q.y + u1)
    else if q.orient = 2 then (q.x + (q.w - 1 - u1), q.y + (q.h - 1 - v))
    else (q.x + v, q.y + (q.h - 1 - u1))))

/-- The codes of a pixel. -/
structure Code where
  r : Nat
  g : Nat
  b : Nat
  deriving DecidableEq, Repr

/-- Codes as the payload carries them (R480): 6 bytes each at 16 bits, 9 bytes for two at 12 bits. -/
def packCodes (twelve : Bool) : List Code → List Byte
  | [] => []
  | [c] => if twelve then leBytes 5 (c.r + c.g * 2 ^ 12 + c.b * 2 ^ 24)
    else leBytes 2 c.r ++ leBytes 2 c.g ++ leBytes 2 c.b
  | c :: e :: t =>
    (if twelve then
      leBytes 9 (c.r + c.g * 2 ^ 12 + c.b * 2 ^ 24 + (e.r + e.g * 2 ^ 12 + e.b * 2 ^ 24) * 2 ^ 36)
    else leBytes 2 c.r ++ leBytes 2 c.g ++ leBytes 2 c.b ++ leBytes 2 e.r ++ leBytes 2 e.g ++ leBytes 2 e.b) ++
    packCodes twelve t

/-- The device drives 12-bit output. -/
def Dev.depth12 (d : Dev) : Bool := d.geo.depth == 12

/-- Bytes of a patch's payload (R398). -/
def Dev.patchBytes (d : Dev) (k : Nat) : Nat :=
  let a := (d.patchRect k).area
  if d.depth12 then a * 9 / 2 else a * 6

/-- PCRC of a patch that shows zero codes (R491, R508). -/
def Dev.zeroPcrc (d : Dev) (k : Nat) : Nat := pcrc (patchNum k) (List.replicate (d.patchBytes k) 0)

/-- HOLD_TIME, ms (R442). -/
def Dev.holdMs (d : Dev) : Nat := d.objNat 0x5010 1 10000

end Sys2Proof.Machine
end

