-- ==== Sys2Proof/Machine/Pline.lean ====
section
/-! DEFINITION. Push-line slots (R429 to R431). -/

namespace Sys2Proof.Machine

/-- Latched patches that the band of a slot meets (R429, R430). -/
def Dev.plBand (d : Dev) (i : Nat) : List Nat :=
  let y0 := d.get (R.PUSH_PL_Y0 i)
  let y1 := d.get (R.PUSH_PL_Y1 i)
  d.push.latched.filter (fun k => let r := d.patchRect k; decide (r.y ≤ y1 ∧ y0 < r.y + r.h))

/-- A patch has reached a slot's point (R430): emitted or abandoned, or acknowledged or left out of the flip map. -/
def Dev.plReached (d : Dev) (i k : Nat) : Bool :=
  if d.get (R.PUSH_PL_POINT i) = 0 then decide (k ∈ d.push.emitted ∨ k ∈ d.push.abandoned)
  else decide (k ∈ d.push.acked ∨ k ∈ d.push.left)

/-- A slot fires (R431). -/
def Dev.plShot (d : Dev) (i : Nat) : Dev :=
  let d := { d with push := { d.push with fired := i :: d.push.fired } }
  ((d.put (R.PUSH_PL_FIRE_TURN i) d.time.turn).raise (844 + i)).blitFire i

/-- Every enabled slot that has not fired in this turn and whose band has reached its point fires (R430). -/
def Dev.plFire (d : Dev) : Dev :=
  if !d.running || d.inQuiet then d
  else (List.range 4).foldl (fun (d : Dev) i =>
    if d.on (R.PUSH_PL_EN i) && !decide (i ∈ d.push.fired) && (d.plBand i).all (fun k => d.plReached i k) then d.plShot i else d) d

end Sys2Proof.Machine
end

