-- ==== Sys2Proof/Machine/Link.lean ====
section
/-! DEFINITION. Snake ports: sending frames, fault injection, upstream checks, enumeration, losses, maintenance
(R479 to R523, R879, R880). -/

namespace Sys2Proof.Machine

/-- STATE codes of a snake port (R522). -/
def psDown : Nat := 0
def psLocking : Nat := 1
def psEnum : Nat := 2
def psRun : Nat := 3
def psRecover : Nat := 4
def psFatal : Nat := 5

def Dev.port (d : Dev) (s : Nat) : Nat := d.get (R.SNK_STATE s)
def Dev.putPort (d : Dev) (s st : Nat) : Dev := d.put (R.SNK_STATE s) st

/-- A bit of a snake's register 0x018 set, with its event (R523). -/
def Dev.snkFlag (d : Dev) (s : Nat) (f : Fld) : Dev := d.flagRaise f (432 + s)
/-- The same for the bits that raise at most once per turn. -/
def Dev.snkFlagOnce (d : Dev) (s : Nat) (f : Fld) : Dev :=
  (d.flag f).raiseOnceKey (300000 + 32 * s + f.lo) (432 + s) (2 ^ f.lo)

/-- A ledger entry of class 0x09 (R807). -/
def Dev.snkLedger (d : Dev) (code s pos sq a b : Nat) : Dev :=
  d.ledger ⟨false, 0x0900 + code, 9, 1, leBytes 1 s ++ leBytes 1 pos ++ leBytes 2 sq ++ leBytes 4 a ++ leBytes 4 b, false⟩

/-- A square is marked LOST (R510). -/
def Dev.isLost (d : Dev) (n : Nat) : Bool :=
  if n % 64 < 32 then tbit (d.get (R.SNK_LOST_LO (n / 64))) (n % 64) else tbit (d.get (R.SNK_LOST_HI (n / 64))) (n % 64 - 32)
def Dev.putLost (d : Dev) (n : Nat) (b : Bool) : Dev :=
  if n % 64 < 32 then d.put (R.SNK_LOST_LO (n / 64)) (putBit (d.get (R.SNK_LOST_LO (n / 64))) (n % 64) b)
  else d.put (R.SNK_LOST_HI (n / 64)) (putBit (d.get (R.SNK_LOST_HI (n / 64))) (n % 64 - 32) b)

/-- The port serves a square (R511): RUN serves those not LOST, RECOVER those below the enumeration position. -/
def Dev.served (d : Dev) (n : Nat) : Bool :=
  let s := n / 64
  !d.isLost n && decide (n % 64 < d.snakeSquares s) && (d.port s == psRun ||
    (d.port s == psRecover && (match Tab.get? d.snk.walks s with | some w => decide (n % 64 < w.first) | none => true)))

/-! ### Sending (R474, R479, R483, R516, R517) -/

/-- Fault injection against a frame: the action taken, 0 for none (R517). -/
def Dev.inject (d : Dev) (s ftype pos : Nat) (down : Bool) : Nat × Dev :=
  let act := d.get (R.SNK_ACTION s)
  let want := d.get (R.SNK_FTYPE s)
  let count := d.get (R.SNK_COUNT s)
  let left := d.get (R.SNK_FI_LEFT s)
  if !d.maintOn || !d.on (R.SNK_EN_40 s) || (count != 0 && left == 0) ||
      !(if down then decide (1 ≤ act ∧ act ≤ 5) else decide (6 ≤ act)) ||
      (want != 0 && want != ftype) || (d.on (R.SNK_POS_EN s) && d.get (R.SNK_POS_40 s) != pos) then (0, d)
  else
    let seen := Tab.getD d.snk.fiSeen s 0 + 1
    let d := { d with snk := { d.snk with fiSeen := Tab.set d.snk.fiSeen s seen } }
    if seen % max 1 (d.get (R.SNK_PERIOD s)) ≠ 0 then (0, d)
    else
      let d := d.bump (R.SNK_FI_CNT s) 1
      if count = 0 then (act, d)
      else
        let d := d.put (R.SNK_FI_LEFT s) (left - 1)
        (act, if left = 1 then d.snkFlag s (R.SNK_FI_DONE s) else d)

/-- The last word of a frame changed. -/
def mapLast (f : LinkWord → LinkWord) : List LinkWord → List LinkWord
  | [] => []
  | [w] => [f w]
  | w :: t => w :: mapLast f t

/-- A frame put on the lane as the action has it. -/
def Dev.onLane (d : Dev) (s act : Nat) (ws : List LinkWord) : Dev :=
  let d := d.bump (R.SNK_DN_FRAMES s) 1
  if act = 1 then d
  else if act = 2 then d.send (.snakeFrame s (mapLast (fun w => w ^^^ 0xFFFFFFFF) ws))
  else if act = 3 then d.send (.snakeFrame s (match ws with | [] => [] | w :: t => (w ^^^ 0xFF00000000000000) :: t))
  else if act = 5 then (d.send (.snakeFrame s ws)).send (.symErr s (d.get (R.SNK_SYMS s)))
  else d.send (.snakeFrame s ws)

/-- A frame is sent down a snake, through fault injection. A frame that SWAP_DN holds goes after the next. -/
def Dev.sendDown (d : Dev) (s ftype pos : Nat) (ws : List LinkWord) : Dev :=
  let (act, d) := d.inject s ftype pos true
  match Tab.get? d.snk.swap s with
  | some held =>
    let d := { d with snk := { d.snk with swap := Tab.erase d.snk.swap s } }
    (d.onLane s (if act = 4 then 0 else act) ws).onLane s 0 held
  | none =>
    if act = 4 then { d with snk := { d.snk with swap := Tab.set d.snk.swap s ws } } else d.onLane s act ws

/-- ENUM and MAINT frames wait from the push cutoff until the PRESENT frames have ended (R483). -/
def Dev.sendHeld (d : Dev) (s ftype pos : Nat) (ws : List LinkWord) : Dev :=
  if d.push.cut && d.sched.phase != .pushed then
    { d with snk := { d.snk with held := Tab.set d.snk.held s (Tab.getD d.snk.held s [] ++ [ws]) } }
  else d.sendDown s ftype pos ws

/-- The frames that waited go out at the push deadline. -/
def Dev.sendWaiting (d : Dev) : Dev :=
  let held := d.snk.held
  let d := { d with snk := { d.snk with held := [] } }
  held.foldl (fun (d : Dev) p => p.2.foldl (fun (d : Dev) ws =>
    match readHeader (ws.headD 0) with
    | some h => d.sendDown p.1 h.ftype h.pos ws
    | none => d) d) d

/-- An ENUM frame (R485). -/
def Dev.sendEnum (d : Dev) (s pos bcast arg : Nat) (payload : List LinkWord) : Dev :=
  d.sendHeld s ftEnum pos (frameOf { ftype := ftEnum, pos := pos, bcast := bcast, arg := arg } payload false)

/-- The next SEQ of a square (R479); `DN_SEQ` shows the one after it. -/
def Dev.nextSeq (d : Dev) (n : Nat) : Nat × Dev :=
  let f := R.POSN_DN_SEQ (n / 64) (n % 64)
  (d.get f, d.bump f 1)

/-! ### Push buffers and flights as ports hold them (R398, R399, R511) -/

def Dev.buf (d : Dev) (s : Nat) : List BufPatch := Tab.getD d.push.buf s []
/-- A push buffer put, with `OCC` (R457). -/
def Dev.putBuf (d : Dev) (s : Nat) (l : List BufPatch) : Dev :=
  ({ d with push := { d.push with buf := Tab.set d.push.buf s l } }).put (R.PSN_OCC s)
    (l.foldl (fun (n : Nat) (b : BufPatch) => n + b.bytes.length) 0)

def Dev.flights (d : Dev) (n : Nat) : List Flight := Tab.getD d.snk.flights n []
def Dev.putFlights (d : Dev) (n : Nat) (l : List Flight) : Dev :=
  { d with snk := { d.snk with flights := if l = [] then Tab.erase d.snk.flights n else Tab.set d.snk.flights n l } }

/-- Bytes that a flight holds in the retry store (R399): the payload of a PUSH frame. -/
def Flight.bytes (f : Flight) : Nat := if f.ftype = ftPush then (f.words.length - 2) * 8 else 0

/-- A flight ends: its bytes leave the retry store. -/
def Dev.dropFlight (d : Dev) (n : Nat) (f : Flight) : Dev :=
  let d := d.putFlights n ((d.flights n).filter (fun g => g.seq != f.seq))
  let r := R.PSN_RETRY_OCC (n / 64)
  d.put r (d.get r - f.bytes)

/-- A patch leaves the flip map of this content. -/
def Dev.leaveOut (d : Dev) (k : Nat) : Dev :=
  if k ∈ d.push.left then d
  else { d with push := { d.push with left := k :: d.push.left, acked := d.push.acked.filter (· ≠ k) } }

/-- The port no longer serves the squares of snake s from position k: what it holds for them goes, and no ECHO is
awaited from them. -/
def Dev.dropSquares (d : Dev) (s k : Nat) : Dev :=
  let mine (n : Nat) : Bool := n / 64 == s && decide (k ≤ n % 64)
  let d := (d.snk.flights.filter (fun p => mine p.1)).foldl
    (fun (d : Dev) p => p.2.foldl (fun (d : Dev) f => d.dropFlight p.1 f) d) d
  let d := d.putBuf s ((d.buf s).filter (fun b => !mine (patchSquare b.patch)))
  let d := ((d.push.latched.filter (fun p => mine (patchSquare p))).foldl Dev.leaveOut d).plFire
  let d := { d with push := { d.push with awaits := Tab.drop d.push.awaits mine } }
  let tx := match Tab.get? d.snk.tx s with
    | some p => if mine (patchSquare p) then Tab.erase d.snk.tx s else d.snk.tx
    | none => d.snk.tx
  let cfg := match Tab.get? d.snk.cfg s with
    | some (l, t) =>
      let l' := l.filter (· < k)
      if l' = [] then Tab.erase d.snk.cfg s else Tab.set d.snk.cfg s (l', t)
    | none => d.snk.cfg
  let d := { d with snk := { d.snk with tx := tx, cfg := cfg } }
  if k ≠ 0 then d
  else { d with snk := { d.snk with swap := Tab.erase d.snk.swap s, held := Tab.erase d.snk.held s } }

/-! ### CONFIG (R486, R498) -/

def Dev.rttUi (d : Dev) (s p : Nat) : Nat := d.get (R.POSN_RTT_UI s p)

/-- DELAY_UI of position p (R498), halves rounded up. -/
def Dev.delayUi (d : Dev) (s p : Nat) : Int :=
  let sum : Int := (List.range p).foldl (fun (a : Int) k =>
    a + (d.get (R.POSN_RF_UI s k) : Int) - (d.get (R.POSN_RB_UI s k) : Int)) 0
  ((d.rttUi s p : Int) - (d.get (R.POSN_LT_UI s p) : Int) + sum + 1) / 2

/-- The CONFIG payload of a square (R486). A square that is not sensed gets SENSE_HZ 0 (R604). -/
def Dev.configWords (d : Dev) (s p : Nat) (q : Square) : List LinkWord :=
  let n := d.snakeSquares s
  let b (c : Bool) (i : Nat) : Nat := if c then 2 ^ i else 0
  [BitVec.ofNat 64 (q.w + q.h * 2 ^ 16 + q.orient * 2 ^ 32 + b q.mirror 34 + b d.depth12 35 + b (p + 1 == n) 36 +
      b q.hasTouch 37 + b q.hasPress 38 + d.cellLog2 s * 2 ^ 39 + n * 2 ^ 42),
   BitVec.ofNat 64 (d.get (R.POSN_DELAY_UI s p) + d.holdMs * 2 ^ 32),
   BitVec.ofNat 64 (d.get (R.SNK_HEALTH_MS s) + (if d.sensed q then d.senseHz s else 0) * 2 ^ 16)]

/-- CONFIG goes to position p. -/
def Dev.sendConfig (d : Dev) (s p : Nat) : Dev :=
  match d.square? (64 * s + p) with
  | some q => d.sendEnum s p 0 3 (d.configWords s p q)
  | none => d

/-- READY squares are to be configured again, outside an enumeration: one after another. -/
def Dev.reconfig (d : Dev) (s : Nat) (ps : List Nat) : Dev :=
  let new := ps.filter (fun p => d.served (64 * s + p) && d.get (R.POSN_SQ_STATE s p) == 2)
  match Tab.get? d.snk.cfg s with
  | some (l, t) => { d with snk := { d.snk with cfg := Tab.set d.snk.cfg s (l ++ new.filter (fun p => !(p ∈ l.drop 1)), t) } }
  | none =>
    match new with
    | [] => d
    | p :: _ => ({ d with snk := { d.snk with cfg := Tab.set d.snk.cfg s (new, 1) } }).sendConfig s p

/-- Every square of the device is to be configured again (R442). -/
def Dev.reconfigAll (d : Dev) : Dev :=
  ((d.geo.squares.map (·.1 / 64)).eraseDups).foldl (fun (d : Dev) s => d.reconfig s (List.range 64)) d

/-- Squares become sensed or unsensed as R604 now says; each receives a new CONFIG (R604, R632). -/
def Dev.senseRefresh (d : Dev) : Dev :=
  d.geo.squares.foldl (fun (d : Dev) p =>
    let st := (d.sqSense p.1).state
    if d.sensed p.2 && st == 0 then (d.startCapture p.1).reconfig (p.1 / 64) [p.1 % 64]
    else if !d.sensed p.2 && st != 0 then (d.stopSensing p.1).reconfig (p.1 / 64) [p.1 % 64]
    else d) d

/-! ### Enumeration (R500, R511) -/

def Dev.walk? (d : Dev) (s : Nat) : Option Walk := Tab.get? d.snk.walks s
def Dev.putWalk (d : Dev) (s : Nat) (w : Walk) : Dev :=
  ({ d with snk := { d.snk with walks := Tab.set d.snk.walks s w } }).put (R.SNK_ENUM_POS s) w.pos
def Dev.endWalk (d : Dev) (s : Nat) : Dev := { d with snk := { d.snk with walks := Tab.erase d.snk.walks s } }

/-- Step 1: RELEASE from position k. -/
def Dev.startWalk (d : Dev) (s k repeats : Nat) : Dev :=
  let d := d.dropSquares s k
  let d := (List.range 64).foldl (fun (d : Dev) p =>
    if k ≤ p ∧ !d.isLost (64 * s + p) then d.put (R.POSN_SQ_STATE s p) 0 else d) d
  (d.putWalk s ⟨.release, k, k, 1, repeats, 0, false⟩).sendEnum s k 1 4 []

/-- Step 2 at position p. -/
def Dev.sendAssign (d : Dev) (s p : Nat) : Dev := d.sendEnum s p 0 1 []
/-- Step 5 at position p: LOOP_US 1,000. -/
def Dev.sendLoop (d : Dev) (s p : Nat) : Dev := d.sendEnum s p 0 2 [1000]

/-- The port enters FATAL (R511): cause 0 enumeration, 1 synthesizer, 2 power-good. -/
def Dev.goFatal (d : Dev) (s cause : Nat) : Dev :=
  let d := ((d.dropSquares s 0).endWalk s).putPort s psFatal
  (d.snkFlag s (R.SNK_FATAL s)).snkLedger 0 s 0xFF 0xFFFF cause 0

/-- The enumeration repeats from step 1, or the snake is FATAL after ENUM_RETRY repeats. -/
def Dev.repeatWalk (d : Dev) (s : Nat) (w : Walk) : Dev :=
  if w.repeats < d.get (R.SNK_ENUM_RETRY s) then d.startWalk s w.first (w.repeats + 1) else d.goFatal s 0

/-- The first position from k whose TILE_TYPE is not the one the image gives (R87, R500). -/
def Dev.typeMismatch (d : Dev) (s k found : Nat) : Option Nat :=
  (List.range found).find? (fun p => decide (k ≤ p) && (match d.square? (64 * s + p) with
    | some q => q.tileType != 0 && q.tileType != d.get (R.POSN_TILE_TYPE s p)
    | none => false))

/-- Steps 3 and 4: the walk has ended, and its count and types are checked. -/
def Dev.walkEnded (d : Dev) (s : Nat) (w : Walk) : Dev :=
  let n := d.snakeSquares s
  let w := { w with found := w.pos }
  let d := d.put (R.SNK_N_FOUND s) w.pos
  let short := w.pos ≠ n
  let typ := d.typeMismatch s w.first w.pos
  let d := if short then (d.snkFlag s (R.SNK_COUNT_MISMATCH s)).snkLedger 1 s 0xFF 0xFFFF n w.pos else d
  let d := match typ with
    | some p => (d.snkFlag s (R.SNK_TYPE_MISMATCH s)).snkLedger 2 s p (64 * s + p)
        (match d.square? (64 * s + p) with | some q => q.tileType | none => 0) (d.get (R.POSN_TILE_TYPE s p))
    | none => d
  if short ∨ typ.isSome then d.repeatWalk s w
  else (d.putWalk s { w with step := .loop, pos := w.first, tries := 1 }).sendLoop s w.first

/-- Step 6 at position p: DELAY_UI and CONFIG. -/
def Dev.configAt (d : Dev) (s : Nat) (w : Walk) (p : Nat) : Dev :=
  let d := d.put (R.POSN_DELAY_UI s p) (unsigned 32 (d.delayUi s p))
  (d.putWalk s { w with step := .config, pos := p, tries := 1 }).sendConfig s p

/-- The tile of a square has cleared its banks: its patches show zero codes (R500 step 7, R508). -/
def Dev.zeroShown (d : Dev) (n : Nat) : Dev :=
  { d with push := { d.push with shown := Tab.drop d.push.shown (fun k => k / 256 == n) } }

/-- Step 7, or the end of MEASURE. -/
def Dev.walkDone (d : Dev) (s : Nat) (w : Walk) : Dev :=
  let n := d.snakeSquares s
  let sqs := (List.range n).filterMap (fun p => if w.first ≤ p then some (64 * s + p) else none)
  let d := (d.endWalk s).putPort s psRun
  if w.measure then sqs.foldl (fun (d : Dev) q => d.markSquare q) d
  else
    let back := sqs.any d.isLost
    let d := (List.range 64).foldl (fun (d : Dev) p => if w.first ≤ p then d.putLost (64 * s + p) false else d) d
    let d := sqs.foldl (fun (d : Dev) q =>
      let d := (d.markSquare q).zeroShown q
      match d.square? q with
      | some r => if d.sensed r then d.startCapture q else d
      | none => d) d
    let d := d.snkFlag s (R.SNK_ENUM_DONE s)
    let d := if back then d.snkFlag s (R.SNK_SQ_BACK s) else d
    let rtt := (List.range n).foldl (fun m p => max m (d.rttUi s p)) 0
    if 1031250 < rtt then d.snkLedger 6 s (n - 1) (64 * s + n - 1) (d.rttUi s (n - 1)) 0 else d

/-- A CONFIG of the walk or outside it is answered UNSUPPORTED (R500). -/
def Dev.unsupported (d : Dev) (s p : Nat) : Dev :=
  ((d.snkFlag s (R.SNK_UNSUPPORTED s)).snkLedger 3 s p (64 * s + p) 0 0).goFatal s 0

/-- The identity that a tile reports (R488). -/
def Dev.putIdentity (d : Dev) (s p : Nat) (pay : List LinkWord) : Dev :=
  let w1 := payWord pay 1
  let d := (d.put (R.POSN_TILE_ID s p) (payWord pay 0)).put (R.POSN_TILE_TYPE s p) (bits w1 31 0)
  let d := (d.put (R.POSN_RF_UI s p) (bits w1 47 32)).put (R.POSN_RB_UI s p) (bits w1 63 48)
  d.put (R.POSN_LT_UI s p) (bits (payWord pay 2) 15 0)

/-- Lock is lost or the port begins: LOCKING (R511). -/
def Dev.toLocking (d : Dev) (s : Nat) : Dev := ((d.dropSquares s 0).endWalk s).putPort s psLocking

/-- The port goes DOWN (R511). -/
def Dev.portDown (d : Dev) (s : Nat) : Dev := ((d.dropSquares s 0).endWalk s).putPort s psDown

/-- An enabled port with squares leaves DOWN (R511). -/
def Dev.portUp (d : Dev) (s : Nat) : Dev :=
  if d.port s = psDown ∧ d.on (R.SNK_EN_8 s) ∧ 0 < d.snakeSquares s then d.putPort s psLocking else d

/-- CODEWORD_LOCK (R465, R500): lock on the upstream input; enumeration begins at position 0. -/
def execCodewordLock (snake : Nat) (s : State) : Out :=
  onUnit (decide (snake < 256)) s (fun d =>
    if d.port snake ≠ psLocking then d
    else (((d.bump (R.SNK_RELOCK_CNT snake) 1).putPort snake psEnum).startWalk snake 0 0))

/-- CODEWORD_LOCK_LOST (R465, R511). A FATAL port stays FATAL. -/
def execCodewordLockLost (snake : Nat) (s : State) : Out :=
  onUnit (decide (snake < 256)) s (fun d =>
    let st := d.port snake
    if st = psDown ∨ st = psLocking then d
    else
      let d := d.snkFlag snake (R.SNK_LINK_DOWN snake)
      if st = psFatal then d else d.toLocking snake)

/-- RELEASE_WAIT_DONE (R500): the millisecond after RELEASE ends. -/
def execReleaseWaitDone (snake : Nat) (s : State) : Out :=
  onUnit (decide (snake < 256)) s (fun d =>
    match d.walk? snake with
    | some w => match w.step with
      | .release => (d.putWalk snake { w with step := .assign, tries := 1 }).sendAssign snake w.pos
      | _ => d
    | none => d)

/-! ### Upstream frames (R477, R512) -/

/-- An upstream frame is discarded (R512). -/
def Dev.upBad (d : Dev) (s : Nat) : Dev := (d.bump (R.SNK_UP_BAD_CNT s) 1).snkFlagOnce s (R.SNK_UP_BAD s)

/-- What came of an upstream frame. -/
inductive UpIn where
  /-- discarded, or the port takes none -/
  | gone (d : Dev)
  /-- good, of another row's type -/
  | other
  | good (h : Header) (pay : List LinkWord) (d : Dev)

/-- The frame types that squares send (R478). -/
def upTypes : List Nat := [ftEnum, ftMaint, ftSense, ftEcho, ftHealth, ftNak]

/-- The words of an upstream frame from the blocks of the square at position `owner` (R477, R512, R517). -/
def Dev.upFrame (d : Dev) (s owner ftype : Nat) (ws : List LinkWord) : UpIn :=
  if d.port s = psDown ∨ d.port s = psLocking then .gone d
  else
    let (act, d) := d.inject s (bits (payWord ws 0) 3 0) owner false
    if act = 6 then .gone d
    else match (if act = 7 then none else readFrame ws) with
    | none => .gone (d.upBad s)
    | some (h, pay) =>
      if h.pos ≠ owner ∨ !(h.ftype ∈ upTypes) ∨ d.snakeSquares s ≤ owner then .gone (d.upBad s)
      else if h.ftype ≠ ftype then .other
      else
        let n := 64 * s + owner
        let f := R.POSN_UP_SEQ s owner
        let d := d.bump (R.SNK_UP_FRAMES s) 1
        let d := if n ∈ d.snk.heard ∧ h.seq ≠ (d.get f + 1) % 4096 then
          (d.bump (R.SNK_UP_GAP_CNT s) 1).snkFlagOnce s (R.SNK_UP_GAP s) else d
        let d := { d with snk := { d.snk with heard := if n ∈ d.snk.heard then d.snk.heard else n :: d.snk.heard } }
        .good h pay (d.put f h.seq)

/-- A command of an upstream frame of one type: f acts on a good one. -/
def onUpFrame (s owner ftype : Nat) (ws : List LinkWord) (st : State) (f : Header → List LinkWord → Dev → Dev) : Out :=
  if 256 ≤ s ∨ 64 ≤ owner then .refused .noSuchUnit
  else match st.dev.upFrame s owner ftype ws with
  | .gone d => .next { st with dev := d }
  | .other => .refused .otherRow
  | .good h pay d => .next { st with dev := f h pay d }

/-- An ENUM reply (R488, R500). -/
def Dev.enumReply (d : Dev) (s p : Nat) (h : Header) (pay : List LinkWord) : Dev :=
  let status := bits (payWord pay 0) 3 0
  match d.walk? s with
  | some w =>
    if w.pos = p ∧ w.step = .assign ∧ h.arg = 1 then
      let d := (d.putIdentity s p pay).put (R.POSN_SQ_STATE s p) 1
      let w := { w with pos := p + 1, tries := 1 }
      if p = 63 then d.walkEnded s w else (d.putWalk s w).sendAssign s (p + 1)
    else if w.pos = p ∧ w.step = .config ∧ h.arg = 3 then
      if status = 1 then d.unsupported s p
      else if status ≠ 0 then d
      else
        let d := d.put (R.POSN_SQ_STATE s p) 2
        if p + 1 < d.snakeSquares s then d.configAt s w (p + 1) else d.walkDone s w
    else if h.arg = 5 then d.putIdentity s p pay
    else d
  | none =>
    if h.arg = 5 then d.putIdentity s p pay
    else match Tab.get? d.snk.cfg s with
    | some (q :: rest, _) =>
      if q ≠ p ∨ h.arg ≠ 3 then d
      else if status = 1 then d.unsupported s p
      else if status ≠ 0 then d
      else match rest with
      | [] => { d with snk := { d.snk with cfg := Tab.erase d.snk.cfg s } }
      | r :: _ => ({ d with snk := { d.snk with cfg := Tab.set d.snk.cfg s (rest, 1) } }).sendConfig s r
    | _ => d

/-- ENUM_REPLY. -/
def execEnumReply (snake owner : Nat) (words : List LinkWord) (s : State) : Out :=
  onUpFrame snake owner ftEnum words s (fun h pay d => d.enumReply snake owner h pay)

/-- ENUM_REPLY_TIMEOUT (R500, R512). -/
def execEnumReplyTimeout (snake : Nat) (s : State) : Out :=
  onUnit (decide (snake < 256)) s (fun d =>
    let more (t : Nat) : Bool := decide (t < d.get (R.SNK_ENUM_RETRY snake))
    match d.walk? snake with
    | some w => match w.step with
      | .assign =>
        if more w.tries then (d.putWalk snake { w with tries := w.tries + 1 }).sendAssign snake w.pos
        else d.walkEnded snake w
      | .config =>
        if more w.tries then (d.putWalk snake { w with tries := w.tries + 1 }).sendConfig snake w.pos
        else d.repeatWalk snake w
      | _ => d
    | none =>
      match Tab.get? d.snk.cfg snake with
      | some (p :: rest, t) =>
        if more t then ({ d with snk := { d.snk with cfg := Tab.set d.snk.cfg snake (p :: rest, t + 1) } }).sendConfig snake p
        else (d.putPort snake psRecover).startWalk snake p 0
      | _ => d)

/-- RTT_MEASURE_DONE (R499): the sum of 64 measurements in UI. -/
def execRttMeasureDone (snake sum64 : Nat) (s : State) : Out :=
  onUnit (decide (snake < 256)) s (fun d =>
    match d.walk? snake with
    | some w =>
      if w.step ≠ .loop then d
      else
        let d := d.put (R.POSN_RTT_UI snake w.pos) ((sum64 + 32) / 64)
        if w.pos + 1 < d.snakeSquares snake then (d.putWalk snake { w with pos := w.pos + 1 }).sendLoop snake (w.pos + 1)
        else d.configAt snake w w.first
    | none => d)

/-! ### Losses and commands (R510, R511, R879) -/

/-- The squares of a snake that are LOST. -/
def Dev.lostSquares (d : Dev) (s : Nat) : List Nat :=
  (List.range (d.snakeSquares s)).filter (fun p => d.isLost (64 * s + p))

/-- A square is marked LOST. -/
def Dev.markLost (d : Dev) (s p : Nat) : Dev := (d.putLost (64 * s + p) true).put (R.POSN_SQ_STATE s p) 3

/-- A square becomes LOST (R510): enumeration from the lowest LOST position, unless one runs from there or below. -/
def Dev.loseSquare (d : Dev) (s p : Nat) : Dev :=
  if d.isLost (64 * s + p) || decide (d.snakeSquares s ≤ p) || !(d.port s == psRun || d.port s == psRecover) then d
  else
    let d := (d.markLost s p).snkFlag s (R.SNK_SQ_LOST s)
    let k := (d.lostSquares s).headD p
    match d.walk? s with
    | some w => if w.first ≤ k then d else d.startWalk s k 0
    | none => (d.putPort s psRecover).startWalk s k 0

/-- SQ_LOST. -/
def execSqLost (snake pos : Nat) (s : State) : Out :=
  onUnit (decide (snake < 256) && decide (pos < 64)) s (fun d => d.loseSquare snake pos)

/-- A command that R879 discards. -/
def Dev.snkReject (d : Dev) (s : Nat) : Dev := d.snkFlag s (R.SNK_WRANGE s)

/-- RESTART of a snake from a position (R879). -/
def Dev.restart (d : Dev) (s pos : Nat) : Dev :=
  let st := d.port s
  let n := d.snakeSquares s
  if st = psFatal then d.toLocking s
  else if st = psDown ∨ st = psLocking ∨ n ≤ pos then d.snkReject s
  else if st = psEnum then d.startWalk s 0 0
  else
    let k := match d.walk? s with | some w => min pos w.first | none => pos
    let d := (List.range n).foldl (fun (d : Dev) p => if k ≤ p then d.markLost s p else d) d
    ((d.snkFlag s (R.SNK_SQ_LOST s)).putPort s psRecover).startWalk s k 0

/-- RESTART. -/
def execRestart (snake pos : Nat) (s : State) : Out :=
  onUnit (decide (snake < 256)) s (fun d => d.domWrite (55 + snake / 4) (fun d => d.restart snake (pos % 64)))

/-- MEASURE of a snake (R879): steps 5 and 6 of R500 on every square. -/
def Dev.measure (d : Dev) (s : Nat) : Dev :=
  if d.port s ≠ psRun then d.snkReject s
  else
    let d := (d.dropSquares s 0).putPort s psRecover
    (d.putWalk s ⟨.loop, 0, 0, 1, 0, d.get (R.SNK_N_FOUND s), true⟩).sendLoop s 0

/-- MEASURE. -/
def execMeasure (snake : Nat) (s : State) : Out :=
  onUnit (decide (snake < 256)) s (fun d => d.domWrite (55 + snake / 4) (fun d => d.measure snake))

/-- MAINT send (R487, R879): the frame that the M_ registers describe. -/
def Dev.maintSend (d : Dev) (s : Nat) : Dev :=
  let pos := d.get (R.SNK_M_POS s)
  let op := d.get (R.SNK_M_OP s)
  let nw := d.get (R.SNK_M_NWORDS s)
  let ok := d.port s == psRun ||
    (d.port s == psRecover && (match d.walk? s with | some w => decide (pos < w.first) | none => true))
  if !ok then d.snkReject s
  else
    let w0 := BitVec.ofNat 64 (d.get (R.SNK_M_ADDR s) + nw * 2 ^ 32)
    let data := if op = 2 then (List.range (nw + 1)).map (fun i => BitVec.ofNat 64 (d.get (R.SNK_M_DATA s i))) else []
    let d := (d.put (R.SNK_M_STATUS s) 15).sendHeld s ftMaint pos
      (frameOf { ftype := ftMaint, pos := pos, arg := op } (w0 :: data) false)
    { d with snk := { d.snk with maint := Tab.set d.snk.maint s (pos, op) } }

/-- MAINT_SEND. -/
def execMaintSend (snake : Nat) (s : State) : Out :=
  onUnit (decide (snake < 256)) s (fun d => d.domWrite (55 + snake / 4) (fun d => d.maintSend snake))

/-- A MAINT exchange ends with a status. -/
def Dev.maintDone (d : Dev) (s status : Nat) : Dev :=
  let d := { d with snk := { d.snk with maint := Tab.erase d.snk.maint s } }
  (d.put (R.SNK_M_STATUS s) status).snkFlag s (R.SNK_MAINT_DONE s)

/-- MAINT_REPLY (R489). -/
def execMaintReply (snake owner : Nat) (words : List LinkWord) (s : State) : Out :=
  onUpFrame snake owner ftMaint words s (fun h pay d =>
    match Tab.get? d.snk.maint snake with
    | some (pos, op) =>
      if pos ≠ owner ∨ h.arg ≠ op then d
      else
        let status := bits (payWord pay 0) 3 0
        let d := if op = 1 ∧ status = 0 then
          (List.range (d.get (R.SNK_M_NWORDS snake) + 1)).foldl (fun (d : Dev) i => d.put (R.SNK_M_DATA snake i) (payWord pay (i + 1))) d
          else d
        d.maintDone snake status
    | none => d)

/-- MAINT_TIMEOUT (R512): 2 ms without a reply. -/
def execMaintTimeout (snake : Nat) (s : State) : Out :=
  onUnit (decide (snake < 256)) s (fun d =>
    if (Tab.get? d.snk.maint snake).isSome then d.maintDone snake 8 else d)

/-- SNAKE_SYNTH_TIMEOUT (R511): the synthesizer of a snake quad has been unlocked for 1 ms. -/
def execSnakeSynthTimeout (quad : Nat) (s : State) : Out :=
  onUnit (decide (quad < 64)) s (fun d =>
    (List.range 4).foldl (fun (d : Dev) i =>
      let p := 4 * quad + i
      if d.port p = psDown ∨ d.port p = psFatal then d else d.goFatal p 1) d)

/-- A write to `FI_CTL` (R516, R521): the word at 0x040 or at 0x044 of snake s. -/
def Dev.fiCtl (d : Dev) (req s off v : Nat) : Dev :=
  let a := 0x900000 + 0x1000 * s + off
  if d.on (R.SNK_LOCK s) then d.lockViol req a v
  else if off = 0x44 then
    if bits v 19 16 = 0 then d.snkReject s
    else (d.put (R.SNK_COUNT s) (bits v 15 0)).put (R.SNK_SYMS s) (bits v 19 16)
  else if bits v 31 16 = 0 ∨ (tbit v 0 ∧ !d.maintOn) then d.snkReject s
  else
    let d := ((d.put (R.SNK_EN_40 s) (bit v 0)).put (R.SNK_ACTION s) (bits v 3 1)).put (R.SNK_FTYPE s) (bits v 7 4)
    let d := ((d.put (R.SNK_POS_40 s) (bits v 13 8)).put (R.SNK_POS_EN s) (bit v 14)).put (R.SNK_PERIOD s) (bits v 31 16)
    if !tbit v 0 then d
    else
      let d := d.put (R.SNK_FI_LEFT s) (d.get (R.SNK_COUNT s))
      let d := { d with snk := { d.snk with fiSeen := Tab.set d.snk.fiSeen s 0 } }
      d.snkLedger 7 s 0xFF 0xFFFF v (d.get (R.SNK_COUNT s) + d.get (R.SNK_SYMS s) * 2 ^ 16)

/-- FI_CTL_WRITE. -/
def execFiCtlWrite (snake offset : Nat) (value : BitVec 32) (s : State) : Out :=
  onUnit (decide (snake < 256) && (offset == 0x40 || offset == 0x44)) s (fun d => d.domWrite (55 + snake / 4) (fun d => d.fiCtl 0 snake offset value.toNat))

/-- A write to `SNK_SENSE` of snake s (R521, R607). -/
def Dev.snkSense (d : Dev) (req s v : Nat) : Dev :=
  let health := bits v 15 0
  let hz := bits v 25 16
  let log2 := bits v 28 26
  let sensed := d.geo.squares.filter (fun p => p.1 / 64 == s && d.sensed p.2)
  if d.on (R.SNK_LOCK s) then d.lockViol req (0x90000C + 0x1000 * s) v
  else if health < 10 ∨ 10000 < health ∨ 1000 < hz ∨ log2 < 3 ∨ 5 < log2 then d.snkReject s
  else if sensed ≠ [] ∧ d.senseFails (fun t => if t = s then hz else d.senseHz t) (fun t => if t = s then log2 else d.cellLog2 t) then
    d.snkReject s
  else
    let newCells := d.cellLog2 s ≠ log2
    let d := ((d.put (R.SNK_HEALTH_MS s) health).put (R.SNK_SENSE_HZ s) hz).put (R.SNK_CELL_LOG2 s) log2
    let d := if newCells then sensed.foldl (fun (d : Dev) p => d.startCapture p.1) d else d
    d.reconfig s (List.range 64)

/-- SNK_SENSE_WRITE. -/
def execSnkSenseWrite (snake : Nat) (value : BitVec 32) (s : State) : Out :=
  onUnit (decide (snake < 256)) s (fun d => d.domWrite (55 + snake / 4) (fun d => d.snkSense 0 snake value.toNat))

end Sys2Proof.Machine
end

