-- ==== Sys2Proof/Machine/Tlink.lean ====
section
/-! DEFINITION. Sending over table links: the header of a message, and who a message goes to (R547 to R550). -/

namespace Sys2Proof.Machine

/-- The device's own index (R113, R447). -/
def Dev.ownIdx (d : Dev) : Nat := d.get R.PUSH_DEV_INDEX

/-- Table states (R453, R456). -/
def tsAlone : Nat := 0
def tsForming : Nat := 1
def tsJoined : Nat := 2
def tsDivided : Nat := 3
def tsResync : Nat := 4

def Dev.table (d : Dev) : Nat := d.get R.PUSH_TABLE

/-- The device is in a part of a table with at least one other member (R449). -/
def Dev.grouped (d : Dev) : Bool := decide (tsJoined ≤ d.table) && d.tbl.part != []

/-- The device rules its part. -/
def Dev.rules (d : Dev) : Bool := !d.grouped || d.on R.PUSH_IS_RULER

/-- The table ports a message for a device leaves by: the lowest port that leads to it, or every port where none
leads to it directly or it is for every member (R550). -/
def Dev.portsTo (d : Dev) (dst : Nat) : List Nat :=
  match d.tablePorts.find? (fun p => p.2 == dst) with
  | some p => [p.1]
  | none => d.tablePorts.map (·.1)

/-- One message on one port, under that link's own count (R548). SRC and EPOCH are those of the device it comes from. -/
def Dev.sendOn (d : Dev) (dst hops src epoch : Nat) (mk : Nat → TableHdr → OutMsg) (port : Nat) : Dev :=
  let n := Tab.getD d.tbl.sent port 0
  let d := { d with tbl := { d.tbl with sent := Tab.set d.tbl.sent port (n + 1) } }
  d.send (mk port ⟨src, dst, hops, epoch, n⟩)

/-- A message of this device to a device, or to every member (0xFF). -/
def Dev.sendTable (d : Dev) (dst : Nat) (mk : Nat → TableHdr → OutMsg) : Dev :=
  (d.portsTo dst).foldl (fun d p => d.sendOn dst 0 d.ownIdx (d.get R.PUSH_EPOCH) mk p) d

/-- The header of a message as bytes (R548). -/
def tableHdrBytes (h : TableHdr) (typ len : Nat) : List Byte :=
  leBytes 1 typ ++ leBytes 1 h.src ++ leBytes 1 h.dst ++ leBytes 1 h.hops ++ leBytes 4 h.epoch ++ leBytes 8 h.seq ++
    leBytes 2 len ++ List.replicate 14 0

/-- A message whose body has a byte layout. -/
def tableBytes (typ : Nat) (body : List Byte) (port : Nat) (h : TableHdr) : OutMsg :=
  .tableMsg port (tableHdrBytes h typ body.length ++ body)

/-- The 16 bytes of the device identifier (R8). -/
def deviceId : List Byte := (List.range 16).map (fun i => BitVec.ofNat 8 (fuseBits (8 * i + 7) (8 * i)))

/-- HELLO leaves a port in TABLE mode whose link comes up (R547, R549). -/
def Dev.sendHello (d : Dev) (port : Nat) : Dev :=
  if d.objNat 0x5021 (1 + port) 0 = 1 ∧ 1 < d.geo.devices ∧ d.ownIdx < d.geo.devices then
    d.sendOn 0xFF 0 d.ownIdx (d.get R.PUSH_EPOCH) (tableBytes 1 (deviceId ++ (d.geo.hash ++ List.replicate 32 0).take 32)) port
  else d

/-- The epoch, which the persistent store keeps too (R445). -/
def Dev.putEpoch (d : Dev) (e : Nat) : Dev :=
  if d.get R.PUSH_EPOCH = e % 2 ^ 32 then d
  else ({ d.put R.PUSH_EPOCH e with bank := { d.bank with epoch := e % 2 ^ 32 } }).journal {}

/-- The ruler of a part and whether it is this device. -/
def Dev.putRuler (d : Dev) (r : Nat) : Dev := (d.put R.PUSH_RULER r).put R.PUSH_IS_RULER (if r = d.ownIdx then 1 else 0)

/-- TURN: the next turn, its present instant and the ruler, in each turn (R448, R549). -/
def Dev.sendTurn (d : Dev) : Dev :=
  if d.on R.PUSH_IS_RULER && decide (tsJoined ≤ d.table) && !d.tablePorts.isEmpty then
    let ns := d.nextPresNs
    let body := leBytes 8 (d.time.turn + 1) ++ leBytes 4 (ns % 1000000000) ++ leBytes 6 (ns / 1000000000) ++ leBytes 1 d.ownIdx ++
      List.replicate 13 0
    d.sendTable 0xFF (tableBytes 2 body)
  else d

/-- A request for the ruler of the part. -/
def Dev.tellRuler (d : Dev) (req : TableReq) : Dev :=
  d.sendTable (d.get R.PUSH_RULER) (fun p h => .tableReq p h req)

/-- Decisions of the ruler for every member of its part. -/
def Dev.decree (d : Dev) (l : List TableDecision) : Dev :=
  if d.grouped then d.sendTable 0xFF (fun p h => .tableState p h l) else d

end Sys2Proof.Machine
end

