-- ==== Sys2Proof/Machine/Calib.lean ====
section
/-! DEFINITION. The calibration units: profiles, the calibration store and its loads, ageing, brightness and the
per-pixel arithmetic (R344 to R391); and the loads of the colour stores (R331 to R337). -/

namespace Sys2Proof.Machine

/-! ### Profiles (R347 to R350) -/

/-- DL_FLOOR of a profile; profile 0 is fixed (R349). -/
def Dev.profFloor (d : Dev) (p : Nat) : Nat := if p = 0 then 0x1000 else d.get (R.PROF_DL_FLOOR p)
/-- NLEV of a profile. -/
def Dev.profNlev (d : Dev) (p : Nat) : Nat := if p = 0 then 0 else d.get (R.PROF_NLEV p)
/-- The captured drive levels of a profile. -/
def Dev.profLevels (d : Dev) (p : Nat) : List Nat :=
  [d.get (R.PROF_LEVEL0 p), d.get (R.PROF_LEVEL1 p), d.get (R.PROF_LEVEL2 p), d.get (R.PROF_LEVEL3 p)].take (d.profNlev p)

/-- A list rises strictly. -/
def rising : List Nat → Bool
  | a :: b :: t => decide (a < b) && rising (b :: t)
  | _ => true

/-- The staged fields keep the ranges of R348, and a curve that AGE_ON needs is valid (R374). -/
def Dev.stagedOk (d : Dev) : Bool :=
  let n := d.get R.CAL_NLEV
  let lv := [d.get R.CAL_LEVEL0, d.get R.CAL_LEVEL1, d.get R.CAL_LEVEL2, d.get R.CAL_LEVEL3].take n
  decide (1 ≤ n) && decide (n ≤ 4) && lv.all (fun l => decide (1 ≤ l)) && rising lv &&
    decide (0x8000 ≤ d.get R.CAL_AGE_MAX) && decide (1 ≤ d.get R.CAL_AGE_STEP) && decide (d.get R.CAL_AGE_STEP ≤ 2048) &&
    (!d.on R.CAL_AGE_ON || tbit (d.get R.CAL_CURVE_VALID) (d.get R.CAL_AGE_CURVE))

/-- The staged fields in the order of the registers 0x200 to 0x20C. -/
def Dev.staged (d : Dev) : List Nat :=
  [d.get R.CAL_NLEV, d.get R.CAL_AGE_CURVE, d.get R.CAL_AGE_ON, d.get R.CAL_DL_FLOOR, d.get R.CAL_LEVEL0,
    d.get R.CAL_LEVEL1, d.get R.CAL_LEVEL2, d.get R.CAL_LEVEL3, d.get R.CAL_AGE_MAX, d.get R.CAL_AGE_STEP]

/-- COMMIT (R350). -/
def Dev.commitProfile (d : Dev) (p : Nat) : Dev :=
  if p = 0 || !d.stagedOk then d.flagRaise R.CAL_WRANGE 420
  else { d with cal := { d.cal with commits := d.cal.commits ++ [(p, d.staged)] } }

/-- COMMIT: CAL_CMD with code 1. -/
def execCommit (profile : Nat) (s : State) : Out := onUnit (decide (profile < 256)) s (fun d => d.commitProfile profile)

/-- The commits that waited take effect at the opening of a compose window (R350). -/
def Dev.profileApply (d : Dev) : Dev :=
  let put (d : Dev) (c : Nat × List Nat) : Dev :=
    let v (i : Nat) : Nat := c.2.getD i 0
    let p := c.1
    let d := ((((d.put (R.PROF_NLEV p) (v 0)).put (R.PROF_AGE_CURVE p) (v 1)).put (R.PROF_AGE_ON p) (v 2)).put
      (R.PROF_DL_FLOOR p) (v 3)).put (R.PROF_LEVEL0 p) (v 4)
    ((((d.put (R.PROF_LEVEL1 p) (v 5)).put (R.PROF_LEVEL2 p) (v 6)).put (R.PROF_LEVEL3 p) (v 7)).put
      (R.PROF_AGE_MAX p) (v 8)).put (R.PROF_AGE_STEP p) (v 9)
  let d := d.cal.commits.foldl put d
  { d with cal := { d.cal with commits := [] } }

/-! ### The calibration store (R359, R360) -/

/-- HBM address of the cell of a board pixel, and the pixel's entry in it. -/
def calCell (x y : Nat) : Nat × Nat :=
  let i := y / 8 * 4096 + x / 8
  (i % 8 * stackBytes + poolHi + i / 8 * 8192, y % 8 * 8 + x % 8)

def setAt (x y k : Nat) : Nat := (calCell x y).1 + 1152 * k + 18 * (calCell x y).2
def gainAt (x y : Nat) : Nat := (calCell x y).1 + 4608 + 6 * (calCell x y).2
def offsetAt (x y : Nat) : Nat := (calCell x y).1 + 4992 + 6 * (calCell x y).2
def doseAt (x y : Nat) : Nat := (calCell x y).1 + 5376 + 12 * (calCell x y).2
def refAt (x y : Nat) : Nat := (calCell x y).1 + 6144 + 12 * (calCell x y).2

/-- Bytes written by a calibration unit, counted on their stack. -/
def State.calPut (s : State) (a : Nat) (bs : List Byte) : State :=
  { s with hbm := Memory.putAll s.hbm a bs, dev := s.dev.countWrite a bs.length }

/-! ### Ageing (R369 to R376) -/

/-- A board pixel lies in a square under load (R367, R370). -/
def Dev.underLoad (d : Dev) (x y : Nat) : Bool :=
  d.cal.loads.any (fun u => u.2.any (fun w => decide (w.x ≤ x) && decide (x < w.x + w.w) && decide (w.y ≤ y) && decide (y < w.y + w.h)))

/-- A reading of the square that R370 discards whatever the queue holds. -/
def Dev.ageBarred (d : Dev) (sq : Square) (x y : Nat) : Bool :=
  !d.on R.CAL_AGE_EN || d.profNlev sq.calSet == 0 || d.underLoad x y

/-- A plausible LED-current reading reaches the unit of its quarter (R369, R370). -/
def Dev.ageOffer (d : Dev) (n : Nat) (sq : Square) (r : AgeReading) : Dev :=
  if d.ageBarred sq r.x r.y then d
  else
    let q := n / 4096
    let l := Tab.getD d.cal.ages q []
    if 4096 ≤ l.length then (d.bump R.CAL_AGE_DROP_CNT 1).flagRaiseOnce R.CAL_AGE_DROP 417
    else { d with cal := { d.cal with ages := Tab.set d.cal.ages q (l ++ [r]) } }

/-- The square of this device that holds a board pixel. -/
def Dev.squareAt (d : Dev) (x y : Nat) : Option (Nat × Square) :=
  d.geo.squares.find? (fun p => decide (p.2.x ≤ x) && decide (x < p.2.x + p.2.w) && decide (p.2.y ≤ y) && decide (y < p.2.y + p.2.h))

/-- What a reading makes of a channel's dose (R371). -/
def doseAfter (dose amp ms : Nat) : Nat := min (dose + (amp * ms + 3600000) / 7200000) 0xFFFFFFFF

/-- The ageing gain that a reading leads to, none where it does not rise (R371, R372). -/
def Dev.gainAfter (d : Dev) (p gain dose ref : Nat) : Option Nat :=
  if !d.on (R.PROF_AGE_ON p) then none
  else
    let c := d.get (R.PROF_AGE_CURVE p)
    let target := min (d.get (R.PROF_AGE_MAX p)) (d.curveAt c ref * 32768 / d.curveAt c dose)
    if gain < target then some (min target (gain + d.get (R.PROF_AGE_STEP p))) else none

/-- A unit takes a reading (R371, R375). An entry that lies in a poisoned flit takes no reading (R262, R362). -/
def State.takeReading (s : State) (sq : Square) (r : AgeReading) : State :=
  let da := doseAt r.x r.y + 4 * r.chan
  let ra := refAt r.x r.y + 4 * r.chan
  let ga := gainAt r.x r.y + 2 * r.chan
  let s := s.upd (fun d => d.bump R.CAL_AGE_UPD_CNT 1)
  if s.poisoned da 4 || s.poisoned ra 4 || s.poisoned ga 2 then s
  else
    let dose := doseAfter (leOf (Memory.getAll s.hbm da 4)) r.amp r.ms
    let ref := leOf (Memory.getAll s.hbm ra 4)
    let gain := leOf (Memory.getAll s.hbm ga 2)
    let s := s.calPut da (leBytes 4 dose)
    match s.dev.gainAfter sq.calSet gain dose ref with
    | none => s
    | some g =>
      let s := (s.calPut ga (leBytes 2 g)).upd (fun d => d.markAll (d.patchesIn ⟨r.x, r.y, 1, 1⟩))
      if g = s.dev.get (R.PROF_AGE_MAX sq.calSet) then
        s.upd (fun d => (d.bump R.CAL_AGE_SAT_CNT 1).flagRaiseOnce R.CAL_AGE_SAT 416)
      else s

/-- AGE_READING: unit q takes the reading at the head of its queue (R371, R387). -/
def execAgeReading (unit : Nat) (s : State) : Out :=
  if 4 ≤ unit then .refused .noSuchUnit
  else
    match Tab.getD s.dev.cal.ages unit [] with
    | [] => .next s
    | r :: t =>
      let s := s.upd (fun d => { d with cal := { d.cal with ages := Tab.set d.cal.ages unit t } })
      match s.dev.squareAt r.x r.y with
      | none => .next s
      | some q => .next (if s.dev.ageBarred q.2 r.x r.y then s else s.takeReading q.2 r)

/-! ### Calibration loads (R363 to R368) -/

/-- The oldest owed entry that p picks completes. -/
def Dev.settleFirst (d : Dev) (p : Owed → Bool) (status : Nat) (applied : Option Nat) : Dev :=
  match d.q.owed.find? p with
  | none => d
  | some o =>
    let d := { d with q := { d.q with owed := d.q.owed.eraseP p } }
    d.complete o.queue o.tag o.handle status 0 applied

def entrySquare (e : List Byte) : Nat := leAt e 8 2
def entryMode (e : List Byte) : Nat := byteAt e 10
def entryAddr (e : List Byte) : Nat := leAt e 16 8

/-- What the checks of R23 give for a CAL_LOAD entry (R363 to R365, R693, R694). -/
def Dev.calLoadStatus (d : Dev) (q : Nat) (e : List Byte) : Nat :=
  let sq := d.square? (entrySquare e)
  let size := match sq with
    | some x => x.w * x.h * 80
    | none => 0
  if entryLen e ≠ 1 || entryHandle e ≠ 0 || !allZero (slice e 11 5) || entryMode e == 3 then stMalformed
  else if 3 < entryMode e || entryAddr e % 4 != 0 || sq.isNone || leAt e 24 8 != size then stRange
  else if queueFn q ≠ 0 then stLocked
  else stOk

/-- A load is accepted: pending readings of its square are discarded (R370, R387). -/
def Dev.calLoadAccept (d : Dev) (q : Nat) (e : List Byte) : Dev :=
  match d.square? (entrySquare e) with
  | none => d
  | some sq =>
    let u := entrySquare e / 4096
    let w : CalWork := ⟨q, entryTag e, 0, entryMode e, sq.x, sq.y, sq.w, sq.h, entrySquare e, false, false⟩
    let d := { d with cal := { d.cal with loads := Tab.set d.cal.loads u (Tab.getD d.cal.loads u [] ++ [w]) } }
    let ages := d.cal.ages.map (fun p => (p.1, p.2.filter (fun r => !d.underLoad r.x r.y)))
    { d with cal := { d.cal with ages := ages } }.owe ⟨q, entryTag e, 0, .calLoad u⟩

/-- CAL_LOAD (R363, R693). -/
def execCalLoad (queue : Nat) (entry : List Byte) (s : State) : Out :=
  onEntryDev queue entry 0x21 1 true s (fun d =>
    let st := d.calLoadStatus queue entry
    if st = stOk then d.calLoadAccept queue entry else d.answer queue entry st)

def CalWork.rect (w : CalWork) : Rect := ⟨w.x, w.y, w.w, w.h⟩

/-- The load of a unit's queue that is being performed: the first whose entries are not all written (R366). -/
def currentLoad (l : List CalWork) : Option CalWork := l.find? (fun w => !w.written)

/-- A load replaced in its unit's queue. -/
def Dev.putLoad (d : Dev) (u : Nat) (w : CalWork) : Dev :=
  let l := Tab.getD d.cal.loads u []
  let l := l.takeWhile (·.written) ++ w :: (l.dropWhile (·.written)).drop 1
  { d with cal := { d.cal with loads := Tab.set d.cal.loads u l } }

/-- A unit's current load ends with nothing written (R363). -/
def Dev.dropLoad (d : Dev) (u : Nat) (w : CalWork) (status : Nat) : Dev :=
  let l := Tab.getD d.cal.loads u []
  let l := l.takeWhile (·.written) ++ (l.dropWhile (·.written)).drop 1
  let d := { d with cal := { d.cal with loads := Tab.set d.cal.loads u l } }
  d.settleFirst (fun o => o.kind == .calLoad u && o.queue == w.queue && o.tag == w.tag) status none

/-- The entries of one pixel written from its record (R363, R364). -/
def State.calWrite (s : State) (mode x y : Nat) (r : List Byte) : State :=
  let s := (List.range 4).foldl (fun s k => s.calPut (setAt x y k) (slice r (18 * k) 18)) s
  let s := s.calPut (offsetAt x y) (slice r 72 6)
  let unity := [0, 0x80, 0, 0x80, 0, 0x80]
  if mode = 0 then (s.calPut (gainAt x y) unity).calPut (refAt x y) (Memory.getAll s.hbm (doseAt x y) 12)
  else if mode = 2 then
    ((s.calPut (gainAt x y) unity).calPut (doseAt x y) (List.replicate 12 0)).calPut (refAt x y) (List.replicate 12 0)
  else s

/-- The plane that a byte of a calibration cell lies in is written by a load of a mode. -/
def planeWritten (mode off : Nat) : Bool :=
  decide (off < 4608) || (decide (4992 ≤ off) && decide (off < 5376)) ||
    (mode != 1 && (decide (off < 4992) || (decide (6144 ≤ off) && decide (off < 6912)))) ||
    (mode == 2 && decide (5376 ≤ off) && decide (off < 6144))

/-- A flit lies in the calibration cells of a rectangle aligned to 8. -/
def flitInCells (r : Rect) (f : Nat) : Bool :=
  let a := f * 32
  let o := a % stackBytes
  let i := (o - poolHi) / 8192 * 8 + stackOf a
  decide (poolHi ≤ o) && decide (r.x ≤ i % 4096 * 8) && decide (i % 4096 * 8 < r.x + r.w) &&
    decide (r.y ≤ i / 4096 * 8) && decide (i / 4096 * 8 < r.y + r.h)

/-- Poison after a load: planes written whole read clean; REF takes DOSE's poison with its bytes in mode 0
(R262, R362, R387). -/
def calPoison (mode : Nat) (r : Rect) (l : List Nat) : List Nat :=
  let off (f : Nat) : Nat := (f * 32 % stackBytes - poolHi) % 8192
  let kept := l.filter (fun f => !(flitInCells r f && planeWritten mode (off f)))
  let spread := if mode = 0 then
      (kept.filter (fun f => flitInCells r f && decide (5376 ≤ off f) && decide (off f < 6144))).map (· + 24)
    else []
  spread ++ kept

/-- The board pixels of a rectangle, row by row. -/
def Rect.pixels (r : Rect) : List (Nat × Nat) :=
  (List.range r.h).flatMap (fun j => (List.range r.w).map (fun i => (r.x + i, r.y + j)))

/-- A load's body, read and good, is written whole (R363, R367). -/
def State.calLoadWrite (s : State) (u : Nat) (w : CalWork) (body : List Byte) : State :=
  let s := (w.rect.pixels.zipIdx).foldl (fun s (p : (Nat × Nat) × Nat) => s.calWrite w.mode p.1.1 p.1.2 (slice body (80 * p.2) 80)) s
  s.upd (fun d =>
    let d := { d with mem := { d.mem with poison := calPoison w.mode w.rect d.mem.poison } }
    let box : Nat × Nat × Nat × Nat := (w.x, w.y, w.w, w.h)
    let d := { d with cal := { d.cal with held := d.cal.held ++ [LoadHold.mk box [box]] } }
    d.putLoad u { w with writing := true })

/-- CAL_LOAD_BODY_READ: the body of a unit's current load has been read, none where the read failed (R363). -/
def execCalLoadBodyRead (unit : Nat) (body : Option (List Byte)) (s : State) : Out :=
  if 4 ≤ unit then .refused .noSuchUnit
  else
    match currentLoad (Tab.getD s.dev.cal.loads unit []) with
    | none => .next s
    | some w =>
      if w.writing then .next s
      else
        match body with
        | none => .next (s.upd (fun d => d.dropLoad unit w stAborted))
        | some b =>
          if (List.range (w.w * w.h)).all (fun i => allZero (slice b (80 * i + 78) 2)) then .next (s.calLoadWrite unit w b)
          else .next (s.upd (fun d => d.dropLoad unit w stMalformed))

/-- CAL_LOAD_WRITE_DONE: the last entry of a unit's current load has been written (R367, R368). -/
def execCalLoadWriteDone (unit : Nat) (s : State) : Out :=
  onUnit (decide (unit < 4)) s (fun d =>
    match currentLoad (Tab.getD d.cal.loads unit []) with
    | none => d
    | some w => if w.writing then d.putLoad unit { w with written := true } else d)

/-- A rectangle without another: at most four parts. -/
def cutRect (a b : Nat × Nat × Nat × Nat) : List (Nat × Nat × Nat × Nat) :=
  let r : Rect := ⟨a.1, a.2.1, a.2.2.1, a.2.2.2⟩
  let c : Rect := ⟨b.1, b.2.1, b.2.2.1, b.2.2.2⟩
  if !r.meets c then [a]
  else
    let x0 := max r.x c.x
    let x1 := min (r.x + r.w) (c.x + c.w)
    let y0 := max r.y c.y
    let y1 := min (r.y + r.h) (c.y + c.h)
    [(r.x, r.y, r.w, y0 - r.y), (r.x, y1, r.w, r.y + r.h - y1), (r.x, y0, x0 - r.x, y1 - y0), (x1, y0, r.x + r.w - x1, y1 - y0)].filter
      (fun p => p.2.2.1 != 0 && p.2.2.2 != 0)

/-- What a load that completed OK takes off a hold, none where it has all been covered (R367). -/
def LoadHold.cover (h : LoadHold) (b : Nat × Nat × Nat × Nat) : Option LoadHold :=
  match h.left.flatMap (fun p => cutRect p b) with
  | [] => none
  | l => some { h with left := l }

/-- One load completes at the opening of a compose window (R367, R368). -/
def Dev.calLoadEnd (d : Dev) (u : Nat) (w : CalWork) : Dev :=
  let d := { d with cal := { d.cal with held := d.cal.held.filterMap (fun (h : LoadHold) => h.cover (w.x, w.y, w.w, w.h)) } }
  let d := (d.markAll (d.patchesIn w.rect)).bump R.CAL_LOAD_CNT 1
  d.settleFirst (fun o => o.kind == .calLoad u && o.queue == w.queue && o.tag == w.tag) stOk (some (d.time.turn + 1))

/-- Loads whose last entry has been written complete (R368). -/
def Dev.calLoadEnds (d : Dev) : Dev :=
  (List.range 4).foldl (fun d u =>
    let l := Tab.getD d.cal.loads u []
    let d := { d with cal := { d.cal with loads := Tab.set d.cal.loads u (l.filter (fun w => !w.written)) } }
    (l.filter (·.written)).foldl (fun d w => d.calLoadEnd u w) d) d

/-- A square is held by a load, begun and not ended, or cut off (R367). -/
def Dev.loadHolds (d : Dev) (q : Square) : Bool :=
  d.cal.held.any (fun h => (Rect.mk h.rect.1 h.rect.2.1 h.rect.2.2.1 h.rect.2.2.2).meets ⟨q.x, q.y, q.w, q.h⟩)

/-! ### Brightness (R351 to R354, R380 to R386) -/

/-- The ambient objects (R385). -/
def Dev.opb (d : Dev) : Nat := d.objNat 0x6100 2 0xFFFF
def Dev.ambTau (d : Dev) : Nat := d.objNat 0x6100 3 10
def Dev.ambSlew (d : Dev) : Nat := d.objNat 0x6100 4 4096
def Dev.ambStaleS (d : Dev) : Nat := d.objNat 0x6100 5 30
def Dev.ambStart (d : Dev) : Nat := d.objNat 0x6100 6 0x8000
def Dev.ambPoints (d : Dev) : Nat := d.objNat 0x6100 7 2
/-- Lux and level of point i, from 0. -/
def Dev.ambPoint (d : Dev) (i : Nat) : Nat × Nat :=
  (d.objNat 0x6101 (i + 1) (if i = 1 then 10000 else 0), d.objNat 0x6102 (i + 1) (if i = 0 then 0x2000 else 0xFFFF))
/-- The venue brightness ceiling (R380). -/
def Dev.ceiling (d : Dev) : Nat := d.objNat 0x7010 1 0xFFFF

/-- Fresh plausible readings of this device's squares (R381). -/
def Dev.freshLux (d : Dev) : List Nat :=
  (d.cal.amb.filter (fun p => decide (d.time.now ≤ p.2.2 + d.ambStaleS * perSec))).map (·.2.1)

/-- The other devices of this device's part are its peers. -/
def Dev.peerLux (d : Dev) : List Nat :=
  (d.cal.ambPeers.filter (fun p => decide (p.1 ∈ d.tbl.part) && decide (d.time.now ≤ p.2.2 + d.ambStaleS * perSec))).flatMap (·.2.1)

/-- The lower middle value of a list. -/
def median (l : List Nat) : Option Nat :=
  match sortNat l with
  | [] => none
  | s => some (s.getD ((s.length - 1) / 2) 0)

/-- The curve at a lux (R382). -/
def curveLevel (pts : List (Nat × Nat)) (lux : Nat) : Nat :=
  match pts with
  | [] => 0
  | [p] => p.2
  | p :: q :: t =>
    if lux ≤ p.1 then p.2
    else if lux < q.1 then
      ((p.2 : Int) + (((lux - p.1 : Nat) : Int) * ((q.2 : Int) - p.2)) / ((q.1 - p.1 : Nat) : Int)).toNat
    else curveLevel (q :: t) lux

/-- The filter step of R381; a tie of its rounding is open. -/
def Dev.ambStep (d : Dev) (raw amb : Nat) : Nat × Dev :=
  let num := absDiff raw amb * d.num
  let den := d.ambTau * d.den * 1000000000 + d.num
  let (up, d) := if 2 * (num % den) = den then
      let (v, d) := d.fresh 12
      (v % 2, d)
    else (if den < 2 * (num % den) then 1 else 0, d)
  let k := num / den + up
  (if amb ≤ raw then amb + k else amb - k, d)

/-- Readings have stopped, or a fresh one has come (R383). -/
def Dev.ambFresh (d : Dev) (fresh : Bool) : Dev :=
  if fresh then { d with cal := { d.cal with ambSeen := true, ambStale := false } }
  else if d.cal.ambSeen && !d.cal.ambStale then
    { d.flagRaise R.CAL_AMB_STALE 419 with cal := { d.cal with ambStale := true } }
  else d

/-- The ambient lux and level at the opening of a compose window (R381 to R383). -/
def Dev.ambient (d : Dev) : Dev :=
  let raw := median (d.freshLux ++ (if d.rules then d.peerLux else []))
  let d := d.ambFresh raw.isSome
  match raw with
  | none =>
    if !d.on R.CAL_AMB_EN then d.put R.CAL_LVL_NOW 0xFFFF
    else if d.cal.ambSeen then d else d.put R.CAL_LVL_NOW d.ambStart
  | some raw =>
    let (amb, d) := d.ambStep raw (d.get R.CAL_AMB_LUX)
    let d := d.put R.CAL_AMB_LUX amb
    if !d.on R.CAL_AMB_EN then d.put R.CAL_LVL_NOW 0xFFFF
    else
      let target := curveLevel ((List.range d.ambPoints).map d.ambPoint) amb
      let most := max 1 (d.ambSlew * d.num / (d.den * 1000000000))
      let lvl := d.get R.CAL_LVL_NOW
      d.put R.CAL_LVL_NOW (if lvl ≤ target then min target (lvl + most) else max target (lvl - most))

/-- Drive level and digital gain (R352). -/
def driveOf (b floor ceil : Nat) : Nat × Nat :=
  let dl := max b (min floor ceil)
  (dl, if dl = 0 then 0 else b * 65535 / dl)

/-- Drive level and gain of every square, with the damage of R354. -/
def Dev.drives (d : Dev) : Dev :=
  d.geo.squares.foldl (fun d (p : Nat × Square) =>
    let x := driveOf (d.get R.CAL_B_NOW) (d.profFloor p.2.calSet) (d.get R.CAL_CEIL_NOW)
    let same := Tab.get? d.cal.dl p.1 == some x.1 && Tab.get? d.cal.g p.1 == some x.2
    let d := { d with cal := { d.cal with dl := Tab.set d.cal.dl p.1 x.1, g := Tab.set d.cal.g p.1 x.2 } }
    if same then d else d.markAll ((squarePatches p.1 p.2).filter (fun k => !(k ∈ d.adm.held)))) d

/-- Brightness, and what else the calibration units latch, at the opening of a compose window (R51, R351, R380,
R384). -/
def Dev.brightness (d : Dev) : Dev :=
  let d := (d.put R.CAL_CEIL_NOW d.ceiling).put R.CAL_OPB_NOW d.opb
  let d := (List.range d.cal.ceilPend).foldl (fun d _ => d.raise 418) d
  let d := d.ambient
  let own := min (d.get R.CAL_CEIL_NOW) (mul (d.get R.CAL_OPB_NOW) (d.get R.CAL_LVL_NOW))
  let b := if d.rules then own else d.cal.bRuler.getD (d.get R.CAL_B_NOW)
  let d := d.put R.CAL_B_NOW b
  let d := if d.rules then d.decree [.bright b]
    else d.sendTable (d.get R.PUSH_RULER) (fun p h => .tableAmbient p h d.freshLux)
  let d := { d with cal := { d.cal with
    ceilPend := 0
    outMx := d.get R.CAL_OUT_MX
    outTable := d.get R.CAL_OUT_TABLE
    calEn := d.on R.CAL_CAL_EN
    extrap := [] } }
  d.drives

/-! ### One pixel (R344, R355 to R358, R362, R377 to R379) -/

/-- The sets and the weight of a drive level, and whether it lies above (some true) or below (some false) the
captured range (R355, R356). -/
def selectSets (levels : List Nat) (dl : Nat) : Nat × Nat × Nat × Option Bool :=
  let n := levels.length
  let lv (i : Nat) : Nat := levels.getD i 0
  if dl < lv 0 then (0, 0, 0, some false)
  else if lv (n - 1) < dl then (n - 1, n - 1, 0, some true)
  else
    match (List.range n).find? (fun i => lv i == dl) with
    | some i => (i, i, 0, none)
    | none =>
      match (List.range n).find? (fun i => decide (lv i < dl) && decide (dl < lv (i + 1))) with
      | some i => (i, i + 1, (dl - lv i) * 65536 / (lv (i + 1) - lv i), none)
      | none => (n - 1, n - 1, 0, none)

/-- A correction of one LED: nine coefficients, three gains, three offsets. -/
structure Led where
  m : List Int
  gain : List Nat
  offset : List Int
  deriving DecidableEq, Repr

/-- Identity, gain 1, offset 0. -/
def Led.unity : Led := ⟨[16384, 0, 0, 0, 16384, 0, 0, 0, 16384], [0x8000, 0x8000, 0x8000], [0, 0, 0]⟩

/-- A coefficient between two sets (R357). -/
def between (a b : Int) (f : Nat) : Int := a + ((b - a) * f + 32768) / 65536

/-- The correction of a board pixel from two sets at a weight; the identity where an entry is poisoned (R362). -/
def State.ledAt (s : State) (x y a b f : Nat) : Led :=
  let bad := s.poisoned (setAt x y a) 18 || (a != b && s.poisoned (setAt x y b) 18) ||
    s.poisoned (gainAt x y) 6 || s.poisoned (offsetAt x y) 6
  if bad then Led.unity
  else
    let i16 (at_ i : Nat) : Int := signed 16 (leOf (Memory.getAll s.hbm (at_ + 2 * i) 2))
    let coef (i : Nat) : Int := if a = b then i16 (setAt x y a) i else between (i16 (setAt x y a) i) (i16 (setAt x y b) i) f
    ⟨(List.range 9).map coef, (List.range 3).map (fun i => leOf (Memory.getAll s.hbm (gainAt x y + 2 * i) 2)),
      (List.range 3).map (i16 (offsetAt x y))⟩

/-- A value held to a bound above and 0 below, and whether the bound above limited it. -/
def clampUp (v : Int) (hi : Nat) : Nat × Bool := (clampNat v hi, decide ((hi : Int) < v))

/-- One channel of R377. -/
def channelCode (k : Led) (g : Nat) (twelve : Bool) (p : Lanes) (r : Nat) : Nat × Bool :=
  let c (j : Nat) : Int := k.m.getD (3 * r + j) 0
  let (v, c1) := clampUp ((c 0 * p.c0 + c 1 * p.c1 + c 2 * p.c2 + 8192) / 16384) laneMax
  let (v, c2) := clampUp (((v * k.gain.getD r 0 + 16384) / 32768 : Nat) : Int) laneMax
  let (v, c3) := clampUp ((v : Int) + k.offset.getD r 0) laneMax
  let v := mul v g
  let top := if twelve then 4095 else 65535
  let (v, c4) := clampUp (((v * top + 131072) / 262144 : Nat) : Int) top
  (v, c1 || c2 || c3 || c4)

/-- The codes of a pixel after the output conversion, and whether it clipped (R378). -/
def pixelCode (k : Led) (g : Nat) (twelve : Bool) (p : Lanes) : Code × Bool :=
  let r := channelCode k g twelve p 0
  let gg := channelCode k g twelve p 1
  let b := channelCode k g twelve p 2
  (⟨r.1, gg.1, b.1⟩, r.2 || gg.2 || b.2)

/-- A square sets EXTRAP or EXTRAP_LOW, once for each content (R358). -/
def Dev.extrapFlag (d : Dev) (n : Nat) : Option Bool → Dev
  | none => d
  | some above =>
    let key := 2 * n + (if above then 0 else 1)
    if key ∈ d.cal.extrap then d
    else
      let d := { d with cal := { d.cal with extrap := key :: d.cal.extrap } }
      if above then (d.bump R.CAL_EXTRAP_CNT 1).flagRaiseOnce R.CAL_EXTRAP 412
      else (d.bump R.CAL_EXTRAP_LOW_CNT 1).flagRaiseOnce R.CAL_EXTRAP_LOW 413

/-- Pixels that clipped are counted (R378). -/
def Dev.clipped (d : Dev) (n : Nat) : Dev :=
  if n = 0 then d else (d.bump R.CAL_OUT_CLIP_CNT n).flagRaiseOnce R.CAL_OUT_CLIP 415

/-- Steps 1 to 6 of R344 on a patch whose accumulator pixels are given row by row: the codes in the tile's own
order, and the state that has counted. -/
def State.convert (s : State) (k : Nat) (sq : Square) (pix : List Pix) : List Code × State :=
  let n := patchSquare k
  let r := s.dev.patchRect k
  let lvls := if s.dev.cal.calEn then s.dev.profLevels sq.calSet else []
  let (a, b, f, flag) := if lvls = [] then (0, 0, 0, none) else selectSets lvls (Tab.getD s.dev.cal.dl n 0)
  let one (xy : Nat × Nat) : Code × Bool :=
    let p := pix.getD ((xy.2 - r.y) * r.w + (xy.1 - r.x)) ⟨0, 0, 0, 0⟩
    let l := s.dev.applyMx s.dev.cal.outMx ⟨p.r, p.g, p.b, p.a⟩
    let t (v : Nat) : Nat := s.dev.applyTable s.dev.cal.outTable v
    let led := if lvls = [] then Led.unity else s.ledAt xy.1 xy.2 a b f
    pixelCode led (Tab.getD s.dev.cal.g n 0) s.dev.depth12 ⟨t l.c0, t l.c1, t l.c2, 0⟩
  let out := (nativeOrder sq r).map one
  (out.map (·.1), s.upd (fun d => (d.extrapFlag n flag).clipped (out.filter (·.2)).length))

/-! ### Store loads (R331 to R337, R374) -/

def entryStore (e : List Byte) : Nat := byteAt e 8
def entrySlot (e : List Byte) : Nat := byteAt e 9
def entryTaps (e : List Byte) : Nat := byteAt e 10

/-- What the checks of R23 give for a STORE_LOAD entry (R331, R693, R694). -/
def storeLoadStatus (q : Nat) (e : List Byte) : Nat :=
  let st := entryStore e
  let taps := entryTaps e
  if entryLen e ≠ 1 || entryHandle e ≠ 0 || !allZero (slice e 11 5) || !allZero (slice e 28 4) ||
      (decide (st < 4) && leAt e 24 4 != storeBytes st) then stMalformed
  else if 3 < st || storeSlots st ≤ entrySlot e || entryAddr e % 4 != 0 ||
      (if st = 0 then taps < 1 || 8 < taps else taps != 0) then stRange
  else if queueFn q ≠ 0 || entrySlot e < storePresets st then stLocked
  else stOk

/-- STORE_LOAD: its body is read with it, none where the read fails (R334, R374, R705). -/
def execStoreLoad (queue : Nat) (entry : List Byte) (body : Option (List Byte)) (s : State) : Out :=
  onEntryDev queue entry 0x20 1 true s (fun d =>
    let st := storeLoadStatus queue entry
    if st ≠ stOk then d.answer queue entry st
    else
      match body with
      | none => d.answer queue entry stAborted
      | some b =>
        if !storeReservedOk (entryStore entry) b then d.answer queue entry stMalformed
        else if !storeBodyOk (entryStore entry) (entryTaps entry) b then d.answer queue entry stRange
        else
          let l : StoreLoad := ⟨queue, entryTag entry, entryStore entry, entrySlot entry, entryTaps entry, b⟩
          { d with comp := { d.comp with loads := d.comp.loads ++ [l] } }.owe
            ⟨queue, entryTag entry, 0, .store l.store l.slot⟩)

/-- The first load of each slot, and the loads that wait behind one (R336). -/
def firstLoads : List StoreLoad → List (Nat × Nat) → List StoreLoad × List StoreLoad
  | [], _ => ([], [])
  | l :: t, seen =>
    if (l.store, l.slot) ∈ seen then
      let r := firstLoads t seen
      (r.1, l :: r.2)
    else
      let r := firstLoads t ((l.store, l.slot) :: seen)
      (l :: r.1, r.2)

/-- One slot switches to a load (R335, R374). -/
def Dev.switchSlot (d : Dev) (l : StoreLoad) : Dev :=
  let c := d.comp
  let d :=
    if l.store = 0 then ({ d with comp := { c with sets := Tab.set c.sets l.slot (l.taps, l.body) } }.put R.COMP_SET_VALID
      (setBit (d.get R.COMP_SET_VALID) l.slot)).bump R.COMP_BANK_SEQ 1
    else if l.store = 1 then ({ d with comp := { c with tables := Tab.set c.tables l.slot l.body } }.put R.COMP_TABLE_VALID
      (setBit (d.get R.COMP_TABLE_VALID) l.slot)).bump R.COMP_BANK_SEQ 1
    else if l.store = 2 then ({ d with comp := { c with mats := Tab.set c.mats l.slot l.body } }.put R.COMP_MX_VALID
      (setBit (d.get R.COMP_MX_VALID) l.slot)).bump R.COMP_BANK_SEQ 1
    else { d with comp := { c with curves := Tab.set c.curves l.slot l.body } }.put R.CAL_CURVE_VALID
      (setBit (d.get R.CAL_CURVE_VALID) l.slot)
  d.settleFirst (fun o => o.kind == .store l.store l.slot && o.queue == l.queue && o.tag == l.tag) stOk (some (d.time.turn + 1))

/-- The bank switch at the opening of a compose window: the slots switched (R335). -/
def Dev.storeSwitch (d : Dev) : List (Nat × Nat) × Dev :=
  let (now, later) := firstLoads d.comp.loads []
  let d := { d with comp := { d.comp with loads := later } }
  (now.map (fun l => (l.store, l.slot)), now.foldl Dev.switchSlot d)

/-- A layer names a store slot. -/
def lNames (r : List Byte) (st slot : Nat) : Bool :=
  (st == 0 && lKind r == 0 && !lUnscaled r && (lHset r == slot || lVset r == slot)) ||
    (lKind r != 1 && ((st == 1 && lTable r == slot) || (st == 2 && (lPreMx r == slot || lPostMx r == slot))))

/-- Damage of a store switch (R395). -/
def Dev.storeDamage (d : Dev) (sw : List (Nat × Nat)) : Dev :=
  sw.foldl (fun d x =>
    let d := d.comp.latched.foldl (fun (d : Dev) (p : Nat × Latch) => if lNames p.2.record x.1 x.2 then d.markAll (d.patchesOf p.2.record) else d) d
    if (x.1 = 2 ∧ d.get R.CAL_OUT_MX = x.2) ∨ (x.1 = 1 ∧ d.get R.CAL_OUT_TABLE = x.2) then d.markAll d.allPatches else d) d

end Sys2Proof.Machine
end

