-- ==== Sys2Proof/Machine/Sense.lean ====
section
/-! DEFINITION. The sensing unit: SENSE and HEALTH frames, staleness, alarm inputs, the sense doorbell (R613 to R633). -/

namespace Sys2Proof.Machine

/-! ### SENSE frames (R492, R613, R614) -/

/-- A square scans a plane: 0 touch, 1 pressure (R605). -/
def Square.scans (q : Square) (plane : Nat) : Bool := if plane = 0 then q.hasTouch else q.hasPress

/-- Word 0 of a SENSE frame, with its plane and readings. -/
structure SenseFrame where
  plane : Nat
  scan : Nat
  first : Nat
  ncell : Nat
  lastf : Bool
  readings : List Nat
  deriving DecidableEq, Repr

/-- A SENSE frame read (R492). -/
def senseFrame (h : Header) (pay : List LinkWord) : SenseFrame :=
  let w := payWord pay 0
  let n := bits w 54 44
  ⟨bit h.flags 0, bits w 31 0, bits w 43 32, n, tbit w 55,
    (List.range n).map (fun j => bits (payWord pay (1 + j / 4)) (16 * (j % 4) + 15) (16 * (j % 4)))⟩

/-- The scan that a frame belongs to, none where the frame is older; the Bool tells that it begins a scan while the
current one is incomplete (R614). -/
def Plane.forScan (p : Plane) (scan : Nat) : Option (Plane × Bool) :=
  let fresh : Plane := { p with scan := some scan, got := [], last := false, spoiled := false }
  match p.scan with
  | none => some (fresh, false)
  | some c =>
    if scan = c then some (p, false)
    else if (scan + 2 ^ 32 - c) % 2 ^ 32 < 2 ^ 31 then some (fresh, !p.last)
    else none

/-- The cells of a frame lie in the plane, and none has been delivered before in the scan (R614). -/
def Plane.admits (p : Plane) (nc : Nat) (f : SenseFrame) : Bool :=
  decide (1 ≤ f.ncell) && decide (f.ncell ≤ 1024) && decide (f.first + f.ncell ≤ nc) &&
    p.got.all (fun g => decide (g.1 + g.2.length ≤ f.first) || decide (f.first + f.ncell ≤ g.1))

/-- A frame of a sensed square (R613, R614). -/
def Dev.senseIn (d : Dev) (n : Nat) (sq : Square) (len : Nat) (f : SenseFrame) : Dev :=
  let q := d.sqSense n
  match (q.plane f.plane).forScan f.scan with
  | none => d
  | some (p, lost) =>
    let d := if lost then (d.bump R.SNS_SCAN_ERR_CNT 1).flagRaiseOnce R.SNS_SCAN_ERR 759 else d
    let nc := d.cellCols n sq * d.cellRows n sq
    if p.last then d
    else if len ≠ 1 + ceilDiv f.ncell 4 || !p.admits nc f then
      d.putSqSense n (q.putPlane f.plane { p with spoiled := true })
    else
      let p : Plane := { p with got := Tab.set p.got f.first f.readings }
      let d := d.putSqSense n (q.putPlane f.plane p)
      let all := p.got.flatMap (·.2)
      if f.lastf && all.length == nc && !p.spoiled then d.scanComplete n f.plane f.scan all else d

/-- SENSE_FRAME_RECEIVE (R604, R613 to R621, R635). -/
def execSenseFrameReceive (snake owner : Nat) (words : List LinkWord) (s : State) : Out :=
  onUpFrame snake owner ftSense words s (fun h pay d =>
    let n := 64 * snake + owner
    let f := senseFrame h pay
    if !d.on R.SNS_EN then d
    else
      match d.square? n with
      | none => d.bump R.SNS_SCAN_ERR_CNT 1
      | some sq =>
        if (d.sqSense n).state = 0 || !sq.scans f.plane then d.bump R.SNS_SCAN_ERR_CNT 1
        else d.senseIn n sq h.len f)

/-- SENSE_STALE (R615): a square has delivered no complete scan for SENSE_TO_MS. -/
def execSenseStale (square : Nat) (s : State) : Out := onUnit (decide (square < 16384)) s (fun d => d.goStale square true)

/-- `SENSE_CTL.EN` is 0: every ACTIVE square is handled as STALE (R635). -/
def Dev.senseOff (d : Dev) : Dev := d.geo.squares.foldl (fun (d : Dev) p => d.goStale p.1 true) d

/-! ### HEALTH frames (R493, R625 to R627) -/

/-- The plausibility objects (R625). -/
def Dev.tempWarn (d : Dev) : Nat := d.objNat 0x6001 1 1360
def Dev.tempSlew (d : Dev) : Nat := d.objNat 0x6001 2 10
def Dev.vsupLo (d : Dev) : Nat := d.objNat 0x6001 3 1000
def Dev.vsupHi (d : Dev) : Nat := d.objNat 0x6001 4 60000
def Dev.ledMax (d : Dev) : Nat := d.objNat 0x6001 5 100000
def Dev.ledMinMs (d : Dev) : Nat := d.objNat 0x6001 6 100
def Dev.luxMax (d : Dev) : Nat := d.objNat 0x6001 7 200000

/-- A reading outside its window (R625). -/
def Dev.implausible (d : Dev) : Dev := (d.bump R.SNS_TELE_IMPL_CNT 1).flagRaiseOnce R.SNS_TELE_IMPL 760

/-- TEMP_WARN, on the rise alone (R626). -/
def Dev.warmSquare (d : Dev) (n : Nat) (t : Int) : Dev :=
  let q := d.sqSense n
  if (d.tempWarn : Int) < t && !q.hot then
    ((d.putSqSense n { q with hot := true }).flag R.SNS_TEMP_WARN).raiseLedger 761 (2 ^ R.SNS_TEMP_WARN.lo) 13
  else if t ≤ (d.tempWarn : Int) - 80 then d.putSqSense n { q with hot := false }
  else d

/-- A TEMP reading is taken. -/
def Dev.takeTemp (d : Dev) (n : Nat) (t : Int) : Dev :=
  (d.putSqSense n { d.sqSense n with temp := some t, tempAt := d.time.now, slewRej := 0 }).warmSquare n t

/-- A TEMP reading, and whether it was plausible (R625). -/
def Dev.tempIn (d : Dev) (n : Nat) (t : Int) : Bool × Dev :=
  let q := d.sqSense n
  if t < -640 ∨ 2000 < t then (false, (d.putSqSense n { q with slewRej := 0 }).implausible)
  else
    match q.temp with
    | none => (true, d.takeTemp n t)
    | some last =>
      if (t - last).natAbs * perSec ≤ 16 * d.tempSlew * (d.time.now - q.tempAt) then (true, d.takeTemp n t)
      else if 3 ≤ q.slewRej then (false, (d.takeTemp n t).implausible)
      else (false, (d.putSqSense n { q with slewRej := q.slewRej + 1 }).implausible)

/-- A VSUP reading. -/
def Dev.vsupIn (d : Dev) (n v : Nat) : Bool × Dev :=
  if v < d.vsupLo ∨ d.vsupHi < v then (false, d.implausible) else (true, d.putSqSense n { d.sqSense n with vsup := v })

/-- An AMB reading; 0xFFFF_FFFF means no sensor (R625, R626). -/
def Dev.ambIn (d : Dev) (n v : Nat) : Bool × Dev :=
  if v = 0xFFFFFFFF then (true, d)
  else if d.luxMax < v then (false, d.implausible)
  else
    let d := d.putSqSense n { d.sqSense n with amb := v }
    (true, { d with cal := { d.cal with amb := Tab.set d.cal.amb n (v, d.time.now) } })

/-- The board pixel of a native pixel index of a square (R481). -/
def boardPixel (q : Square) (i : Nat) : Nat × Nat :=
  let u := i % q.tw
  let v := i / q.tw
  let u1 := if q.mirror then q.tw - 1 - u else u
  if q.orient = 0 then (q.x + u1, q.y + v)
  else if q.orient = 1 then (q.x + (q.w - 1 - v), q.y + u1)
  else if q.orient = 2 then (q.x + (q.w - 1 - u1), q.y + (q.h - 1 - v))
  else (q.x + v, q.y + (q.h - 1 - u1))

/-- One LED-current reading (R493, R625, R369). -/
def Dev.ledIn (d : Dev) (n : Nat) (sq : Square) (w : Nat) : Bool × Dev :=
  let i := bits w 17 0
  let c := bits w 19 18
  let amp := bits w 39 20
  let ms := bits w 55 40
  if d.ledMax < amp ∨ ms < d.ledMinMs ∨ sq.tw * sq.th ≤ i ∨ 2 < c then (false, d.implausible)
  else
    let p := boardPixel sq i
    (true, d.ageOffer n sq ⟨p.1, p.2, c, amp, ms⟩)

/-- The readings of a HEALTH frame one after another, and whether all were plausible. -/
def Dev.ledsIn (d : Dev) (n : Nat) (sq : Square) (ws : List Nat) : Bool × Dev :=
  ws.foldl (fun (a : Bool × Dev) w =>
    let r := a.2.ledIn n sq w
    (a.1 && r.1, r.2)) (true, d)

/-- A HEALTH frame of a square (R625 to R627, R523). -/
def Dev.healthIn (d : Dev) (n : Nat) (sq : Square) (pay : List LinkWord) : Dev :=
  let k := bits (payWord pay 2) 5 0
  let w := payWord pay 0
  let d := if bits (payWord pay 1) 5 0 ≠ 0 then d.snkFlagOnce (n / 64) (R.SNK_TILE_FLAG (n / 64)) else d
  let (a, d) := d.tempIn n (signed 16 (bits w 15 0))
  let (b, d) := d.vsupIn n (bits w 31 16)
  let (c, d) := d.ambIn n (bits w 63 32)
  let (e, d) := d.ledsIn n sq ((List.range k).map (fun r => payWord pay (3 + r)))
  if a && b && c && e then d.putSqSense n { d.sqSense n with teleStale := false } else d

/-- HEALTH_FRAME_RECEIVE. A frame whose LEN is not that of R493 is not read. -/
def execHealthFrameReceive (snake owner : Nat) (words : List LinkWord) (s : State) : Out :=
  onUpFrame snake owner ftHealth words s (fun _ pay d =>
    match d.square? (64 * snake + owner) with
    | none => d
    | some sq =>
      let k := bits (payWord pay 2) 5 0
      if pay.length ≠ 3 + k ∨ 32 < k then d else d.healthIn (64 * snake + owner) sq pay)

/-- TELE_STALE (R627): no plausible HEALTH frame for 4 × HEALTH_MS. Its last ambient reading is not fresh any more. -/
def execTeleStale (square : Nat) (s : State) : Out :=
  onUnit (decide (square < 16384)) s (fun d =>
    if (d.square? square).isNone then d
    else
      let d := d.putSqSense square { d.sqSense square with teleStale := true }
      { d.flagRaise R.SNS_TELE_STALE_C 763 with cal := { d.cal with amb := Tab.erase d.cal.amb square } })

/-! ### Alarm inputs (R628 to R631) -/

def Dev.alarmMode (d : Dev) (k : Nat) : Nat := d.objNat (0x6200 + k) 1 1
def Dev.alarmPol (d : Dev) (k : Nat) : Bool := d.objNat (0x6200 + k) 2 0 == 1
def Dev.alarmMs (d : Dev) (k : Nat) : Nat := d.objNat (0x6200 + k) 3 20
def Dev.alarmOf (d : Dev) (k : Nat) : Alarm := Tab.getD d.sns.alarms k {}

/-- The alarm is on, here or at any member of the part (R629, R631). -/
def Dev.alarmOn (d : Dev) (k : Nat) : Bool :=
  (d.alarmOf k).on || (d.grouped && d.tbl.alarms.any (fun p => tbit p.2 k))

/-- Handles bound to an input (R630). -/
def Dev.boundTo (d : Dev) (k : Nat) : List Nat :=
  (List.range 4).filterMap (fun j => match Tab.getD d.sns.bind (4 * k + j) 0 with | 0 => none | h => some h)

/-- A layer is shown by an alarm (R629). -/
def Dev.shown (d : Dev) (h : Nat) : Bool := (List.range 2).any (fun k => d.alarmOn k && decide (h ∈ d.boundTo k))

/-- Damage of bound layers whose being shown has changed (R629). -/
def Dev.shownDamage (d : Dev) (before : Nat → Bool) : Dev :=
  (List.range 2).foldl (fun d k =>
    if before k = d.alarmOn k then d
    else (d.boundTo k).foldl (fun (d : Dev) h =>
      match d.handleOf? clsLayer h with
      | some c => d.markLayer c.record
      | none => d) d) d

/-- ALARM_STATUS as the inputs stand (R636). -/
def Dev.alarmRegs (d : Dev) : Dev :=
  let b (x : Bool) : Nat := if x then 1 else 0
  let a := d.alarmOf 0
  let c := d.alarmOf 1
  let d := (((d.put R.SNS_RAW0 (b a.raw)).put R.SNS_ACT0 (b a.active)).put R.SNS_ON0 (b (d.alarmOn 0))).put R.SNS_CHAT0 (b a.chatter)
  (((d.put R.SNS_RAW1 (b c.raw)).put R.SNS_ACT1 (b c.active)).put R.SNS_ON1 (b (d.alarmOn 1))).put R.SNS_CHAT1 (b c.chatter)

/-- The alarm states go to the ruler, or from the ruler to every member (R631). -/
def Dev.alarmShare (d : Dev) : Dev :=
  if !d.grouped then d
  else if d.rules then d.decree [.alarms (d.alarmOn 0) (d.alarmOn 1)]
  else d.tellRuler (.alarms d.ownIdx (d.alarmOf 0).on (d.alarmOf 1).on)

/-- One sample of an input, after POL (R628, R629). -/
def Alarm.sample (a : Alarm) (mode debounce : Nat) (level : Bool) : Alarm :=
  let changed := level != a.raw
  let ages := (a.changes.map (· + 1)).filter (· < 1000)
  let changes := if changed then 0 :: ages else ages
  let held := if changed then 0 else a.held + 1
  let chatter := if a.chatter then decide (held < 1000) else decide (20 < changes.length)
  let active := if chatter then true else if debounce ≤ held || a.chatter then level else a.active
  let on := if mode = 0 then false else if mode = 1 then active else a.on || (active && !a.active)
  ⟨level, held, active, on, chatter, changes⟩

/-- Events of an input's change (R628, R637). -/
def Dev.alarmEvents (d : Dev) (k : Nat) (was now : Alarm) : Dev :=
  let d := if now.active = was.active then d
    else (d.flag R.SNS_ALARM_CHG).raiseLedger ((if now.active then 765 else 766) + 2 * k) (2 ^ R.SNS_ALARM_CHG.lo) 13
  if now.chatter && !was.chatter then d.raise 770 else d

/-- ALARM_SAMPLE: the levels of the two inputs, every 1 ms. -/
def Dev.alarmSample (d : Dev) (levels : Nat → Bool) : Dev :=
  let before (k : Nat) : Bool := d.alarmOn k
  let own (k : Nat) : Bool := (d.alarmOf k).on
  let one (d : Dev) (k : Nat) : Dev :=
    let was := d.alarmOf k
    let now := was.sample (d.alarmMode k) (d.alarmMs k) (levels k != d.alarmPol k)
    { d with sns := { d.sns with alarms := Tab.set d.sns.alarms k now } }.alarmEvents k was now
  let d := one (one d 0) 1
  let d := (d.alarmRegs).shownDamage before
  if own 0 = (d.alarmOf 0).on && own 1 = (d.alarmOf 1).on then d else d.alarmShare

def execAlarmSample (level0 level1 : Bool) (s : State) : Out :=
  .next (s.upd (fun d => d.alarmSample (fun k => if k = 0 then level0 else level1)))

/-- CLEAR: a write of ALARM_CMD (R629). -/
def Dev.alarmClear (d : Dev) (v : Nat) : Dev :=
  let before (k : Nat) : Bool := d.alarmOn k
  let one (d : Dev) (k : Nat) : Dev :=
    let a := d.alarmOf k
    if tbit v k && d.alarmMode k == 2 && !a.active then
      { d with sns := { d.sns with alarms := Tab.set d.sns.alarms k { a with on := false } } }
    else d
  let d := ((one (one d 0) 1).alarmRegs).shownDamage before
  if before 0 = d.alarmOn 0 && before 1 = d.alarmOn 1 then d else d.alarmShare

def execClear (value : BitVec 32) (s : State) : Out := .next (s.upd (fun d => d.alarmClear value.toNat))

/-- A bound layer is destroyed: its bindings clear (R630, R633). -/
def Dev.unbind (d : Dev) (h : Nat) : Dev :=
  (List.range 8).foldl (fun d i =>
    if h ≠ 0 ∧ Tab.getD d.sns.bind i 0 = h then
      let d := { d with sns := { d.sns with bind := Tab.set d.sns.bind i 0 } }
      let d := d.flagRaise R.SNS_BIND_LOST 769
      d.ledger ⟨false, 0x0A04, 13, 1, leBytes 1 (i / 4) ++ leBytes 1 (i % 4) ++ leBytes 4 h ++ leBytes 4 0, false⟩
    else d) d

/-- A binding of input k changes: the layers that are shown by an alarm and were not, or were and are not, are damaged,
and the change is recorded (R629, R630). -/
def Dev.bindTo (d : Dev) (role transport k j h : Nat) : Dev :=
  let old := Tab.getD d.sns.bind (4 * k + j) 0
  if old = h then d
  else
    let was (x : Nat) : Bool := d.shown x
    let d := { d with sns := { d.sns with bind := Tab.set d.sns.bind (4 * k + j) h } }
    let d := [old, h].foldl (fun (d : Dev) x =>
      if x = 0 ∨ was x = d.shown x then d
      else match d.handleOf? clsLayer x with
        | some c => d.markLayer c.record
        | none => d) d
    d.ledger ⟨false, 0x0A03, 13, 1, leBytes 1 k ++ leBytes 1 j ++ leBytes 4 old ++ leBytes 4 h ++ leBytes 1 role ++
      leBytes 1 transport, false⟩

/-! ### The sense doorbell (R609, R680) -/

/-- SENSE_DOORBELL: the consumer index of a channel's report ring. -/
def execSenseDoorbell (fn index value bytes : Nat) (s : State) : Out :=
  onUnit (decide (fn < 32) && decide (index < 256)) s (fun d =>
    match d.live? clsSense index with
    | none => d.dbErr
    | some c =>
      if bytes ≠ 4 ∨ sEntries c.record ≤ value ∨ !c.mayName fn then d.dbErr else d.put (R.SCH_CI index) value)

end Sys2Proof.Machine
end

