-- ==== Sys2Proof/Machine/Ingest.lean ====
section
/-! DEFINITION. Ingest ports and channels: parsing, flow tables, packet checks, frames, JPEG XS slices (R524 to R546).
The layouts of Ethernet, IPv4, UDP, RTP, ST 2110-20 and RFC 9134 are those of the standards that R25 and R528 name. -/

namespace Sys2Proof.Machine

/-! ### Headers -/

/-- An Ethernet II frame with no tag or one IEEE 802.1Q tag (R526). -/
structure Ether where
  vid : Option Nat
  etype : Nat
  body : List Byte
  deriving DecidableEq, Repr

def readEther (f : List Byte) : Option Ether :=
  if f.length < 14 then none
  else
    let t := beAt f 12 2
    if t = 0x8100 then (if f.length < 18 then none else some ⟨some (beAt f 14 2 % 4096), beAt f 16 2, f.drop 18⟩)
    else some ⟨none, t, f.drop 14⟩

/-- Ones' complement sum of big-endian 16-bit words, an odd last byte padded with 0. -/
def onesSum : List Byte → Nat
  | a :: b :: t => (a.toNat * 256 + b.toNat) + onesSum t
  | [a] => a.toNat * 256
  | [] => 0

/-- The sum folded to 16 bits. -/
def fold16 (v : Nat) : Nat := (v % 65536 + v / 65536) % 65536 + (v % 65536 + v / 65536) / 65536

/-- A UDP datagram over IPv4 as R526 accepts it. -/
structure Datagram where
  src : Nat
  dst : Nat
  dport : Nat
  /-- bytes of the IP packet -/
  size : Nat
  payload : List Byte
  deriving DecidableEq, Repr

/-- IPv4 with IHL 5, not fragmented, with a correct header checksum; UDP, its checksum verified when not 0 (R526). -/
def readDatagram (b : List Byte) : Option Datagram :=
  let total := beAt b 2 2
  let ulen := beAt b 24 2
  if byteAt b 0 ≠ 0x45 ∨ total < 28 ∨ b.length < total ∨ beAt b 6 2 % 0x4000 ≠ 0 ∨ byteAt b 9 ≠ 17 ∨
      fold16 (fold16 (onesSum (slice b 0 20))) ≠ 0xFFFF ∨ ulen < 8 ∨ total < 20 + ulen then none
  else
    let udp := slice b 20 ulen
    let pseudo := slice b 12 8 ++ [0, 17] ++ beBytes 2 ulen
    if beAt b 26 2 ≠ 0 ∧ fold16 (fold16 (onesSum (pseudo ++ udp))) ≠ 0xFFFF then none
    else some ⟨beAt b 12 4, beAt b 16 4, beAt b 22 2, total, udp.drop 8⟩

/-- An RTP packet, version 2, with its payload behind CSRCs and a header extension and before its padding. -/
structure Rtp where
  marker : Bool
  pt : Nat
  seq : Nat
  ts : Nat
  ssrc : Nat
  payload : List Byte
  deriving DecidableEq, Repr

def readRtp (b : List Byte) : Option Rtp :=
  if b.length < 12 ∨ byteAt b 0 / 64 ≠ 2 then none
  else
    let csrc := 12 + 4 * (byteAt b 0 % 16)
    let start := if tbit (byteAt b 0) 4 then csrc + 4 + 4 * beAt b (csrc + 2) 2 else csrc
    let pad := if tbit (byteAt b 0) 5 then (b.getLastD 0).toNat else 0
    some ⟨tbit (byteAt b 1) 7, byteAt b 1 % 128, beAt b 2 2, beAt b 4 4, beAt b 8 4, (b.take (b.length - pad)).drop start⟩

/-! ### Flow tables (R530, R534) -/

/-- Leg k of an ingest record. -/
def legOf (rec : List Byte) (k : Nat) : List Byte := slice rec (32 + 16 * k) 16
def legPort (l : List Byte) : Nat := byteAt l 0
def legEntry (l : List Byte) : Nat := leAt l 14 2

/-- A datagram's payload type and tag match a leg. -/
def legMatches (l : List Byte) (vid : Option Nat) (g : Datagram) (pt : Nat) : Bool :=
  let v := leAt l 2 2
  let src := leAt l 8 4
  (if tbit v 12 then vid == some (v % 4096) else vid == none) && leAt l 4 4 == g.dst && leAt l 12 2 == g.dport &&
    byteAt l 1 == pt && (src == 0 || src == g.src)

/-- Flow entries of a port: entry, channel, leg number. -/
def Dev.flowEntries (d : Dev) (port : Nat) : List (Nat × Nat × Nat) :=
  (d.chansOf clsIngest).flatMap (fun p =>
    ((legPorts p.2.record).zipIdx).filterMap (fun x =>
      if x.1 = port then some (legEntry (legOf p.2.record x.2), p.1, x.2) else none))

/-- FLOWS of every port (R567). -/
def Dev.flowRegs (d : Dev) : Dev :=
  (List.range 8).foldl (fun (d : Dev) i => d.put (R.IPORT_FLOWS i) (d.flowEntries i).length) d

/-- Entries of a port that match, lowest entry first. -/
def Dev.flowsMatching (d : Dev) (port : Nat) (vid : Option Nat) (g : Datagram) (pt : Nat) : List (Nat × Nat × Nat) :=
  sortBy (fun (e : Nat × Nat × Nat) => e.1) ((d.flowEntries port).filter (fun e =>
    match d.chan? clsIngest e.2.1 with
    | some c => legMatches (legOf c.record e.2.2) vid g pt
    | none => false))

/-! ### Channel state -/

def Dev.ing? (d : Dev) (i : Nat) : IngChan := Tab.getD d.ing.chans i {}
def Dev.putIng (d : Dev) (i : Nat) (c : IngChan) : Dev := { d with ing := { d.ing with chans := Tab.set d.ing.chans i c } }

def IngChan.leg (c : IngChan) (k : Nat) : Leg := if k = 0 then c.legA else c.legB
def IngChan.putLeg (c : IngChan) (k : Nat) (l : Leg) : IngChan := if k = 0 then { c with legA := l } else { c with legB := l }

/-- A bit of a port's register 0x08 set (R569). -/
def Dev.portFlag (d : Dev) (i : Nat) (f : Fld) : Dev := d.flagRaiseOnce f (688 + i)

/-- A drop that counts and sets a bit of the port. -/
def Dev.portDrop (d : Dev) (i : Nat) (cnt f : Fld) : Dev := (d.bump cnt 1).portFlag i f

/-- Fields of the ingest record (R529). -/
def iMode (r : List Byte) : Nat := byteAt r 4
def iLegB (r : List Byte) : Bool := tbit (byteAt r 5) 0
def iNbuf (r : List Byte) : Nat := byteAt r 6
def iDecoder (r : List Byte) : Nat := byteAt r 7
def iWidth (r : List Byte) : Nat := leAt r 8 2
def iHeight (r : List Byte) : Nat := leAt r 10 2
def iDepth (r : List Byte) : Nat := byteAt r 12
def iKbps (r : List Byte) : Nat := leAt r 24 4
def iFallback (r : List Byte) : Nat := leAt r 28 4

/-- A media timestamp lies after another, by modulo-2^32 difference. -/
def tsAfter (a b : Nat) : Bool := a ≠ b && decide ((a + 2 ^ 32 - b) % 2 ^ 32 < 2 ^ 31)

/-- Counters and flag of a frame that closes incomplete; ports count under leg A (R539). -/
def Dev.frameLost (d : Dev) (rec : List Byte) (flag : Bool) : Dev :=
  let d := d.bump (R.IPORT_INCOMPLETE_CNT (legPort (legOf rec 0))) 1
  if flag then d.flagRaiseOnce R.ING_INCOMPLETE 704 else d

/-- A frame leaves the channel's list. -/
def IngChan.close (c : IngChan) (ts : Nat) : IngChan :=
  { c with frames := c.frames.filter (fun f => f.ts ≠ ts), closed := (ts :: c.closed).take 512 }

/-! ### Packet checks (R536 to R538) -/

/-- Media time (R537). -/
def Dev.mediaTime (d : Dev) : Nat := d.devNs * 9 / 100000 % 2 ^ 32

/-- A timestamp lies in the window of R537. -/
def Dev.tsInWindow (d : Dev) (ts : Nat) : Bool :=
  let m := d.mediaTime
  !d.on R.ING_TS_CHECK || decide ((m + 2 ^ 32 - ts) % 2 ^ 32 ≤ d.get R.ING_TS_LATE_MS * 90) ||
    decide ((ts + 2 ^ 32 - m) % 2 ^ 32 ≤ d.get R.ING_TS_EARLY_MS * 90)

/-- A sample row data header of ST 2110-20: length, field bit, row, offset. -/
structure Srd where
  len : Nat
  field : Bool
  row : Nat
  off : Nat
  deriving DecidableEq, Repr

/-- Headers from a byte offset of the payload, at most n of them; none where the continuation runs past n or past
the payload. -/
def readSrds (b : List Byte) : Nat → Nat → Option (List Srd × Nat)
  | 0, _ => none
  | n + 1, o =>
    if b.length < o + 6 then none
    else
      let r := beAt b (o + 2) 2
      let f := beAt b (o + 4) 2
      let s : Srd := ⟨beAt b o 2, tbit r 15, r % 32768, f % 32768⟩
      if tbit f 15 then
        match readSrds b n (o + 6) with
        | some (l, e) => some (s :: l, e)
        | none => none
      else some ([s], o + 6)

/-- Octets of a pixel group of two pixels. -/
def pgroup (depth : Nat) : Nat := if depth = 10 then 5 else 6

/-- The runs of samples that a packet carries: row, first pixel, bytes; none where its geometry is wrong (R528, R536). -/
def packetRuns (r : List Byte) (payload : List Byte) : Option (List (Nat × Nat × List Byte)) :=
  match readSrds payload 3 2 with
  | none => none
  | some (srds, start) =>
    let pg := pgroup (iDepth r)
    let ok (s : Srd) : Bool := !s.field && s.len % pg == 0 && s.off % 2 == 0 && decide (s.row < iHeight r) &&
      decide (s.off + s.len / pg * 2 ≤ iWidth r)
    if srds.all ok && decide (start + (srds.map (·.len)).foldl (· + ·) 0 ≤ payload.length) then
      some (srds.foldl (fun (a : List (Nat × Nat × List Byte) × Nat) (s : Srd) =>
        (a.1 ++ [(s.row, s.off, slice payload a.2 s.len)], a.2 + s.len)) ([], start)).1
    else none

/-- The RFC 9134 header is well formed: present, progressive. -/
def xsHeaderOk (payload : List Byte) : Bool := decide (4 ≤ payload.length) && bits (byteAt payload 0) 4 3 == 0

/-- Two pixels of stored words from one pixel group (R252): Cb, Y0, Cr, Y1, each at the top of 16 bits. -/
def groupWord (depth : Nat) (g : List Byte) : List Byte :=
  let v := beOf g
  let s (i : Nat) : Nat := v / 2 ^ (depth * (3 - i)) % 2 ^ depth * 2 ^ (16 - depth)
  (List.range 4).flatMap (fun i => leBytes 2 (s i))

/-- Samples of a run as stored. -/
def storedRun (depth : Nat) (b : List Byte) : List Byte :=
  (List.range (b.length / pgroup depth)).flatMap (fun i => groupWord depth (slice b (pgroup depth * i) (pgroup depth)))

/-! ### Frames (R539) -/

/-- The sequence number of a packet: 32 bits in MODE 0, with the extension of ST 2110-20; 16 bits in MODE 1. -/
def packetSeq (r : List Byte) (p : Rtp) : Nat := if iMode r = 0 then beAt p.payload 0 2 * 65536 + p.seq else p.seq
def seqMod (r : List Byte) : Nat := if iMode r = 0 then 2 ^ 32 else 65536

/-- Every sequence number from after marker p to marker m has been received. -/
def runReceived (md : Nat) (seqs : List Nat) (p m : Nat) : Bool :=
  let n := (m + md - p) % md
  n != 0 && decide (n ≤ 131072) && (List.range n).all (fun i => decide ((p + 1 + i) % md ∈ seqs))

/-- A frame has its marker and every sequence number since the previous frame's marker. -/
def Frame.whole (f : Frame) (md : Nat) (marks : List Nat) : Bool :=
  match f.marker with
  | none => false
  | some m => marks.any (fun p => runReceived md f.seqs p m)

/-- Frame surfaces of channel i: its keys are 2^20 + 8i + slot. -/
def frameKey (i slot : Nat) : Nat := ingestBase + 8 * i + slot

/-- The lowest free frame surface of a channel (R539). -/
def IngChan.freeSlot (c : IngChan) (nbuf : Nat) : Option Nat :=
  (List.range nbuf).find? (fun k => !(c.frames.any (fun f => f.slot == k)) && !(c.newest.any (fun r => r.slot == k)) &&
    c.latched != some k)

/-- The frame that closes when a third opens: the oldest that is not complete, or else the oldest (R539). -/
def IngChan.victim (c : IngChan) : Option Frame :=
  match c.frames.find? (fun f => !f.complete) with
  | some f => some f
  | none => c.frames.head?

/-- Room for a frame, the oldest open one closing where two are open. -/
def Dev.makeRoom (d : Dev) (i : Nat) (rec : List Byte) : Dev :=
  let c := d.ing? i
  if c.frames.length < 2 then d
  else
    match c.victim with
    | none => d
    | some f => (d.putIng i (c.close f.ts)).frameLost rec true

/-- Frames that are now whole become complete; one at or below the newest ready frame is dropped (R539). -/
def Dev.completeFrames (d : Dev) (i : Nat) (rec : List Byte) : Dev :=
  (d.ing? i).frames.foldl (fun (d : Dev) f =>
    let c := d.ing? i
    if f.complete || !f.whole (seqMod rec) c.marks then d
    else if c.newest.any (fun r => !tsAfter f.ts r.ts) then (d.putIng i (c.close f.ts)).frameLost rec false
    else
      let upd (g : Frame) : Frame := if g.ts = f.ts then { g with complete := true } else g
      d.putIng i { c with frames := c.frames.map upd }) d

/-- A packet is accepted into its frame, which it opens where none is open (R535, R539, R541). -/
def Dev.acceptPacket (d : Dev) (i leg : Nat) (rec : List Byte) (size : Nat) (p : Rtp) : Dev :=
  let d := if (d.ing? i).frames.any (fun f => f.ts == p.ts) then d else
    let d := d.makeRoom i rec
    let c := d.ing? i
    match c.freeSlot (iNbuf rec) with
    | none => d
    | some slot => d.putIng i { c with frames := c.frames ++ [⟨p.ts, slot, [], none, [], false⟩] }
  let c := d.ing? i
  let seq := packetSeq rec p
  let upd (f : Frame) : Frame :=
    if f.ts = p.ts then { f with seqs := seq :: f.seqs, marker := if p.marker then some seq else f.marker } else f
  let l := c.leg leg
  let c := c.putLeg leg { l with ssrc := some p.ssrc, bytes := l.bytes + size, lost := false }
  d.putIng i { c with
    frames := c.frames.map upd
    marks := if p.marker then (seq :: c.marks).take 16 else c.marks }

/-- Samples of an accepted packet go to its frame surface (R527, R545). -/
def State.writeRuns (s : State) (i slot : Nat) (depth : Nat) (runs : List (Nat × Nat × List Byte)) : State :=
  match s.dev.surf? (frameKey i slot) with
  | none => s
  | some u => runs.foldl (fun (s : State) (r : Nat × Nat × List Byte) =>
      (s.surfPut u false (r.1 * u.pitch + 4 * r.2.1) (storedRun depth r.2.2)).2) s

/-- What R536 does with a matched packet. -/
inductive Check where
  | drop (d : Dev)
  | take (runs : List (Nat × Nat × List Byte))

/-- Steps 1 to 5 of R536. -/
def Dev.checkPacket (d : Dev) (port i leg : Nat) (rec : List Byte) (size : Nat) (p : Rtp) : Check :=
  let c := d.ing? i
  let l := c.leg leg
  let seq := packetSeq rec p
  let mine := c.frames.find? (fun f => f.ts == p.ts)
  let runs := if iMode rec = 0 then packetRuns rec p.payload else if xsHeaderOk p.payload then some [] else none
  if l.ssrc.any (fun x => x != p.ssrc) then .drop (d.portDrop port (R.IPORT_SSRC_CNT port) (R.IPORT_SSRC port))
  else if !d.tsInWindow p.ts then .drop (d.portDrop port (R.IPORT_TS_CNT port) (R.IPORT_TS port))
  else if mine.any (fun f => f.complete || decide (seq ∈ f.seqs)) || decide (p.ts ∈ c.closed) then
    .drop (d.bump (R.IPORT_DUP_CNT port) 1)
  else if d.on R.ING_POLICE_EN && decide (5 * iKbps rec < 32 * (l.bytes + size)) then
    .drop (d.portDrop port (R.IPORT_OVERRATE_CNT port) (R.IPORT_OVERRATE port))
  else
    match runs with
    | none => .drop (d.portDrop port (R.IPORT_GEOM_CNT port) (R.IPORT_GEOM port))
    | some r => .take r

/-- A UDP datagram of a flow (R534 to R541). -/
def State.flowPacket (s : State) (port : Nat) (vid : Option Nat) (g : Datagram) : State :=
  let rtp := readRtp g.payload
  let hits := match rtp with
    | some p => s.dev.flowsMatching port vid g p.pt
    | none => []
  match rtp, hits with
  | some p, e :: rest =>
    let s := s.upd (fun d => if rest = [] then d else (d.bump (R.IPORT_SHADOW_CNT port) rest.length).portFlag port (R.IPORT_SHADOW port))
    match s.dev.chan? clsIngest e.2.1 with
    | none => s
    | some ch =>
      match s.dev.checkPacket port e.2.1 e.2.2 ch.record g.size p with
      | .drop d => { s with dev := d }
      | .take runs =>
        let s := s.upd (fun d => d.acceptPacket e.2.1 e.2.2 ch.record g.size p)
        let slot := ((s.dev.ing? e.2.1).frames.find? (fun f => f.ts == p.ts)).map (·.slot)
        let s := match slot with
          | some k => s.writeRuns e.2.1 k (iDepth ch.record) runs
          | none => s
        s.upd (fun d => d.completeFrames e.2.1 ch.record)
  | _, _ => s.upd (fun d => d.portDrop port (R.IPORT_NOMATCH_CNT port) (R.IPORT_NOMATCH port))

/-- An ARP request for the port's address (R526). -/
def arpRequest (ip : Nat) (b : List Byte) : Bool :=
  decide (28 ≤ b.length) && beAt b 0 2 == 1 && beAt b 2 2 == 0x0800 && byteAt b 4 == 6 && byteAt b 5 == 4 &&
    beAt b 6 2 == 1 && beAt b 24 4 == ip

/-- INGEST_FRAME_RECEIVE: an Ethernet frame on a port in INGEST mode, without its frame check (R526). A port in TABLE
mode carries none of these. -/
def execIngestFrameReceive (port : Nat) (bytes : List Byte) (s : State) : Out :=
  if 8 ≤ port then .refused .noSuchUnit
  else if s.dev.on (R.IPORT_TABLE port) then .next s
  else
    let s := s.upd (fun d => (d.bump (R.IPORT_RX_PKTS port) 1).bump (R.IPORT_RX_BYTES port) bytes.length)
    let bad := s.upd (fun d => d.portDrop port (R.IPORT_PARSE_CNT port) (R.IPORT_PARSE port))
    match readEther bytes with
    | none => .next bad
    | some e =>
      if e.etype = 0x0806 then
        if arpRequest (s.dev.get (R.IPORT_IP_ADDR port)) e.body then
          .next (s.upd (fun d => d.send (.arpReply port (slice e.body 8 6) (slice e.body 14 4))))
        else .next bad
      else if e.etype ≠ 0x0800 then .next bad
      else
        match readDatagram e.body with
        | none => .next bad
        | some g => .next (if g.dport = 319 ∨ g.dport = 320 then s else s.flowPacket port e.vid g)

/-! ### Readiness (R540, R542, R543, R545, R550) -/

/-- Every row has been decoded, or the channel needs no decoder. -/
def Frame.decoded (f : Frame) (rec : List Byte) : Bool :=
  iMode rec == 0 || (List.range (iHeight rec)).all (fun y => decide (y ∈ f.rows))

/-- Members of the part that hold a layer naming the channel whose envelope meets one of their squares (R550). -/
def Dev.frameTakers (d : Dev) (i : Nat) : List Nat :=
  if d.grouped then ((d.tbl.part).filter (fun dev => d.forwardsTo i dev)) else []

/-- Rows of a ready frame go to the members that need them, one message for each row (R549, R550). -/
def State.forwardFrame (s : State) (i : Nat) (c : Chan) (f : Frame) : State :=
  match s.dev.surf? (frameKey i f.slot) with
  | none => s
  | some u =>
    let body (y : Nat) : List Byte :=
      leBytes 4 (c.handle clsIngest i) ++ leBytes 4 f.ts ++ leBytes 2 y ++ leBytes 2 1 ++ List.replicate 4 0 ++
        s.surfGet u (y * u.pitch) (4 * u.w)
    s.upd (fun d => (d.frameTakers i).foldl (fun d dev =>
      (List.range u.h).foldl (fun (d : Dev) y => d.sendTable dev (tableBytes 5 (body y))) d) d)

/-- A complete frame becomes the newest ready frame (R540, R542, R543). -/
def Dev.frameReady (d : Dev) (i : Nat) (rec : List Byte) (f : Frame) : Dev :=
  let c := d.ing? i
  if c.newest.any (fun r => !tsAfter f.ts r.ts) then (d.putIng i (c.close f.ts)).frameLost rec false
  else
    let lost := if c.newest.isSome && !c.taken then 1 else 0
    let c := c.close f.ts
    let d := d.putIng i { c with
      newest := some ⟨f.slot, c.serial + 1, f.ts⟩
      serial := c.serial + 1
      taken := false
      stale := false
      dropped := c.dropped + lost }
    d.bump (R.IPORT_READY_CNT (legPort (legOf rec 0))) 1

/-- FRAME_READY: the oldest frame of a channel that is complete and lies whole in its surface becomes ready. -/
def execFrameReady (chan : Nat) (s : State) : Out :=
  if 512 ≤ chan then .refused .noSuchUnit
  else
    match s.dev.chan? clsIngest chan with
    | none => .next s
    | some ch =>
      match (s.dev.ing? chan).frames.find? (fun f => f.complete && f.decoded ch.record) with
      | none => .next s
      | some f => .next ((s.forwardFrame chan ch f).upd (fun d => d.frameReady chan ch.record f))

/-! ### JPEG XS (R544 to R546) -/

/-- A bit of a decoder's register 0x04 set, its frame closing as incomplete. -/
def Dev.xsFail (d : Dev) (i : Nat) (rec : List Byte) (f : Frame) (flag : Fld) : Dev :=
  let j := iDecoder rec
  let d := (d.bump (R.XSD_XS_ERR_CNT j) 1).flagRaiseOnce flag (696 + j)
  (d.putIng i ((d.ing? i).close f.ts)).frameLost rec true

/-- Rows that a slice holds, as bytes of frame-surface layout. -/
def State.xsRows (s : State) (i : Nat) (rec : List Byte) (f : Frame) (first : Nat) (bytes : List Byte) : State :=
  let n := min (bytes.length / (4 * iWidth rec)) (iHeight rec - first)
  let s := match s.dev.surf? (frameKey i f.slot) with
    | none => s
    | some u => (List.range n).foldl (fun (s : State) k =>
        (s.surfPut u false ((first + k) * u.pitch) (slice bytes (4 * u.w * k) (4 * u.w))).2) s
  s.upd (fun d =>
    let c := d.ing? i
    let rows := (List.range n).map (· + first)
    let upd (g : Frame) : Frame := if g.ts = f.ts then { g with rows := g.rows ++ rows } else g
    let d := d.putIng i { c with frames := c.frames.map upd }
    (d.bump (R.XSD_SLICES (iDecoder rec)) 1).bump (R.XSD_PIXELS (iDecoder rec)) (n * iWidth rec))

/-- XS_SLICE_DECODED: a slice of the oldest frame of a MODE 1 channel whose rows are not all decoded. -/
def execXsSliceDecoded (chan : Nat) (result : XsResult) (s : State) : Out :=
  if 512 ≤ chan then .refused .noSuchUnit
  else
    match s.dev.chan? clsIngest chan with
    | none => .next s
    | some ch =>
      match (s.dev.ing? chan).frames.find? (fun f => !f.decoded ch.record) with
      | none => .next s
      | some f =>
        match result with
        | .rows first bytes => .next (s.xsRows chan ch.record f first bytes)
        | .unsupported => .next (s.upd (fun d => d.xsFail chan ch.record f (R.XSD_XS_UNSUP (iDecoder ch.record))))
        | .failed => .next (s.upd (fun d => d.xsFail chan ch.record f (R.XSD_XS_ERR (iDecoder ch.record))))

/-! ### Time-outs and links (R524, R538, R541) -/

/-- POLICE_WINDOW_END: every leg's byte count restarts. -/
def execPoliceWindowEnd (s : State) : Out :=
  .next (s.upd (fun d =>
    let zero (l : Leg) : Leg := { l with bytes := 0 }
    let chans := d.ing.chans.map (fun (p : Nat × IngChan) => (p.1, { p.2 with legA := zero p.2.legA, legB := zero p.2.legB }))
    { d with ing := { d.ing with chans := chans } }))

/-- LEG_LOST (R541). -/
def execLegLost (chan leg : Nat) (s : State) : Out :=
  onUnit (decide (chan < 512) && decide (leg < 2)) s (fun d =>
    match d.chan? clsIngest chan with
    | none => d
    | some ch =>
      let c := d.ing? chan
      if (leg = 1 && !iLegB ch.record) || (c.leg leg).lost then d
      else
        let d := d.putIng chan (c.putLeg leg { c.leg leg with lost := true })
        (d.flag R.ING_LEG_LOST).raiseLedger 706 (2 ^ R.ING_LEG_LOST.lo) 10)

/-- STALE (R535, R541, R542). -/
def execStale (chan : Nat) (s : State) : Out :=
  onUnit (decide (chan < 512)) s (fun d =>
    match d.chan? clsIngest chan with
    | none => d
    | some _ =>
      let c := d.ing? chan
      if c.stale then d
      else
        let fresh (l : Leg) : Leg := { l with ssrc := none }
        (d.putIng chan { c with stale := true, legA := fresh c.legA, legB := fresh c.legB }).flagRaise R.ING_STALE 705)

/-- INGEST_LINK_CHANGE (R524, R567). -/
def execIngestLinkChange (port : Nat) (up : Bool) (s : State) : Out :=
  onUnit (decide (port < 8)) s (fun d =>
    let d := d.put (R.IPORT_LINK_UP port) (if up then 1 else 0)
    if up then d.sendHello port else d.portFlag port (R.IPORT_LINK_DOWN port))

end Sys2Proof.Machine
end

