-- ==== Sys2Proof/Machine/Clip.lean ====
section
/-! DEFINITION. The clip store and clip channels: drives, formats, packs, lookahead (R551 to R563). -/

namespace Sys2Proof.Machine

/-! ### Drives and the store (R551 to R553, R568) -/

/-- STORE codes and drive STATE codes of R568. -/
def storeNone : Nat := 0
def storeFormatting : Nat := 1
def storeReady : Nat := 2
def storeFailed : Nat := 3
def drvAbsent : Nat := 0
def drvReady : Nat := 2
def drvFailed : Nat := 3
def drvForeign : Nat := 4

def Dev.store (d : Dev) : Nat := d.get R.CLIP_STORE
def mib : Nat := 1048576

/-- A bit of a drive's register 0x04 set (R569). -/
def Dev.driveFlag (d : Dev) (r : Nat) (f : Fld) : Dev := d.flagRaise f (720 + r)

/-- PRESENT follows the drives (R568). -/
def Dev.presentRegs (d : Dev) : Dev := d.put R.CLIP_PRESENT (maskOf (fun r => d.get (R.DRV_STATE r) == drvReady) 8)

/-- CLIPS, FREE_BYTES as the store stands (R568): each stored frame takes whole units of 1 MiB (R557). -/
def Dev.clipRegs (d : Dev) : Dev :=
  let used := d.ing.packs.foldl (fun n (p : Nat × Pack) => n + p.2.frames * p.2.units * mib) 0
  (d.put R.CLIP_CLIPS d.ing.packs.length).put R.CLIP_FREE_BYTES (d.get R.CLIP_CAP_BYTES - used)

/-- Clip writes under way complete ABORTED and leave no clip (R553, R557). -/
def Dev.abortClipWrites (d : Dev) : Dev :=
  d.ing.jobs.foldl (fun (d : Dev) j =>
    let d := { d with ing := { d.ing with jobs := d.ing.jobs.drop 1 } }
    let d := d.settleFirst (fun o => o.kind == .clipWrite j.id && o.queue == j.queue && o.tag == j.tag) stAborted none
    d.flag R.CLIP_WRITE_FAIL) d

/-- The store becomes FAILED (R553). -/
def Dev.failStore (d : Dev) : Dev :=
  if d.store = storeReady ∨ d.store = storeFormatting then
    ((d.put R.CLIP_STORE storeFailed).flagRaise R.CLIP_STORE_FAIL 728).abortClipWrites
  else d

/-- A drive is a member of the store, or of the one being built. -/
def Dev.isMember (d : Dev) (r : Nat) : Bool := (Tab.get? d.ing.members r).isSome

/-- A drive becomes FAILED (R553). -/
def Dev.failDrive (d : Dev) (r : Nat) : Dev :=
  let d := ((d.put (R.DRV_STATE r) drvFailed).driveFlag r (R.DRV_FAILED r)).presentRegs
  if d.isMember r then d.failStore else d

/-- A drive is found on its root port (R551, R553): a member whose serial number differs has been replaced. -/
def Dev.driveFound (d : Dev) (i : DriveInfo) : Dev :=
  let r := i.port
  let d := { d with ing := { d.ing with drives := Tab.set d.ing.drives r i, late := d.ing.late.filter (· ≠ r) } }
  let d := (d.put (R.DRV_LINK_UP r) 1).put (R.DRV_SIZE r) i.sizeBytes
  let replaced := (Tab.get? d.ing.members r).any (fun s => s != i.serial)
  if replaced && (d.store == storeReady || d.store == storeFormatting) then d.failDrive r
  else (d.put (R.DRV_STATE r) (if i.blockBytes = 4096 then drvReady else drvForeign)).presentRegs

/-- No drive answers on a root port. -/
def Dev.driveGone (d : Dev) (r : Nat) : Dev :=
  let d := { d with ing := { d.ing with drives := Tab.erase d.ing.drives r } }
  let d := (d.put (R.DRV_LINK_UP r) 0).put (R.DRV_SIZE r) 0
  if d.isMember r && (d.store == storeReady || d.store == storeFormatting) then d.failDrive r
  else (d.put (R.DRV_STATE r) drvAbsent).presentRegs

/-- RESCAN: every root port is scanned. -/
def Dev.rescan (d : Dev) (drives : List DriveInfo) : Dev :=
  (List.range 8).foldl (fun (d : Dev) r =>
    match drives.find? (fun i => i.port == r) with
    | some i => d.driveFound i
    | none => d.driveGone r) d

def execRescan (drives : List DriveInfo) (s : State) : Out := .next (s.upd (fun d => d.rescan drives))

/-- DRIVE_LINK_UP (R553). -/
def execDriveLinkUp (drive : DriveInfo) (s : State) : Out := onUnit (decide (drive.port < 8)) s (fun d => d.driveFound drive)

/-- DRIVE_LINK_LOSS (R553). -/
def execDriveLinkLoss (port : Nat) (s : State) : Out :=
  onUnit (decide (port < 8)) s (fun d =>
    ((d.put (R.DRV_LINK_UP port) 0).driveFlag port (R.DRV_LINK_DOWN port)).failDrive port)

/-- DRIVE_TIMEOUT (R553): Abort and one retry, then FAILED. -/
def execDriveTimeout (port : Nat) (s : State) : Out :=
  onUnit (decide (port < 8)) s (fun d =>
    let d := ((d.bump (R.DRV_TO_CNT port) 1).bump R.CLIP_CMD_TO_CNT 1).driveFlag port (R.DRV_CMD_TO port)
    if port ∈ d.ing.late then { d with ing := { d.ing with late := d.ing.late.filter (· ≠ port) } }.failDrive port
    else { d with ing := { d.ing with late := port :: d.ing.late } })

/-- Managed capacity over members of these sizes: whole units, equal from each, 32 TiB at most (R552). -/
def managed (sizes : List Nat) : Nat :=
  match sizes with
  | [] => 0
  | a :: t =>
    let n := sizes.length
    min (t.foldl min a / mib) (32 * 2 ^ 40 / (n * mib)) * n * mib

/-- FORMAT: a new store over every READY drive; all earlier content is destroyed (R552). -/
def Dev.format (d : Dev) : Dev :=
  let d := d.abortClipWrites
  let ready := d.ing.drives.filter (fun p => d.get (R.DRV_STATE p.1) == drvReady)
  let d := { d with ing := { d.ing with packs := [], members := ready.map (fun (p : Nat × DriveInfo) => (p.1, p.2.serial)) } }
  let d := (d.put R.CLIP_STORE storeFormatting).put R.CLIP_CAP_BYTES 0
  (d.put R.CLIP_MEMBERS (maskOf (fun r => d.isMember r) 8)).clipRegs

def execFormat (s : State) : Out := .next (s.upd (fun d => d.domWrite 130 Dev.format))

/-- FORMAT_DONE (R552). -/
def execFormatDone (s : State) : Out :=
  .next (s.upd (fun d =>
    if d.store ≠ storeFormatting then d
    else
      let sizes := (d.ing.drives.filter (fun p => d.isMember p.1)).map (fun p => p.2.sizeBytes)
      ((d.put R.CLIP_STORE storeReady).put R.CLIP_CAP_BYTES (managed sizes)).clipRegs.flag R.CLIP_FORMAT_DONE))

/-! ### Packs (R554 to R557) -/

/-- Row pitch of a pack's frames (R255, R556). -/
def packPitch (fmt : Nat) (kamius : Bool) (w : Nat) : Nat := if kamius then 0 else ceilDiv (w * bppOf fmt) 64 * 64

/-- Data length of a frame of a pack (R556). -/
def packFrame (p : List Byte) : Nat :=
  let k := tbit (byteAt p 7) 0
  surfLen (byteAt p 6) k (leAt p 8 2) (leAt p 10 2) (packPitch (byteAt p 6) k (leAt p 8 2))

def packFrames (p : List Byte) : Nat := leAt p 20 4
def packDataOff (p : List Byte) : Nat := 4096 + ceilDiv (packFrames p * 16) 4096 * 4096

/-- Index entry i: OFFSET, LENGTH, FCRC (R555). -/
def packEntry (p : List Byte) (i : Nat) : Nat × Nat × Nat :=
  let o := 4096 + 16 * i
  (leAt p o 8, leAt p (o + 8) 4, leAt p (o + 12) 4)

/-- Extents in rising order do not overlap. -/
def apart : List (Nat × Nat) → Bool
  | a :: b :: t => decide (a.1 + a.2 ≤ b.1) && apart (b :: t)
  | _ => true

/-- PIXFMT, geometry and rate lie in R554. -/
def packRangeOk (p : List Byte) : Bool :=
  let w := leAt p 8 2
  let h := leAt p 10 2
  let num := leAt p 12 4
  let den := leAt p 16 4
  decide (1 ≤ byteAt p 6) && decide (byteAt p 6 ≤ 8) && decide (1 ≤ w) && decide (w ≤ 32768) && decide (1 ≤ h) && decide (h ≤ 32768) &&
    (!tbit (byteAt p 7) 0 || (w % 8 == 0 && h % 8 == 0)) && decide (1 ≤ den) && decide (den ≤ num) && decide (num ≤ 480 * den) &&
    decide (1 ≤ packFrames p) && decide (packFrames p ≤ 16777216)

/-- MAGIC, FORMAT, HCRC, offsets and reserved fields (R554 to R557). Frame lengths are judged where the geometry is. -/
def packFormOk (p : List Byte) : Bool :=
  let n := packFrames p
  let len := leAt p 40 8
  leAt p 0 4 == 0x4B504C43 && leAt p 4 2 == 1 && byteAt p 7 / 2 == 0 && leAt p 24 8 == 4096 && leAt p 32 8 == packDataOff p &&
    len % 4096 == 0 && leAt p 48 4 == crc32 (slice p 0 48) && allZero (slice p 52 4044) &&
    (!packRangeOk p ||
      ((List.range n).all (fun i =>
          let e := packEntry p i
          e.1 % 4096 == 0 && e.2.1 == packFrame p && decide (packDataOff p + e.1 + e.2.1 ≤ len)) &&
        apart (sortBy (fun (e : Nat × Nat) => e.1) ((List.range n).map (fun i => ((packEntry p i).1, (packEntry p i).2.1))))))

/-- A pack as the store keeps it. -/
def packOfBytes (p : List Byte) : Pack :=
  { fmt := byteAt p 6, kamius := tbit (byteAt p 7) 0, w := leAt p 8 2, h := leAt p 10 2, rateNum := leAt p 12 4, rateDen := leAt p 16 4,
    frames := packFrames p, length := packFrame p, fcrcs := (List.range (packFrames p)).map (fun i => (packEntry p i).2.2) }

def entryClip (e : List Byte) : Nat := leAt e 8 4

/-- Bytes that the clip writes under way will take. -/
def Dev.jobBytes (d : Dev) : Nat := d.ing.jobs.foldl (fun n j => n + j.pack.frames * j.pack.units * mib) 0

/-- The second set of checks of a clip write, on its pack (R557). -/
def Dev.packStatus (d : Dev) (e p : List Byte) : Nat :=
  if !packFormOk p || leAt e 24 8 != leAt p 40 8 then stMalformed
  else if !packRangeOk p then stRange
  else if !d.on R.CLIP_WRITE_EN then stLocked
  else if !d.domOn 130 || (Tab.get? d.ing.packs (entryClip e)).isSome || d.ing.jobs.any (fun j => j.id == entryClip e) then stBusy
  else if d.store ≠ storeReady || 65536 ≤ d.ing.packs.length + d.ing.jobs.length ||
      d.get R.CLIP_FREE_BYTES < d.jobBytes + (packOfBytes p).frames * (packOfBytes p).units * mib then stNoCapacity
  else stOk

/-- CLIP_WRITE: its pack is read with it, none where the read fails (R557, R694, R705). -/
def execClipWrite (queue : Nat) (entry : List Byte) (pack : Option (List Byte)) (s : State) : Out :=
  onEntryDev queue entry 0x22 1 true s (fun d =>
    if entryLen entry ≠ 1 || entryHandle entry ≠ 0 || !allZero (slice entry 12 4) then d.answer queue entry stMalformed
    else if entryClip entry = 0 || entryAddr entry % 4096 ≠ 0 then d.answer queue entry stRange
    else
      match pack with
      | none => d.answer queue entry stAborted
      | some p =>
        let st := d.packStatus entry p
        if st ≠ stOk then d.answer queue entry st
        else
          let j : ClipJob := ⟨queue, entryTag entry, entryClip entry, packOfBytes p⟩
          { d with ing := { d.ing with jobs := d.ing.jobs ++ [j] } }.owe ⟨queue, entryTag entry, 0, .clipWrite j.id⟩)

/-- CLIP_WRITE_DONE: the oldest clip write has stored its pack, or met a poisoned flit of the staging area (R557). -/
def Dev.clipWriteDone (d : Dev) (poisoned : Bool) : Dev :=
  match d.ing.jobs with
  | [] => d
  | j :: t =>
    let d := { d with ing := { d.ing with jobs := t, late := [] } }
    let mine (o : Owed) : Bool := o.kind == .clipWrite j.id && o.queue == j.queue && o.tag == j.tag
    if poisoned then (d.settleFirst mine stAborted none).flag R.CLIP_WRITE_FAIL
    else
      let d := { d with ing := { d.ing with packs := Tab.set d.ing.packs j.id j.pack } }
      (d.clipRegs.bump R.CLIP_WRITE_BYTES (j.pack.frames * j.pack.length)).settleFirst mine stOk none

def execClipWriteDone (poisoned : Bool) (s : State) : Out := .next (s.upd (fun d => d.clipWriteDone poisoned))

/-- CLIP_DELETE (R557, R694). -/
def execClipDelete (queue : Nat) (entry : List Byte) (s : State) : Out :=
  onEntryDev queue entry 0x23 1 true s (fun d =>
    let id := entryClip entry
    if entryLen entry ≠ 1 || entryHandle entry ≠ 0 || !allZero (slice entry 12 20) then d.answer queue entry stMalformed
    else if (Tab.get? d.ing.packs id).isNone then d.answer queue entry stRange
    else if !d.domOn 130 || (d.liveOf clsClip).any (fun p => leAt p.2.record 4 4 == id) then d.answer queue entry stBusy
    else ({ d with ing := { d.ing with packs := Tab.erase d.ing.packs id } }.clipRegs).answer queue entry stOk)

/-! ### Clip channels (R558 to R560) -/

def cPolicy (r : List Byte) : Nat := byteAt r 8
def cLoop (r : List Byte) : Bool := tbit (byteAt r 9) 0
def cNlook (r : List Byte) : Nat := byteAt r 10
def cIn (r : List Byte) : Nat := leAt r 12 4
def cOut (r : List Byte) : Nat := leAt r 16 4
def cStart (r : List Byte) : Nat := leAt r 20 8

def Dev.clip? (d : Dev) (i : Nat) : ClipChan := Tab.getD d.ing.clips i {}
def Dev.putClip (d : Dev) (i : Nat) (c : ClipChan) : Dev := { d with ing := { d.ing with clips := Tab.set d.ing.clips i c } }

/-- Key of lookahead surface j of a set of clip channel i. -/
def clipKey (i bank j : Nat) : Nat := clipBase + 128 * i + 64 * bank + j

/-- Index of the first grid point at or after t (R414). -/
def Dev.gridIndex (d : Dev) (t : Int) : Int :=
  let m := ((t - d.gridPhase) * d.den) / (d.num : Int)
  if t ≤ gridPoint d.num d.den d.gridPhase m then m
  else if t ≤ gridPoint d.num d.den d.gridPhase (m + 1) then m + 1 else m + 2

/-- tp(m): the present instant of turn m on the grid in force, ns (R559). -/
def Dev.tp (d : Dev) (m : Nat) : Int :=
  gridPoint d.num d.den d.gridPhase (d.gridIndex d.sched.presNs + (m : Int) - (d.time.turn : Int))

/-- k of R559 for content m. -/
def Dev.clipCount (d : Dev) (r : List Byte) (p : Pack) (m : Nat) : Nat :=
  if cStart r = 0 ∨ m < cStart r then 0
  else if cPolicy r = 1 then m - cStart r
  else ((d.tp m - d.tp (cStart r)) * p.rateNum / ((p.rateDen * 1000000000 : Nat) : Int)).toNat

/-- The frame for a value of k (R559). -/
def clipFrameOf (r : List Byte) (k : Nat) : Nat :=
  let l := cOut r - cIn r + 1
  cIn r + (if cLoop r then k % l else min k (l - 1))

/-- The frame of a clip channel's record for content m (R559). -/
def Dev.clipFrame (d : Dev) (r : List Byte) (p : Pack) (m : Nat) : Nat := clipFrameOf r (d.clipCount r p m)

/-- The first content after m whose k is above that of m. -/
def Dev.nextContent (d : Dev) (r : List Byte) (p : Pack) (m : Nat) : Nat :=
  if m < cStart r then cStart r + 1
  else if cPolicy r = 1 then m + 1
  else
    let k := d.clipCount r p m + 1
    let t := d.tp (cStart r) + ((ceilDiv (k * p.rateDen * 1000000000) p.rateNum : Nat) : Int)
    let n := (d.time.turn : Int) + (d.gridIndex t - d.gridIndex d.sched.presNs)
    max (m + 1) n.toNat

/-- Frames of the contents from m on, in content order, no more than n steps of k. -/
def Dev.framesAhead (d : Dev) (r : List Byte) (p : Pack) : Nat → Nat → List Nat
  | 0, _ => []
  | n + 1, m =>
    let f := d.clipFrame r p m
    if cStart r = 0 then [f]
    else
      let rest := d.framesAhead r p n (d.nextContent r p m)
      f :: rest.filter (· ≠ f)

/-- The first content that no compose window has latched. -/
def Dev.nextLatch (d : Dev) : Nat := if d.sched.phase == .quiet then d.time.turn + 1 else d.time.turn + 2

/-- Frames that the lookahead surfaces are to hold (R560). -/
def Dev.clipWanted (d : Dev) (r : List Byte) (p : Pack) : List Nat := d.framesAhead r p (cNlook r) d.nextLatch

/-- The frame that the next read of a clip channel fetches, and the surface it goes to (R560). -/
def Dev.clipNext (d : Dev) (i : Nat) (p : Pack) : Option (Nat × Nat) :=
  let c := d.clip? i
  let want := d.clipWanted c.inForce p
  let kept := c.ready.filter (fun x => decide (x.1 ∈ want) || c.cur.any (fun y => y.2 == x.2))
  let busy (key : Nat) : Bool := kept.any (fun x => x.2 == key) || c.cur.any (fun y => y.2 == key)
  match want.find? (fun f => !(kept.any (fun x => x.1 == f)) && !(decide (f ∈ c.skipped))) with
  | none => none
  | some f => ((List.range (cNlook c.inForce)).map (clipKey i c.bank)).find? (fun k => !busy k) |>.map (fun k => (f, k))

/-- Read counters: each unit of a frame is read from one member; where a clip lies is not given, so which member
takes its first unit is open. -/
def Dev.countReads (d : Dev) (p : Pack) : Dev :=
  let d := d.bump R.CLIP_READ_BYTES p.length
  let ms : List Nat := d.ing.members.map (·.1)
  if ms = [] then d
  else
    let (v, d) := d.fresh 13
    (List.range p.units).foldl (fun (d : Dev) j =>
      let r := ms.getD ((v + j) % ms.length) 0
      (d.bump (R.DRV_RD_CMDS r) 1).bump (R.DRV_RD_BYTES r) (min mib (p.length - j * mib))) d

/-- A read of a clip channel completes (R560). -/
def State.clipRead (s : State) (i : Nat) (p : Pack) (data : List Byte) : State :=
  match s.dev.clipNext i p with
  | none => s
  | some (f, key) =>
    let s := s.upd (fun d => { d with ing := { d.ing with late := [] } }.countReads p)
    let c := s.dev.clip? i
    let body := slice data 0 p.length
    if crc32 body = p.fcrcs.getD f 0 then
      match s.dev.surf? key with
      | none => s
      | some u =>
        let s := (s.surfPut u false 0 body).2
        s.upd (fun d => d.putClip i { c with ready := (c.ready.filter (fun x => x.2 ≠ key)) ++ [(f, key)], retry := none })
    else if c.retry = some f then
      s.upd (fun d => ((d.putClip i { c with retry := none, skipped := f :: c.skipped }).bump R.CLIP_CRC_ERR_CNT 1).flagRaise R.CLIP_CRC_ERR 730)
    else s.upd (fun d => d.putClip i { c with retry := some f })

/-- CLIP_FRAME_READ: the data that the drives return for a channel's next read. -/
def execClipFrameRead (chan : Nat) (data : List Byte) (s : State) : Out :=
  if 128 ≤ chan then .refused .noSuchUnit
  else
    match s.dev.live? clsClip chan, s.dev.packOf (s.dev.clip? chan).inForce with
    | some _, some p => .next (if s.dev.store = storeReady then s.clipRead chan p data else s)
    | _, _ => .next s

/-! ### At a compose window (R52, R315, R560) -/

/-- Surfaces of a clip channel that neither its set in force nor the set of an update that waits nor its last shown
frame needs return to the pool. -/
def Dev.clipTrim (d : Dev) (i : Nat) : Dev :=
  let c := d.clip? i
  let keep (key : Nat) : Bool :=
    let bank := (key - clipBase) % 128 / 64
    bank == c.bank || c.nextBank == some bank || c.cur.any (fun x => x.2 == key)
  ((d.mem.surfs.map (·.1)).filter (fun k => fillKey clsClip i k && !keep k)).foldl Dev.release d

/-- A record that an update or a create brought takes effect (R52, R560). -/
def Dev.clipApply (d : Dev) (i : Nat) (record : List Byte) : Dev :=
  let c := d.clip? i
  if c.inForce = record ∧ c.nextBank = none then d
  else
    (d.putClip i { c with ready := [], retry := none, skipped := [], inForce := record, bank := c.nextBank.getD c.bank, nextBank := none }).clipTrim i

/-- The frame of content m becomes the one shown, where it is ready; the Bool tells that it is not (R560). -/
def Dev.clipShow (d : Dev) (i m : Nat) : Bool × Dev :=
  let c := d.clip? i
  match d.packOf c.inForce with
  | none => (false, d)
  | some p =>
    if d.store ≠ storeReady then (false, d)
    else
      let f := d.clipFrame c.inForce p m
      let want := d.clipWanted c.inForce p
      let c : ClipChan := { c with skipped := c.skipped.filter (fun x => decide (x ∈ want) || x == f) }
      let d := d.putClip i c
      match c.ready.find? (fun x => x.1 == f) with
      | some x => (false, (d.putClip i { c with cur := some x }).clipTrim i)
      | none => (true, d)

end Sys2Proof.Machine
end

