-- ==== Sys2Proof/Machine/Domains.lean ====
section
/-! DEFINITION. Switched power domains: what is on, what is held, one switch in a quiet interval, power-good failures
(R829 to R833). -/

namespace Sys2Proof.Machine

/-- The synthesizer that a domain powers (R830). -/
def domSyn (j : Nat) : Option Nat :=
  if 45 ≤ j ∧ j < 53 then some (73 + (j - 45))
  else if 55 ≤ j ∧ j < 119 then some (1 + (j - 55))
  else if 119 ≤ j ∧ j < 127 then some (65 + (j - 119))
  else if j = 127 then some 81
  else if j = 128 ∨ j = 129 then some (82 + (j - 128))
  else none

/-- Domains whose power-good failure is a device-level fault (R830). -/
def domVital (j : Nat) : Bool :=
  (decide (36 ≤ j) && decide (j < 44)) || (decide (45 ≤ j) && decide (j < 55)) || j == 127 || (decide (133 ≤ j) && decide (j < 136))

/-- Domains that stay off when they fail (R830). -/
def domStaysOff (j : Nat) : Bool :=
  j == 44 || (decide (119 ≤ j) && decide (j < 127)) || (decide (128 ≤ j) && decide (j < 133))

/-- Domain j's bit in `DOM_ON`. -/
def Dev.putDom (d : Dev) (j : Nat) (b : Bool) : Dev := d.putMap R.PWR_DOM_ON j b

/-- The blocks of a domain start in a block reset (R833). -/
def Dev.domReset (d : Dev) (j : Nat) : Dev :=
  if j = 44 then d.blitReset
  else if 55 ≤ j ∧ j < 119 then d.resetRegs (0x900000 + 0x4000 * (j - 55)) (0x904000 + 0x4000 * (j - 55))
  else if 119 ≤ j ∧ j < 127 then
    (d.resetRegs (0xA01000 + 0x100 * (j - 119)) (0xA01100 + 0x100 * (j - 119))).resetRegs (0xA02000 + 0x100 * (j - 119)) (0xA02100 + 0x100 * (j - 119))
  else if j = 128 ∨ j = 129 then d.resetRegs (0xB01000 + 0x400 * (j - 128)) (0xB01400 + 0x400 * (j - 128))
  else if j = 130 then (d.resetRegs 0xB00000 0xB00040).resetRegs 0xB00080 0xB01000
  else d

/-- A domain's synthesizer locks after power-good, from its stored entry or by a search (R661, R832). -/
def Dev.domLocks (d : Dev) (j : Nat) : Dev :=
  match domSyn j with
  | some s => d.putSyn s (if d.on (R.SYNS_VALID s 0) then synLocking else synSearch)
  | none => d

/-- A switched domain comes on. -/
def Dev.domUp (d : Dev) (j : Nat) : Dev :=
  let d := ((d.domReset j).putDom j true).domLocks j
  if 55 ≤ j ∧ j < 119 then (List.range 4).foldl (fun (d : Dev) i => d.portUp (4 * (j - 55) + i)) d else d

/-- A switched domain goes off. -/
def Dev.domDown (d : Dev) (j : Nat) : Dev :=
  let d := if 55 ≤ j ∧ j < 119 then (List.range 4).foldl (fun (d : Dev) i => d.portDown (4 * (j - 55) + i)) d else d
  let d := match domSyn j with
    | some s => d.putSyn s synOff
    | none => d
  d.putDom j false

/-- A domain is wanted on: not requested off, or held, and not failed. -/
def Dev.domWanted (d : Dev) (j : Nat) : Bool :=
  !decide (j ∈ d.pwr.failed) && (!domSwitchable j || !d.mapBit R.PWR_DOM_OFF_REQ j || d.domHeld j)

/-- The switch of a quiet interval (R832): the lowest domain to come on, else the lowest to go off. -/
def Dev.domSwitch (d : Dev) : Dev :=
  let counted (d : Dev) : Dev := (d.bump R.PWR_DOM_SW_CNT 1).raise 936
  match firstIdx (fun j => d.domWanted j && !d.domOn j) 136 0 with
  | some j => counted (d.domUp j)
  | none =>
    match firstIdx (fun j => domSwitchable j && !d.domWanted j && d.domOn j) 136 0 with
    | some j => counted (d.domDown j)
    | none => d

/-- A request bit for a domain that is not switched off on request discards the write whole (R831). -/
def Dev.offReqWrite (d : Dev) (word value : Nat) : Dev :=
  if (List.range 32).any (fun k => tbit value k && !domSwitchable (32 * word + k)) then d.wrange 0x1000060
  else d.put (R.PWR_DOM_OFF_REQ word) value

/-- DOM_OFF_REQ_WRITE (R831). -/
def execDomOffReqWrite (req word : Nat) (value : BitVec 32) (s : State) : Out :=
  onUnit (decide (req < 33) && decide (word < 5)) s (fun d => if fullAccess req then d.offReqWrite word value.toNat else d)

/-- What follows when domain j fails power-good (R830). -/
def Dev.domFails (d : Dev) (j : Nat) : Dev :=
  let d := (d.flag R.PWR_DOM_ERR).raiseLedger 937 (2 ^ 6) 16
  if domVital j then d.deviceFault suFaulted
  else if j < 32 then d.cupFlag j (R.CUP_HUB_FAULT j)
  else if j < 36 then d.cupFlag (8 * (j - 32)) (R.CUP_HUB_FAULT (8 * (j - 32)))
  else if 55 ≤ j ∧ j < 119 then (List.range 4).foldl (fun (d : Dev) i => d.goFatal (4 * (j - 55) + i) 2) d
  else
    let d := if j = 128 ∨ j = 129 then (List.range 4).foldl (fun (d : Dev) i =>
        if d.isMember (4 * (j - 128) + i) then d.failDrive (4 * (j - 128) + i) else d) d else d
    let d := { d with pwr := { d.pwr with failed := if j ∈ d.pwr.failed then d.pwr.failed else j :: d.pwr.failed } }
    d.domDown j

/-- DOM_ERR (R830): a switched domain loses power-good, or fails to report it in time. -/
def execDomErr (domain : Nat) (s : State) : Out := onUnit (decide (domain < 136)) s (fun d => d.domFails domain)

/-- Request bits of domains that something now needs are cleared (R833). -/
def Dev.domNeed (d : Dev) (js : List Nat) : Dev :=
  js.foldl (fun (d : Dev) j => if d.mapBit R.PWR_DOM_OFF_REQ j then d.putMap R.PWR_DOM_OFF_REQ j false else d) d

/-- A create that needs domains: it proceeds where they are on, waits for them where they are coming on, and is BUSY
where one has failed (R833). -/
def Dev.onDomains (d : Dev) (q : Nat) (e : List Byte) (js : List Nat) (k : Dev → Dev) : Dev :=
  if js.all d.domOn then k d
  else if js.any (fun j => decide (j ∈ d.pwr.failed)) then d.answer q e stBusy
  else (d.domNeed js).owe ⟨q, entryTag e, entryHandle e, .admission e⟩

end Sys2Proof.Machine
end

