-- ==== Sys2Proof/Machine/Channels.lean ====
section
/-! DEFINITION. Creation, update, re-admission and destruction of channels: the queue entries of R693 that do so
(R102 to R115, R142, R166, R284, R437, R529 to R533, R558, R581, R589, R608). -/

namespace Sys2Proof.Machine

/-! ### Descriptors (R691 to R693) -/

/-- Bytes 4 to n − 1 of a record as a descriptor carries them, in a record of m bytes. -/
def carried (e : List Byte) (n m : Nat) : List Byte :=
  List.replicate 4 0 ++ slice e 8 (n - 4) ++ List.replicate (m - n) 0

/-- LEN is len, and the bytes from `used` to the descriptor's end are 0. -/
def framed (e : List Byte) (len used : Nat) : Bool := entryLen e == len && allZero (slice e used (32 * len - used))

/-- The same for a create, which carries HANDLE 0. -/
def createFramed (e : List Byte) (len used : Nat) : Bool := framed e len used && entryHandle e == 0

/-- A record with its handle. -/
def withHandle (r : List Byte) (h : Nat) : List Byte := putLe r 0 4 h

/-- The channel of a handle, of any class, that function f may name (R21, R103). -/
def Dev.target? (d : Dev) (f h : Nat) : Option Chan :=
  match d.handle? h with
  | some c => if c.mayName f then some c else none
  | none => none

/-- A power of two from lo to hi. -/
def powerIn (v lo hi : Nat) : Bool := decide (lo ≤ v) && decide (v ≤ hi) && v == 2 ^ Nat.log2 v

/-- A result of a request: status, reason, handle, and the block after it. -/
structure Answer where
  status : Nat
  reason : Nat
  handle : Nat
  dev : Dev

/-- An entry completes now with a handle and a reason. -/
def Dev.finish (d : Dev) (q : Nat) (e : List Byte) (handle status reason : Nat) : Dev :=
  d.complete q (entryTag e) handle status reason none

/-- An admission request waits while a shed is pending (R144, R184). -/
def Dev.orWait (d : Dev) (q : Nat) (e : List Byte) (k : Dev → Dev) : Dev :=
  if d.adm? = admShedding then d.owe ⟨q, entryTag e, entryHandle e, .admission e⟩ else k d

/-- A request's admission with a BUSY check of its class, which comes after LOCKED (R23). -/
def Dev.admitWith (d : Dev) (r : Request) (cycle busy full : Bool) : Nat × Nat × Dev :=
  match d.preAdmit r false false with
  | some (st, rs) =>
    if st = stRange ∨ st = stLocked ∨ !busy then d.admitStake r cycle full else (stBusy, 0, d.admFail r stBusy rs 0 0)
  | none => if busy then (stBusy, 0, d.admFail r stBusy 0 0 0) else d.admitStake r cycle full

/-- The admitted channel takes its index: its handle, and the block with the stake in force. -/
def Dev.created (d : Dev) (r : Request) : Nat × Dev :=
  let (h, d) := d.create r.cls r.idx r.chan
  let d := d.modChan r.cls r.idx (fun c => { c with record := withHandle c.record h })
  (h, d.admPass r h)

/-! ### Freeing (R108, R111, R261, R587) -/

/-- A channel becomes FREE: its index and its memory. -/
def Dev.freeChan (d : Dev) (cls idx : Nat) : Dev :=
  let d := { d with ch := { d.ch with chans := Tab.erase d.ch.chans (chanKey cls idx) } }
  let keys := (d.mem.surfs.map (·.1)).filter (fun k => fillKey cls idx k)
  if cls = clsLayer then ((d.put (R.LAY_HANDLE idx) 0).put (R.LAY_STATE idx) 0).put (R.LAY_DEMOTED idx) 0
  else if cls = clsSurface then d.release idx
  else if cls = clsIngest then
    keys.foldl Dev.release { d with ing := { d.ing with chans := Tab.erase d.ing.chans idx } }
  else if cls = clsClip then
    keys.foldl Dev.release { d with ing := { d.ing with clips := Tab.erase d.ing.clips idx } }
  else if cls = clsSense then ((d.put (R.SCH_HANDLE idx) 0).put (R.SCH_STATE idx) 0).put (R.SCH_DEMOTED idx) 0
  else d

/-- Every RETIRING channel becomes FREE as a compose window closes. -/
def Dev.reapRetired (d : Dev) : Dev :=
  let gone := d.ch.chans.filter (fun p => p.2.retiring && p.1 / 2 ^ 20 != clsBlit)
  (gone.foldl (fun (d : Dev) p => d.freeChan (p.1 / 2 ^ 20) (p.1 % 2 ^ 20)) d).blitReap

/-! ### Surfaces named (R110) -/

/-- Surfaces of this device that a layer names. -/
def Dev.layerSurfaces (d : Dev) (c : Chan) : List Nat :=
  if lKind c.record = 0 then (if c.home.isNone then [lSource c.record] else [])
  else if lKind c.record = 2 ∧ lTargetDev c.record = d.ownIdx then [lSource c.record, lTargetB c.record]
  else []

/-- Surfaces that a blit command names. -/
def cmdSurfaces (cmd : List Byte) : List Nat := [bSrc cmd, bDst cmd]

/-- A LIVE layer, ingest or blit channel names the surface (R110, R587). Clip and check channels name none. -/
def Dev.surfaceNamed (d : Dev) (h : Nat) : Bool :=
  (d.liveOf clsLayer).any (fun p => decide (h ∈ d.layerSurfaces p.2)) ||
    (d.liveOf clsIngest).any (fun p => iFallback p.2.record == h) ||
    d.blt.chans.any (fun p => match p.2.head with | some c => decide (h ∈ cmdSurfaces c) | none => false) ||
    (match d.blt.cur with | some (_, c) => decide (h ∈ cmdSurfaces c) | none => false)

/-! ### Layers (R142, R284, R325, R693) -/

/-- The layer record of a create or an update. -/
def layerRecord (e : List Byte) : List Byte := carried e 96 128

/-- The part of the footprint on the board lies in the envelope (R142). -/
def Dev.inEnvelope (d : Dev) (r : List Byte) : Bool :=
  let b := lInter r ⟨0, 0, d.geo.width, d.geo.height⟩
  let v := lEnv r
  lKind r == 2 || b.w == 0 || b.h == 0 ||
    (decide (v.x ≤ b.x) && decide (v.y ≤ b.y) && decide (b.x + b.w ≤ v.x + v.w) && decide (b.y + b.h ≤ v.y + v.h))

/-- Checks of R284, R285 and R142 that come before admission. -/
def Dev.layerPre (d : Dev) (f : Nat) (r : List Byte) : Nat :=
  if !layerFormOk r then stMalformed
  else if !d.layerHandlesOk f r then stBadHandle
  else if !d.layerRangeOk r || !d.inEnvelope r then stRange
  else stOk

/-- The two contents that follow a change of a capture layer are damaged where it writes (R325). -/
def Dev.captureDamage (d : Dev) (idx : Nat) (r : List Byte) : Dev :=
  if lKind r = 2 then { d with comp := { d.comp with capTurns := Tab.set d.comp.capTurns idx 2 } } else d

/-- A layer's registers (R338). -/
def Dev.layerRegs (d : Dev) (idx h : Nat) (r : List Byte) : Dev :=
  ((((d.put (R.LAY_HANDLE idx) h).put (R.LAY_STATE idx) 1).put (R.LAY_DEMOTED idx) 0).put (R.LAY_KIND idx) (lKind r)).put (R.LAY_Z idx) (lZ r)

/-- Where a request for a layer comes from: function, privilege, queue and tag of its descriptor, and the other
device that received it, if one did. -/
structure Asked where
  f : Nat
  priv : Bool
  queue : Nat
  tag : Nat
  home : Option Nat

/-- A layer admitted and created, its checks but those of admission passed. -/
def Dev.layerMake (d : Dev) (a : Asked) (r : List Byte) : Answer :=
  let idx := d.freeIndex clsLayer
  let i := idx.getD 0
  let c : Chan := d.withCharges ⟨0, false, a.f, 0, lRung r, false, 0, a.queue, a.tag, [], [], 0, 0, 0, 0, 0, a.home, false⟩ r
  let req : Request := ⟨clsLayer, i, c, none, 0, a.priv⟩
  let (st, rs, d) := d.admitStake req (d.layerCycle none r) (idx.isNone || d.captureFull none r)
  if st ≠ stOk then ⟨st, rs, 0, d⟩
  else
    let (h, d) := d.created req
    let d := d.modChan clsLayer i (fun c => { c with record := putLe c.record 96 8 c.cseq })
    ⟨stOk, 0, h, ((d.layerRegs i h r).captureDamage i r).markLayer r⟩

/-- An update changes what the stake was admitted on (R142). -/
def Dev.layerRaises (d : Dev) (c : Chan) (r : List Byte) : Bool :=
  let n := d.withCharges c r
  lRung r != c.rung || lEnv r != c.env || decide (c.fetch < n.fetch) || n.mask != c.mask || decide (c.cap < n.cap) ||
    n.capMask != c.capMask

/-- The fields of a record but RUNG, as a change of them alters composed pixels (R395). -/
def pixelFields (r : List Byte) : List Byte := slice r 4 3 ++ slice r 8 88

/-- The fields of a CAPTURE record whose change R325 names: rectangle, targets, conversion. -/
def captureFields (r : List Byte) : List Byte := slice r 5 1 ++ slice r 8 12 ++ slice r 24 12 ++ slice r 68 4

/-- A layer takes a new record, with the damage of it. -/
def Dev.layerPut (d : Dev) (i : Nat) (c : Chan) (r : List Byte) : Dev :=
  let r := putLe (withHandle r (c.handle clsLayer i)) 96 8 c.cseq
  let d := d.modChan clsLayer i (fun c => { c with record := r })
  let d := d.put (R.LAY_Z i) (lZ r)
  let d := if pixelFields c.record = pixelFields r then d else (d.markLayer c.record).markLayer r
  if captureFields c.record = captureFields r then d else d.captureDamage i r

/-- A layer's update, its form and its own handle checked. -/
def Dev.layerChange (d : Dev) (a : Asked) (i : Nat) (c : Chan) (r : List Byte) : Answer :=
  let h := c.handle clsLayer i
  let bad (st : Nat) : Answer := ⟨st, 0, h, d⟩
  let range := if a.home.isSome then stOk else d.layerPre a.f r
  if range = stBadHandle then bad stBadHandle
  else if range ≠ stOk ∨ lKind r ≠ lKind c.record ∨ c.weight < d.layerWeight r then bad stRange
  else if (lRung r = 0 ∧ !a.priv) ∨ lRung r < d.bestRung c.owner then bad stLocked
  else
    let cycle := d.layerCycle (some i) r
    let full := d.captureFull (some i) r
    if d.layerRaises c r then
      let n := d.withCharges c r
      let req : Request := ⟨clsLayer, i, { n with rung := lRung r, queue := a.queue, tag := a.tag, record := c.record }, some c, h, a.priv⟩
      let (st, rs, d) := d.admitStake req cycle full
      if st ≠ stOk then ⟨st, rs, h, d⟩
      else ⟨stOk, 0, h, (d.put (R.LAY_DEMOTED i) 0).layerPut i c r⟩
    else if cycle then ⟨stCycle, 0, h, d.raise 75⟩
    else if full then bad stNoCapacity
    else ⟨stOk, 0, h, d.layerPut i c r⟩

/-- A layer begins to retire: its damage, its stake, its bindings. It is FREE at once unless the compose window
of a content that uses it is open (R108). -/
def Dev.layerRetire (d : Dev) (i : Nat) (c : Chan) : Dev :=
  let d := d.modChan clsLayer i (fun c => { c with retiring := true })
  let d := ((d.put (R.LAY_STATE i) 2).markLayer c.record).unbind (c.handle clsLayer i)
  let d := { d with comp := { d.comp with capTurns := Tab.erase d.comp.capTurns i } }
  let d := d.stakeGone
  if d.sched.phase == .compose && (Tab.get? d.comp.latched i).isSome then d else d.freeChan clsLayer i

/-! ### Layers of a table (R114, R115) -/

/-- Placeholder index of a request of this device that the ruler has not answered. -/
def asksRuler : Nat := 64

/-- The ruler has created a layer: it stands at once on a device alone, or waits for the other shares. -/
def Dev.layerOffer (d : Dev) (a : Asked) (dev : Nat) (ans : Answer) (e : Option (Nat × List Byte)) : Dev :=
  let i := handleIdx ans.handle
  match d.chan? clsLayer i with
  | none => d
  | some c =>
    let d := d.modChan clsLayer i (fun c => { c with offered := true })
    let d := d.decree [.offer dev ans.handle c.cseq a.f a.priv c.record]
    let d := { d with tbl := { d.tbl with offers := d.tbl.offers ++ [⟨dev, a.queue, a.tag, i, ans.handle, d.tbl.part⟩] } }
    match e with
    | some (q, e) => d.owe ⟨q, entryTag e, ans.handle, .table i⟩
    | none => d

/-- LAYER_CREATE decided. -/
def Dev.layerCreateD (q : Nat) (e : List Byte) (d : Dev) : Dev :=
  let r := layerRecord e
  let f := queueFn q
  let st := if createFramed e 4 100 then d.layerPre f r else stMalformed
  if st ≠ stOk then d.answer q e st
  else d.orWait q e (fun d =>
    let a : Asked := ⟨f, rung0Queue q, q, entryTag e, none⟩
    if d.rules then
      let ans := d.layerMake a r
      if ans.status ≠ stOk then ans.dev.finish q e 0 ans.status ans.reason
      else if d.grouped then ans.dev.layerOffer a d.ownIdx ans (some (q, e))
      else ans.dev.owe ⟨q, entryTag e, ans.handle, .change clsLayer (handleIdx ans.handle) none⟩
    else if d.table = tsDivided then d.finish q e 0 stBusy 0
    else (d.owe ⟨q, entryTag e, 0, .table asksRuler⟩).tellRuler (.layerCreate d.ownIdx q (entryTag e) f (rung0Queue q) r))

/-- LAYER_CREATE (R283 to R285, R144, R693). -/
def execLayerCreate (queue : Nat) (entry : List Byte) (s : State) : Out :=
  onEntryDev queue entry 0x10 1 true s (fun d => d.layerCreateD queue entry)

/-- LAYER_UPDATE decided. -/
def Dev.layerUpdateD (q : Nat) (e : List Byte) (d : Dev) : Dev :=
  let r := layerRecord e
  let f := queueFn q
  if !framed e 4 100 || !layerFormOk r then d.answer q e stMalformed
  else match (if handleCls (entryHandle e) = clsLayer then d.target? f (entryHandle e) else none) with
    | none => d.answer q e stBadHandle
    | some c =>
      let i := handleIdx (entryHandle e)
      let a : Asked := ⟨f, rung0Queue q, q, entryTag e, none⟩
      let go (d : Dev) : Dev :=
        if d.rules || d.table = tsDivided then
          let ans := d.layerChange a i c r
          if ans.status ≠ stOk then ans.dev.finish q e ans.handle ans.status ans.reason
          else
            let d := ans.dev.owe ⟨q, entryTag e, ans.handle, .change clsLayer i (some c)⟩
            match d.chan? clsLayer i with
            | some n => d.decree [.layer ((n.home).getD d.ownIdx) ans.handle n.owner n.record]
            | none => d
        else
          let st := d.layerPre f r
          if st ≠ stOk then d.answer q e st
          else (d.owe ⟨q, entryTag e, entryHandle e, .table asksRuler⟩).tellRuler (.layerUpdate d.ownIdx q (entryTag e) (entryHandle e) r)
      if d.layerRaises c r then d.orWait q e go else go d

/-- LAYER_UPDATE (R142, R284, R693). -/
def execLayerUpdate (queue : Nat) (entry : List Byte) (s : State) : Out :=
  onEntryDev queue entry 0x11 1 true s (fun d => d.layerUpdateD queue entry)

/-! ### Ingest channels (R529 to R533) -/

/-- A leg's fields obey R530, and its port is in INGEST mode (R525). -/
def Dev.legOk (d : Dev) (l : List Byte) : Bool :=
  let pt := byteAt l 1
  let port := leAt l 12 2
  decide (legPort l < 8) && d.objNat 0x5021 (1 + legPort l) 0 == 0 && decide (96 ≤ pt) && decide (pt ≤ 127) &&
    port != 319 && port != 320 && (decide (legEntry l < 64) || legEntry l == 0xFFFF)

/-- The rules of R528 to R531. -/
def Dev.ingestRangeOk (d : Dev) (r : List Byte) : Bool :=
  let n := leAt r 16 4
  let m := leAt r 20 4
  let a := legOf r 0
  decide (4 ≤ iNbuf r) && decide (iNbuf r ≤ 8) && decide (iDecoder r < 8) && (iMode r == 1 || iDecoder r == 0) &&
    iWidth r % 2 == 0 && decide (2 ≤ iWidth r) && decide (iWidth r ≤ 8192) && decide (1 ≤ iHeight r) && decide (iHeight r ≤ 8192) &&
    (iDepth r == 10 || iDepth r == 12) && decide (byteAt r 13 ≤ 7) && decide (0 < m) && decide (m ≤ n) && decide (n ≤ 480 * m) &&
    decide (1 ≤ iKbps r) && decide (iKbps r ≤ 400000000) && d.legOk a &&
    (if iLegB r then d.legOk (legOf r 1) else allZero (legOf r 1)) &&
    (iMode r == 0 || iDecoder r / 4 == legPort a / 4) &&
    (iFallback r == 0 || match d.surf? (handleIdx (iFallback r)) with | some u => u.w == iWidth r && u.h == iHeight r | none => false)

/-- Flow-table entries in use on a port. -/
def Dev.entriesUsed (d : Dev) (port : Nat) : List Nat := (d.flowEntries port).map (·.1)

/-- A leg names a flow-table entry in use, or both legs name one. -/
def Dev.entryBusy (d : Dev) (r : List Byte) : Bool :=
  let a := legOf r 0
  let b := legOf r 1
  let used (l : List Byte) : Bool := legEntry l != 0xFFFF && decide (legEntry l ∈ d.entriesUsed (legPort l))
  used a || (iLegB r && (used b || (legPort a == legPort b && legEntry a != 0xFFFF && legEntry a == legEntry b)))

/-- The lowest entry of a port that is free and not in a list. -/
def Dev.freeEntry (d : Dev) (port : Nat) (but : List Nat) : Option Nat :=
  firstIdx (fun k => !decide (k ∈ d.entriesUsed port) && !decide (k ∈ but)) 64 0

/-- The record with each leg's ENTRY filled; none where a port has no free entry. -/
def Dev.fillEntries (d : Dev) (r : List Byte) : Option (List Byte) :=
  let a := legOf r 0
  let b := legOf r 1
  let named (l : List Byte) (port : Nat) : List Nat := if legEntry l ≠ 0xFFFF ∧ legPort l = port then [legEntry l] else []
  let ea := if legEntry a = 0xFFFF then d.freeEntry (legPort a) (if iLegB r then named b (legPort a) else []) else some (legEntry a)
  match ea with
  | none => none
  | some ea =>
    let r := putLe r 46 2 ea
    if !iLegB r then some r
    else
      let eb := if legEntry b = 0xFFFF then d.freeEntry (legPort b) (if legPort a = legPort b then [ea] else []) else some (legEntry b)
      eb.map (fun k => putLe r 62 2 k)

/-- n surfaces of one geometry allocated under keys from `base`; none where one finds no run. -/
def Dev.allocateAll (d : Dev) (base fmt : Nat) (kamius : Bool) (w h pitch mask : Nat) : Nat → Option Dev
  | 0 => some d
  | n + 1 => (d.allocateAll base fmt kamius w h pitch mask n).bind (fun d => d.allocate (base + n) fmt kamius w h pitch mask)

/-- A create waits for the zero fill of its surfaces (R260). -/
def Dev.awaitFill (d : Dev) (q : Nat) (e : List Byte) (h key : Nat) : Dev :=
  { d with mem := { d.mem with filling := d.mem.filling ++ [key] } }.owe ⟨q, entryTag e, h, .zeroFill key⟩

/-- Domains that an ingest channel needs: those of its legs' ports and of its decoder. -/
def ingestDomains (r : List Byte) : List Nat :=
  (legPorts r).map (119 + ·) ++ (if iMode r = 1 then [119 + iDecoder r] else [])

/-- INGEST_CREATE decided. -/
def Dev.ingestCreateD (q : Nat) (e : List Byte) (d : Dev) : Dev :=
  let r := carried e 64 64
  let f := queueFn q
  if !createFramed e 3 68 || decide (1 < iMode r) || byteAt r 5 / 2 != 0 || byteAt r 15 != 0 ||
      bits (leAt r 34 2) 15 13 != 0 || (iLegB r && bits (leAt r 50 2) 15 13 != 0) then d.answer q e stMalformed
  else if iFallback r != 0 && !d.surfNamed f (iFallback r) then d.answer q e stBadHandle
  else if !d.ingestRangeOk r then d.answer q e stRange
  else d.onDomains q e (ingestDomains r) (fun d => d.orWait q e (fun d =>
    let idx := d.freeIndex clsIngest
    let i := idx.getD 0
    let filled := d.fillEntries r
    let r' := filled.getD r
    let fmt := if iDepth r = 10 then 0x10 else 0x11
    let room := d.allocateAll (ingestBase + 8 * i) fmt false (iWidth r) (iHeight r) (ceilDiv (iWidth r * bppOf fmt) 64 * 64) (byteAt r 14) (iNbuf r)
    let c : Chan := { gen := 0, owner := f, rung := byteAt r 13, queue := q, tag := entryTag e, record := r', stake := r' }
    let req : Request := ⟨clsIngest, i, c, none, 0, rung0Queue q⟩
    let (st, rs, d) := d.admitWith req false (d.entryBusy r) (idx.isNone || filled.isNone || room.isNone)
    if st ≠ stOk then
      let d := if st = stNoCapacity ∧ room.isNone then d.bump R.MEM_ALLOC_FAIL 1 else d
      d.finish q e 0 st rs
    else
      let surfs := match room with | some x => x.mem.surfs | none => d.mem.surfs
      let (h, d) := { d with mem := { d.mem with surfs := surfs } }.created req
      ((d.putIng i {}).flowRegs).awaitFill q e h (ingestBase + 8 * i)))

/-- INGEST_CREATE (R529 to R533, R693). -/
def execIngestCreate (queue : Nat) (entry : List Byte) (s : State) : Out :=
  onEntryDev queue entry 0x12 1 true s (fun d => d.ingestCreateD queue entry)

/-! ### Clip channels (R558 to R562) -/

/-- The clip record of a descriptor. -/
def clipRecord (e : List Byte) : List Byte := carried e 32 32

/-- Reserved parts of a clip record are 0. -/
def clipFormOk (r : List Byte) : Bool := byteAt r 9 / 2 == 0 && allZero (slice r 29 3)

/-- The rules of R558. -/
def Dev.clipRangeOk (d : Dev) (r : List Byte) : Bool :=
  match d.packOf r with
  | none => false
  | some p =>
    decide (cPolicy r ≤ 1) && decide (4 ≤ cNlook r) && decide (cNlook r ≤ 64) && decide (cIn r < p.frames) &&
      decide (cIn r ≤ cOut r) && decide (cOut r < p.frames) && decide (byteAt r 28 ≤ 7)

/-- The lookahead surfaces of a clip record in a bank of channel i. -/
def Dev.lookahead (d : Dev) (i bank : Nat) (r : List Byte) : Option Dev :=
  match d.packOf r with
  | none => none
  | some p =>
    d.allocateAll (clipKey i bank 0) p.fmt p.kamius p.w p.h
      (if p.kamius then p.w / 8 * (64 * bppOf p.fmt) else ceilDiv (p.w * bppOf p.fmt) 64 * 64) (byteAt r 11) (cNlook r)

/-- CLIP_CREATE decided. -/
def Dev.clipCreateD (q : Nat) (e : List Byte) (d : Dev) : Dev :=
  let r := clipRecord e
  if !createFramed e 2 36 || !clipFormOk r then d.answer q e stMalformed
  else if !d.clipRangeOk r then d.answer q e stRange
  else d.onDomains q e [130] (fun d => d.orWait q e (fun d =>
    let idx := d.freeIndex clsClip
    let i := idx.getD 0
    let room := d.lookahead i 0 r
    let c : Chan := { gen := 0, owner := queueFn q, rung := byteAt r 28, queue := q, tag := entryTag e, record := r, stake := r }
    let req : Request := ⟨clsClip, i, c, none, 0, rung0Queue q⟩
    let (st, rs, d) := d.admitStake req false (idx.isNone || room.isNone)
    if st ≠ stOk then
      let d := if st = stNoCapacity ∧ room.isNone then d.bump R.MEM_ALLOC_FAIL 1 else d
      d.finish q e 0 st rs
    else
      let surfs := match room with | some x => x.mem.surfs | none => d.mem.surfs
      let (h, d) := { d with mem := { d.mem with surfs := surfs } }.created req
      (d.putClip i {}).awaitFill q e h (clipKey i 0 0)))

/-- CLIP_CREATE (R558, R562, R693). -/
def execClipCreate (queue : Nat) (entry : List Byte) (s : State) : Out :=
  onEntryDev queue entry 0x13 1 true s (fun d => d.clipCreateD queue entry)

/-- Zeros in the surfaces of a clip channel's bank (R260). -/
def State.zeroBank (s : State) (i bank : Nat) : State :=
  (s.dev.mem.surfs.filter (fun p => decide (clipKey i bank 0 ≤ p.1) && decide (p.1 < clipKey i bank 0 + 64))).foldl
    (fun (s : State) p => s.zeroSurface p.2) s

/-- CLIP_UPDATE decided. An update that still waits for its window gives way to a later one, with its surfaces. -/
def State.clipUpdateD (q : Nat) (e : List Byte) (s : State) : State :=
  let r := clipRecord e
  let f := queueFn q
  let d := s.dev
  let say (d : Dev) : State := { s with dev := d }
  if !framed e 2 36 || !clipFormOk r then say (d.answer q e stMalformed)
  else match (if handleCls (entryHandle e) = clsClip then d.target? f (entryHandle e) else none) with
    | none => say (d.answer q e stBadHandle)
    | some c =>
      if !d.clipRangeOk r then say (d.answer q e stRange)
      else if d.adm? = admShedding then say (d.orWait q e id)
      else
        let i := handleIdx (entryHandle e)
        let k := d.clip? i
        let bank := 1 - k.bank
        let keys := (d.mem.surfs.map (·.1)).filter (fun x => decide (clipKey i bank 0 ≤ x) && decide (x < clipKey i bank 0 + 64))
        let freed := keys.foldl Dev.release d
        let room := freed.lookahead i bank r
        let r' := withHandle r (entryHandle e)
        let n : Chan := { c with rung := byteAt r 28, queue := q, tag := entryTag e, record := r', stake := r' }
        let req : Request := ⟨clsClip, i, n, some c, entryHandle e, rung0Queue q⟩
        let (st, rs, d) := d.admitStake req false room.isNone
        if st ≠ stOk then
          let d := if st = stNoCapacity then d.bump R.MEM_ALLOC_FAIL 1 else d
          say (d.finish q e (entryHandle e) st rs)
        else
          let surfs := match room with | some x => x.mem.surfs | none => d.mem.surfs
          let d := { d with mem := { d.mem with surfs := surfs } }.putClip i { k with nextBank := some bank }
          (say (d.owe ⟨q, entryTag e, entryHandle e, .change clsClip i (some c)⟩)).zeroBank i bank

/-- CLIP_UPDATE (R558, R560, R693). -/
def execClipUpdate (queue : Nat) (entry : List Byte) (s : State) : Out :=
  onEntry queue entry 0x14 1 true s (State.clipUpdateD queue entry)

/-! ### Blit channels (R581, R589) -/

/-- Reserved parts of a blit record, KIND, MODE and NCLIP. -/
def blitRecordForm (r : List Byte) : Bool :=
  decide (byteAt r 4 ≤ 1) && bkMode r != 3 && byteAt r 5 / 4 == 0 && decide (byteAt r 6 ≤ 8) && byteAt r 7 == 0 &&
    allZero (slice r 28 4)

/-- The rules of R581 and R589. -/
def blitRecordRange (r : List Byte) : Bool :=
  let n := byteAt r 6
  (if bkMode r = 0 then n == 0 else decide (1 ≤ n)) && (bkClips r).all (fun c => decide (1 ≤ c.w) && decide (1 ≤ c.h)) &&
    allZero (slice r (32 + 8 * n) (64 - 8 * n)) &&
    (if bkOneshot r then allZero (slice r 8 20)
     else leAt r 8 8 % 4096 == 0 && powerIn (leAt r 16 4) 16 65536 && leAt r 20 8 % 8 == 0)

/-- A ONESHOT create that fails returns the room reserved for its command (R693). -/
def Dev.blitRefuse (d : Dev) (q : Nat) (e : List Byte) (oneshot : Bool) (st : Nat) : Dev :=
  let c := d.queueRing q
  let d := if oneshot then d.put (R.CQ_RESV c) (d.get (R.CQ_RESV c) - 1) else d
  d.answer q e st

/-- BLIT_CREATE decided. -/
def Dev.blitCreateD (q : Nat) (e : List Byte) (d : Dev) : Dev :=
  let r := carried e 96 96
  let oneshot := bkOneshot r
  let cmd := slice e 128 64
  let form := entryHandle e == 0 && blitRecordForm r && allZero (slice e 100 28) &&
    (if oneshot then entryLen e == 6 && leAt cmd 4 4 == 0 && tbit (byteAt cmd 0) 7 else entryLen e == 4)
  if !form then d.blitRefuse q e oneshot stMalformed
  else if !blitRecordRange r then d.blitRefuse q e oneshot stRange
  else if 44 ∈ d.pwr.failed then d.blitRefuse q e oneshot stBusy
  else d.onDomains q e [44] (fun d => match d.freeIndex clsBlit with
    | none => d.blitRefuse q e oneshot stNoCapacity
    | some i =>
      let (h, d) := d.create clsBlit i { gen := 0, owner := queueFn q, queue := q, tag := entryTag e, record := r }
      let d := d.modChan clsBlit i (fun c => { c with record := withHandle c.record h })
      let b : BlitChan := { queue := q, tag := entryTag e, head := if oneshot then some (putLe cmd 4 4 h) else none }
      let d := { d with blt := { d.blt with chans := Tab.set d.blt.chans i b } }
      let d := (((d.put (R.BCH_HANDLE i) h).put (R.BCH_STATE i) 1).put (R.BCH_KIND i) (if oneshot then 1 else 0)).put (R.BCH_CONS i) 0
      (d.put (R.BCH_WAIT i) 0).blitRings.finish q e h stOk 0)

/-- BLIT_CREATE (R581, R589, R693). -/
def execBlitCreate (queue : Nat) (entry : List Byte) (s : State) : Out :=
  onEntryDev queue entry 0x15 (if byteAt entry 8 = 1 then 2 else 1) true s (fun d => d.blitCreateD queue entry)

/-! ### Sense channels (R606, R608) -/

/-- The rules of R608. -/
def Dev.senseRangeOk (d : Dev) (r : List Byte) : Bool :=
  let g := senseRegion r
  decide (1 ≤ g.w) && decide (1 ≤ g.h) && decide (g.x + g.w ≤ d.geo.width) && decide (g.y + g.h ≤ d.geo.height) &&
    sRing r % 4096 == 0 && powerIn (sEntries r) 64 65536 && sPiAddr r != 0 && sPiAddr r % 8 == 0 &&
    decide (1 ≤ sMax r) && decide (sMax r ≤ 256) && decide (byteAt r 7 ≤ 7)

/-- SENSE_CREATE decided. -/
def Dev.senseCreateD (q : Nat) (e : List Byte) (d : Dev) : Dev :=
  let r := carried e 64 64
  if !createFramed e 3 68 || sPlanes r == 0 || decide (3 < sPlanes r) || byteAt r 5 / 4 != 0 || !allZero (slice r 38 26) then
    d.answer q e stMalformed
  else if !d.senseRangeOk r then d.answer q e stRange
  else d.orWait q e (fun d =>
    let idx := d.freeIndex clsSense
    let i := idx.getD 0
    let c : Chan := { gen := 0, owner := queueFn q, rung := byteAt r 7, queue := q, tag := entryTag e, record := r, stake := r }
    let req : Request := ⟨clsSense, i, c, none, 0, rung0Queue q⟩
    let (st, rs, d) := d.admitStake req false idx.isNone
    if st ≠ stOk then d.finish q e 0 st rs
    else
      let (h, d) := d.created req
      let d := ((((d.put (R.SCH_HANDLE i) h).put (R.SCH_STATE i) 1).put (R.SCH_DEMOTED i) 0).put (R.SCH_PI i) 0).put (R.SCH_CI i) 0
      d.senseRefresh.finish q e h stOk 0)

/-- SENSE_CREATE (R606, R608, R693). -/
def execSenseCreate (queue : Nat) (entry : List Byte) (s : State) : Out :=
  onEntryDev queue entry 0x16 1 true s (fun d => d.senseCreateD queue entry)

/-! ### Surfaces and checks (R254 to R260, R437) -/

/-- SURFACE_CREATE decided. -/
def Dev.surfaceCreateD (q : Nat) (e : List Byte) (d : Dev) : Dev :=
  let r := carried e 24 32
  if !createFramed e 1 28 || !surfReservedOk r then d.answer q e stMalformed
  else if !surfRangeOk r then d.answer q e stRange
  else match d.freeIndex clsSurface with
    | none => d.answer q e stNoCapacity
    | some i =>
      let pitch := surfPitch r
      match d.allocate i (recFmt r) (recKamius r) (recWidth r) (recHeight r) pitch (recStacks r) with
      | none => (d.bump R.MEM_ALLOC_FAIL 1).answer q e stNoCapacity
      | some d =>
        let size := match d.surf? i with | some u => u.size | none => 0
        let r := putLe (putLe r 12 4 pitch) 24 8 size
        let (h, d) := d.create clsSurface i { gen := 0, owner := queueFn q, queue := q, tag := entryTag e, record := r }
        let d := d.modChan clsSurface i (fun c => { c with record := withHandle c.record h })
        d.awaitFill q e h i

/-- SURFACE_CREATE (R254 to R260, R693). -/
def execSurfaceCreate (queue : Nat) (entry : List Byte) (s : State) : Out :=
  onEntryDev queue entry 0x17 1 true s (fun d => d.surfaceCreateD queue entry)

/-- Fields of a check record (R437). -/
def kMode (r : List Byte) : Nat := byteAt r 4
def kCode (r : List Byte) : Bool := tbit (byteAt r 5) 0
def kRepaint (r : List Byte) : Bool := tbit (byteAt r 5) 1
def kPeriod (r : List Byte) : Nat := leAt r 6 2
def kRect (r : List Byte) : Rect := ⟨leAt r 8 2, leAt r 10 2, leAt r 12 2, leAt r 14 2⟩

/-- CHECK_CREATE decided. -/
def Dev.checkCreateD (q : Nat) (e : List Byte) (d : Dev) : Dev :=
  let r := carried e 20 32
  let g := kRect r
  if !createFramed e 1 24 || decide (1 < kMode r) || byteAt r 5 / 4 != 0 then d.answer q e stMalformed
  else if kPeriod r = 0 ∨ g.w = 0 ∨ g.h = 0 ∨ d.geo.width < g.x + g.w ∨ d.geo.height < g.y + g.h then d.answer q e stRange
  else match d.freeIndex clsCheck with
    | none => d.answer q e stNoCapacity
    | some i =>
      let (h, d) := d.create clsCheck i { gen := 0, owner := queueFn q, queue := q, tag := entryTag e, record := r }
      let d := d.modChan clsCheck i (fun c => { c with record := withHandle c.record h })
      let d := { d with comp := { d.comp with
        checks := Tab.erase d.comp.checks i
        skips := d.comp.skips.filter (· ≠ i)
        learned := d.comp.learned.filter (· ≠ i) } }
      d.finish q e h stOk 0

/-- CHECK_CREATE (R437, R693). -/
def execCheckCreate (queue : Nat) (entry : List Byte) (s : State) : Out :=
  onEntryDev queue entry 0x18 1 true s (fun d => d.checkCreateD queue entry)

/-- SURFACE_ZERO_FILL_DONE (R260, R275): the zeros of the oldest create that waits are in place, and it completes. -/
def execSurfaceZeroFillDone (s : State) : Out :=
  match s.dev.mem.filling with
  | [] => .next s
  | key :: rest =>
    let own := fillOwner key
    let s := (s.dev.mem.surfs.filter (fun p => fillKey own.1 own.2 p.1)).foldl (fun (s : State) p => s.zeroSurface p.2) s
    .next (s.upd (fun d =>
      { d with mem := { d.mem with filling := rest } }.settle (fun (o : Owed) => o.kind == OwedKind.zeroFill key) stOk none))

/-! ### DESTROY and READMIT (R108 to R110, R166) -/

/-- A channel of a class other than layer begins to retire. It is FREE when a compose window closes. -/
def Dev.retire (d : Dev) (cls idx : Nat) (c : Chan) : Dev :=
  if cls = clsBlit then
    let waits := match Tab.get? d.blt.chans idx with | some b => b.head.isSome | none => false
    let ring := d.queueRing c.queue
    let d := if waits && bkOneshot c.record then d.put (R.CQ_RESV ring) (d.get (R.CQ_RESV ring) - 1) else d
    let d := { d with blt := { d.blt with chans := Tab.adjust d.blt.chans idx (fun b => { b with head := none }) } }
    d.blitRetire idx
  else
    let d := d.modChan cls idx (fun c => { c with retiring := true })
    if cls = clsIngest then d.stakeGone.flowRegs
    else if cls = clsClip then d.stakeGone
    else if cls = clsSense then ((d.put (R.SCH_STATE idx) 2).stakeGone).senseRefresh
    else d

/-- DESTROY decided. -/
def Dev.destroyD (q : Nat) (e : List Byte) (d : Dev) : Dev :=
  let h := entryHandle e
  let f := queueFn q
  let cls := handleCls h
  let i := handleIdx h
  if !framed e 1 8 then d.answer q e stMalformed
  else match d.target? f h with
    | none => d.answer q e stBadHandle
    | some c =>
      if cls = clsTable then d.answer q e stLocked
      else if cls = clsSurface ∧ d.surfaceNamed h then d.answer q e stBusy
      else if cls ≠ clsLayer then (d.retire cls i c).answer q e stOk
      else if d.table = tsDivided then d.answer q e stBusy
      else if d.rules then
        ((d.layerRetire i c).decree [.gone h]).owe ⟨q, entryTag e, h, .change clsLayer i (some c)⟩
      else (d.owe ⟨q, entryTag e, h, .table asksRuler⟩).tellRuler (.layerDestroy d.ownIdx q (entryTag e) h)

/-- DESTROY (R108 to R110, R587, R693). -/
def execDestroy (queue : Nat) (entry : List Byte) (s : State) : Out :=
  onEntryDev queue entry 0x02 1 true s (fun d => d.destroyD queue entry)

/-- READMIT decided. -/
def Dev.readmitD (q : Nat) (e : List Byte) (d : Dev) : Dev :=
  let h := entryHandle e
  let cls := handleCls h
  let i := handleIdx h
  let rung := byteAt e 8
  if !framed e 1 9 then d.answer q e stMalformed
  else match (if cls = clsLayer ∨ cls = clsIngest ∨ cls = clsClip ∨ cls = clsSense then d.target? (queueFn q) h else none) with
    | none => d.answer q e stBadHandle
    | some c =>
      if 7 < rung then d.answer q e stRange
      else d.orWait q e (fun d =>
        let n : Chan := { c with rung := rung, queue := q, tag := entryTag e }
        let req : Request := ⟨cls, i, n, some c, h, rung0Queue q⟩
        let (st, rs, d) := d.admitStake req false false
        if st ≠ stOk then d.finish q e h st rs
        else
          let at_ : Nat := if cls = clsLayer then 7 else if cls = clsIngest then 13 else if cls = clsClip then 28 else 7
          let d := d.modChan cls i (fun c => { c with record := putLe c.record at_ 1 rung, stake := putLe c.stake at_ 1 rung })
          if cls = clsLayer then
            ((d.put (R.LAY_DEMOTED i) 0).markLayer c.record).owe ⟨q, entryTag e, h, .change clsLayer i (some c)⟩
          else if cls = clsClip then d.owe ⟨q, entryTag e, h, .change clsClip i (some c)⟩
          else if cls = clsSense then
            let d := d.put (R.SCH_DEMOTED i) 0
            let d := { d with sns := { d.sns with contacts := d.sns.contacts.map (fun (k : Contact) =>
              if k.owner = some (i, h) then { k with told := if c.demoted then false else k.told } else k) } }
            d.finish q e h stOk 0
          else d.finish q e h stOk 0)

/-- READMIT (R166, R693). -/
def execReadmit (queue : Nat) (entry : List Byte) (s : State) : Out :=
  onEntryDev queue entry 0x03 1 true s (fun d => d.readmitD queue entry)

/-! ### Requests that waited for a recomputation (R184) -/

/-- An admission request that waited is decided. -/
def State.decideEntry (s : State) (q : Nat) (e : List Byte) : State :=
  match entryOp e with
  | 0x03 => s.upd (Dev.readmitD q e)
  | 0x10 => s.upd (Dev.layerCreateD q e)
  | 0x11 => s.upd (Dev.layerUpdateD q e)
  | 0x12 => s.upd (Dev.ingestCreateD q e)
  | 0x13 => s.upd (Dev.clipCreateD q e)
  | 0x14 => s.clipUpdateD q e
  | 0x15 => s.upd (Dev.blitCreateD q e)
  | 0x16 => s.upd (Dev.senseCreateD q e)
  | _ => s

/-- Every request that waited, in order of arrival (R144). -/
def State.decideWaiting (s : State) : State :=
  if s.dev.adm? = admShedding then s
  else
    let waits := s.dev.q.owed.filterMap (fun o => match o.kind with | .admission e => some (o.queue, e) | _ => none)
    let s := s.upd (fun d => { d with q := { d.q with
      owed := d.q.owed.filter (fun o => match o.kind with | .admission _ => false | _ => true) } })
    waits.foldl (fun (s : State) w => s.decideEntry w.1 w.2) s

end Sys2Proof.Machine
end

