-- ==== Sys2Proof/Machine/Comp.lean ====
section
/-! DEFINITION. Composing a patch, culling, blending, capture write-back, rectangle checks; the rest of the pips:
deals, steal attempts, failures, plan rebuilds (R185 to R217, R281, R286 to R289, R309 to R330, R437 to R441). -/

namespace Sys2Proof.Machine

/-! ### Which layers meet a patch (R286 to R289, R312 to R314) -/

/-- The order of blending: ascending Z, and among equal Z the higher CSEQ first (R288). -/
def blendKey (r : List Byte) : Nat := lZ r * 2 ^ 64 + (2 ^ 64 - 1 - lCseq r)

/-- Latched drawing layers that meet a rectangle, in the order of blending, by index. -/
def Dev.layersOver (d : Dev) (p : Rect) : List (Nat × Latch) :=
  sortBy (fun (x : Nat × Latch) => blendKey x.2.record)
    (d.comp.latched.filter (fun (x : Nat × Latch) => lDraws x.2.record && lMeets x.2.record p))

/-- A latched SOURCE layer has a frame. -/
def Dev.sourced (d : Dev) (l : Latch) : Bool := (l.src.bind d.surf?).isSome

/-- A layer covers a patch (R312). -/
def Dev.covers (d : Dev) (p : Rect) (l : Latch) : Bool :=
  let r := l.record
  lVisible r && !lFlag r 6 && lOpacity r == 0xFFFF && lKeyMode r == 0 &&
    (lOpaque r || (lKind r == 1 && lFillA r == 0xFFFF) ||
      (lKind r == 0 && !lFlag r 5 && (match l.src.bind d.surf? with | some u => !hasAlpha u.fmt | none => false))) &&
    (lKind r == 1 || d.sourced l) && (lInter r p == p)

/-- Adjacent layers of equal Z (R289). -/
def zTies : List (Nat × Latch) → Nat
  | a :: b :: t => (if lZ a.2.record = lZ b.2.record then 1 else 0) + zTies (b :: t)
  | _ => 0

/-- Layers not fetched on a patch, and layers that are blended, in order (R287, R313, R316). -/
def Dev.cullSplit (d : Dev) (p : Rect) (ls : List (Nat × Latch)) : List (Nat × Latch) × List (Nat × Latch) :=
  let shown (x : Nat × Latch) : Bool := lVisible x.2.record && (lKind x.2.record == 1 || d.sourced x.2)
  if d.on R.COMP_CULL_EN then
    let below := ((ls.zipIdx.filter (fun (x : (Nat × Latch) × Nat) => d.covers p x.1.2)).map (fun (x : (Nat × Latch) × Nat) => x.2)).foldl max 0
    let gone (x : (Nat × Latch) × Nat) : Bool :=
      decide (x.2 < below) || !lVisible x.1.2.record || lOpacity x.1.2.record == 0
    let z := ls.zipIdx
    ((z.filter gone).map (·.1), ((z.filter (fun x => !gone x)).map (·.1)).filter shown)
  else ([], ls.filter shown)

/-! ### Blending (R309 to R311) -/

/-- A value held to the top of a lane, and whether it clipped. -/
def laneMin (v : Nat) : Nat × Bool := (min v laneMax, decide (laneMax < v))

/-- One layer blended onto an accumulator pixel, and whether a lane clipped (R310). -/
def blendPix (r : List Byte) (c : Lanes) (acc : Pix) : Pix × Bool :=
  let a := mul c.alpha (lOpacity r)
  let by_ := if lPremult r then lOpacity r else a
  let t := 0xFFFF - a
  let lane (v old : Nat) : Nat × Bool := laneMin (mul v by_ + (if lFlag r 6 then old else mul old t))
  let x := lane c.c0 acc.r
  let y := lane c.c1 acc.g
  let z := lane c.c2 acc.b
  (⟨x.1, y.1, z.1, a + mul acc.a t⟩, x.2 || y.2 || z.2)

/-- A board pixel lies in a layer's footprint (R286). -/
def lHolds (r : List Byte) (x y : Nat) : Bool :=
  decide (lDstX r ≤ x) && decide ((x : Int) < lDstX r + lDstW r) && decide (lDstY r ≤ y) && decide ((y : Int) < lDstY r + lDstH r)

/-- A board pixel composed from layers in order, and whether a blend clipped (R281, R309). -/
def State.composePixel (s : State) (ls : List Latch) (x y : Nat) : Pix × Bool :=
  ls.foldl (fun (acc : Pix × Bool) l =>
    if lHolds l.record x y then
      let n := blendPix l.record (s.layerPixel l x y) acc.1
      (n.1, acc.2 || n.2)
    else acc) (⟨0, 0, 0, 0⟩, false)

/-- Kamius blocks that a layer reads for a patch, counted with their errors (R271). -/
def State.kamCount (s : State) (l : Latch) (p : Rect) : State :=
  match l.src.bind s.dev.surf? with
  | none => s
  | some u =>
    if u.kamius then
      let bl := u.blocksMeeting (s.readRect l p)
      s.upd (fun d => d.kamRead bl.length (s.kamErrors u bl))
    else s

/-- What composing a patch counts (R289, R310, R313, R314, R342). -/
def Dev.composeCount (d : Dev) (p : Rect) (all culled work : List (Nat × Latch)) (sat : Bool) : Dev :=
  let d := if sat then (d.bump R.COMP_SAT_PATCHES 1).flagRaiseOnce R.COMP_SAT 400 else d
  let ties := zTies all
  let d := if ties = 0 then d
    else
      let d := d.bump R.COMP_Z_SHADOW ties
      if d.on R.COMP_ZTIE_EV then d.flagRaiseOnce R.COMP_ZTIE 401 else d.flag R.COMP_ZTIE
  let d := d.bump R.COMP_CULL_LPX (culled.foldl (fun n (x : Nat × Latch) => n + (lInter x.2.record p).area) 0)
  let note (d : Dev) (k : Nat) : Dev :=
    if k ∈ d.comp.blended then d else { d with comp := { d.comp with blended := k :: d.comp.blended } }
  let d := culled.foldl (fun (d : Dev) (x : Nat × Latch) => note (d.bump (R.LAY_CULL_CNT x.1) 1) (64 + x.1)) d
  work.foldl (fun (d : Dev) (x : Nat × Latch) => note (d.bump (R.LAY_PATCH_CNT x.1) 1) x.1) d

/-- Layer-pixels that a patch takes. -/
def lpxOf (p : Rect) (work : List (Nat × Latch)) : Nat := work.foldl (fun n (x : Nat × Latch) => n + (lInter x.2.record p).area) 0

/-- A patch composed: its accumulator pixels and layer-pixels, none where a fetch met poison (R185, R250, R318). -/
def State.compose (s : State) (k : Nat) : Option (List Pix × Nat) × State :=
  let p := s.dev.patchRect k
  let all := s.dev.layersOver p
  let (culled, work) := s.dev.cullSplit p all
  if work.any (fun (x : Nat × Latch) => lKind x.2.record == 0 && s.layerPoisoned x.2 p) then (none, s)
  else
    let out := p.pixels.map (fun (q : Nat × Nat) => s.composePixel (work.map (·.2)) q.1 q.2)
    let s := work.foldl (fun (s : State) (x : Nat × Latch) => if lKind x.2.record = 0 then s.kamCount x.2 p else s) s
    (some (out.map (·.1), lpxOf p work), s.upd (fun d => d.composeCount p all culled work (out.any (·.2))))

/-! ### Write-back (R319 to R321, R326, R329, R330) -/

/-- CAPTURE layers of the content whose buffers this device writes. -/
def Dev.captures (d : Dev) : List Latch :=
  if d.on R.COMP_CAP_EN then
    (d.comp.latched.filter (fun (x : Nat × Latch) =>
      lKind x.2.record == 2 && lTargetDev x.2.record == d.get R.PUSH_DEV_INDEX)).map (·.2)
  else []

/-- The buffer that a content is written to (R319). -/
def captureBuffer (r : List Byte) (content : Nat) : Nat :=
  if lTargetB r ≠ 0 ∧ content % 2 = 1 then handleIdx (lTargetB r) else handleIdx (lSource r)

/-- The stored word of a composed pixel (R320, R321). -/
def Dev.captureWord (d : Dev) (r : List Byte) (fmt : Nat) (p : Pix) : Nat :=
  let l := d.applyMx (lPostMx r) ⟨p.r, p.g, p.b, p.a⟩
  let t (v : Nat) : Nat := d.applyTable (lTable r) v
  quantPixel fmt (lFlag r 7) ⟨t l.c0, t l.c1, t l.c2, p.a⟩

/-- A patch written to the buffer of a CAPTURE layer (R319): whole blocks of a Kamius target, rows of another. -/
def State.captureWrite (s : State) (l : Latch) (k : Nat) (pix : List Pix) : State :=
  let r := l.record
  let p := s.dev.patchRect k
  let i := lInter r p
  match s.dev.surf? (captureBuffer r s.dev.comp.content) with
  | none => s
  | some u =>
    let bpp := bppOf u.fmt
    let word (x y : Nat) : List Byte :=
      leBytes bpp (s.dev.captureWord r u.fmt (pix.getD ((y - p.y) * p.w + (x - p.x)) ⟨0, 0, 0, 0⟩))
    let tx := lCropX r + ((i.x : Int) - lDstX r).toNat
    let ty := lCropY r + ((i.y : Int) - lDstY r).toNat
    if i.w = 0 ∨ i.h = 0 then s
    else if u.kamius then
      (List.range (i.h / 8)).foldl (fun (s : State) bj => (List.range (i.w / 8)).foldl (fun (s : State) bi =>
        let bs := (List.range 8).flatMap (fun y => (List.range 8).flatMap (fun x => word (i.x + 8 * bi + x) (i.y + 8 * bj + y)))
        let n := (kamEncode u.fmt bs).2.length + 4
        (s.kamWrite u false ((ty / 8 + bj) * u.bw + tx / 8 + bi) bs).2.upd (fun d => d.bump R.COMP_CAP_BYTES n)) s) s
    else
      (List.range i.h).foldl (fun (s : State) j =>
        let bs := (List.range i.w).flatMap (fun x => word (i.x + x) (i.y + j))
        (s.surfPut u false ((ty + j) * u.pitch + tx * bpp) bs).2.upd (fun d => d.bump R.COMP_CAP_BYTES bs.length)) s

/-- An emitted patch is written to every CAPTURE buffer whose rectangle it meets. -/
def State.captureAll (s : State) (k : Nat) (pix : List Pix) : State :=
  (s.dev.captures.filter (fun l => lMeets l.record (s.dev.patchRect k))).foldl (fun (s : State) l => s.captureWrite l k pix) s

/-- A patch that a CAPTURE rectangle meets is left unwritten (R326). -/
def Dev.captureSkip (d : Dev) (k : Nat) : Dev :=
  if d.captures.any (fun l => lMeets l.record (d.patchRect k)) then d.flagRaiseOnce R.COMP_CAP_SKIP 405 else d

/-! ### Rectangle checks (R437 to R441) -/

/-- A pixel as a check packs it (R438). -/
def emitWord (p : Pix) : Nat := p.r + p.g * 2 ^ 20 + p.b * 2 ^ 40
def codeWord (c : Code) : Nat := c.r + c.g * 2 ^ 16 + c.b * 2 ^ 32

/-- The CRC of a patch's part in a check: the intersection and its pixels in row order (R438). -/
def checkCrc (i : Rect) (word : Nat → Nat → Nat) : Nat :=
  crc32 (leBytes 2 i.x ++ leBytes 2 i.y ++ leBytes 2 i.w ++ leBytes 2 i.h ++
    i.pixels.flatMap (fun (q : Nat × Nat) => leBytes 8 (word q.1 q.2)))

/-- A check that has its value: EXPECT is learned or compared (R440). -/
def Dev.checkResult (d : Dev) (i value : Nat) : Dev :=
  match d.live? clsCheck i with
  | none => d
  | some c =>
    let r := putLe (putLe c.record 20 4 value) 28 4 (d.comp.content % 2 ^ 32)
    let d := { d with comp := { d.comp with skips := d.comp.skips.filter (· ≠ i) } }
    if kMode r = 1 ∧ i ∉ d.comp.learned then
      let d := { d with comp := { d.comp with learned := i :: d.comp.learned } }
      d.modChan clsCheck i (fun c => { c with record := putLe r 16 4 value })
    else if leAt r 16 4 = value then d.modChan clsCheck i (fun c => { c with record := r })
    else
      let d := d.modChan clsCheck i (fun c => { c with record := putLe r 24 4 (min (leAt r 24 4 + 1) 0xFFFFFFFF) })
      let d := (d.bump R.PUSH_CHECK_FAIL_CNT 1).flagRaiseOnce R.PUSH_CHECK_FAIL 840
      if kRepaint r then d.markAll (d.patchesIn (kRect r)) else d

/-- An evaluation ends without a value (R439). -/
def Dev.checkSkip (d : Dev) (i : Nat) : Dev :=
  { d with comp := { d.comp with
    checks := Tab.erase d.comp.checks i
    skips := if i ∈ d.comp.skips then d.comp.skips else i :: d.comp.skips } }

/-- A patch reaches the point of a check that awaits it: its CRC enters the value. -/
def Dev.checkPatch (d : Dev) (i k : Nat) (word : Nat → Nat → Nat) : Dev :=
  match Tab.get? d.comp.checks i, d.live? clsCheck i with
  | some (left, v, bad), some c =>
    if k ∈ left then
      let v := v ^^^ checkCrc ((kRect c.record).inter (d.patchRect k)) word
      match left.filter (· ≠ k) with
      | [] => ({ d with comp := { d.comp with checks := Tab.erase d.comp.checks i } }).checkResult i v
      | l => { d with comp := { d.comp with checks := Tab.set d.comp.checks i (l, v, bad) } }
    else d
  | _, _ => d

/-- Checks of one point that await a patch. -/
def Dev.checksAt (d : Dev) (code : Bool) (k : Nat) : List Nat :=
  (d.comp.checks.filter (fun (x : Nat × List Nat × Nat × Bool) => decide (k ∈ x.2.1) &&
    (match d.live? clsCheck x.1 with | some c => kCode c.record == code | none => false))).map (·.1)

/-- The EMIT checks take a patch's accumulator pixels. -/
def Dev.checkEmit (d : Dev) (k : Nat) (pix : List Pix) : Dev :=
  let p := d.patchRect k
  (d.checksAt false k).foldl (fun (d : Dev) i =>
    d.checkPatch i k (fun x y => emitWord (pix.getD ((y - p.y) * p.w + (x - p.x)) ⟨0, 0, 0, 0⟩))) d

/-- The CODE checks take a patch's output codes, in the tile's order. -/
def Dev.checkCode (d : Dev) (k : Nat) (codes : List Code) : Dev :=
  match d.checksAt true k, d.square? (patchSquare k) with
  | [], _ => d
  | is, some q =>
    let at_ := (nativeOrder q (d.patchRect k)).zip codes
    is.foldl (fun (d : Dev) i => d.checkPatch i k (fun x y =>
      match at_.find? (fun (e : (Nat × Nat) × Code) => e.1 == (x, y)) with
      | some e => codeWord e.2
      | none => 0)) d
  | _, none => d

/-- The checks due in a content begin; one over a held patch is skipped at once (R437, R439, R440). -/
def Dev.checksBegin (d : Dev) : Dev :=
  let d := d.comp.checks.foldl (fun (d : Dev) (x : Nat × List Nat × Nat × Bool) => d.checkSkip x.1) d
  if !d.on R.PUSH_CHK_EN then d
  else
    ((d.liveOf clsCheck).filter (fun (p : Nat × Chan) => d.comp.content % kPeriod p.2.record == 0)).foldl (fun (d : Dev) (p : Nat × Chan) =>
      let ks := d.patchesIn (kRect p.2.record)
      if ks.any (fun k => decide (k ∈ d.adm.held)) then d.checkSkip p.1
      else if ks.isEmpty then d.checkResult p.1 0
      else { d with comp := { d.comp with checks := Tab.set d.comp.checks p.1 (ks, 0, false) } }) d

/-- A patch is composed in this content: it is damaged, or a check awaits it (R212, R439). -/
def Dev.wanted (d : Dev) (k : Nat) : Bool :=
  decide (k ∈ d.push.latched) || d.comp.checks.any (fun (x : Nat × List Nat × Nat × Bool) => decide (k ∈ x.2.1))

/-! ### Emission (R185) -/

/-- A patch handed to the calibration unit of its quarter; a damaged one is emitted for the push. -/
def Dev.emit (d : Dev) (k : Nat) (pix : List Pix) : Dev :=
  let q := quarterOf (patchSquare k / 64)
  let d := { d with comp := { d.comp with emit := Tab.set d.comp.emit q (Tab.getD d.comp.emit q [] ++ [Emitted.mk k pix]) } }
  let d := if k ∈ d.push.latched ∧ k ∉ d.push.emitted then { d with push := { d.push with emitted := k :: d.push.emitted } } else d
  (d.checkEmit k pix).plFire

/-- Corrected store errors of a pip (R188). -/
def Dev.pipCorrected (d : Dev) (p n : Nat) : Dev :=
  if n = 0 then d
  else ((d.bump (R.PIP_PIP_CORR_CNT p) n).flag (R.PIP_CORR p)).raiseOnceKey (400000 + p) (96 + p) (2 ^ 1)

/-- PATCH_COMPOSED (R185): a pip finishes all layers of its patch and emits it, and starts its next entry. -/
def execPatchComposed (pip corrected : Nat) (s : State) : Out :=
  if 256 ≤ pip then .refused .noSuchUnit
  else
    match Tab.get? s.dev.pip.work pip with
    | none => .next s
    | some k =>
      if s.dev.get (R.PIP_STATE pip) ≠ pipComposing then .next s
      else
        let s := s.upd (fun d => d.pipCorrected pip corrected)
        let damaged := decide (k ∈ s.dev.push.latched)
        let s := match s.compose k with
          | (none, s) => s
          | (some (pix, lpx), s) =>
            let s := s.upd (fun d => ((d.bump (R.PIP_PATCH_CNT pip) 1).bump (R.PIP_LPX_CNT pip) lpx).bump (R.CUP_PATCHES (cupOf pip)) 1)
            let s := s.upd (fun d => d.emit k pix)
            if damaged then s.captureAll k pix else s
        .next (s.upd (fun d => d.startNext d.wanted pip))

/-! ### Stealing and failure (R191, R194, R201, R214 to R217) -/

/-- STEAL_ATTEMPT (R214 to R217): an idle pip makes its next attempt, its back-off over. -/
def execStealAttempt (pip : Nat) (s : State) : Out :=
  onUnit (decide (pip < 256)) s (fun d => if d.sched.phase == .compose then d.steal d.wanted pip else d)

/-- A quarter loses an active pip that no reserve replaces (R159, R194). -/
def Dev.pipLoss (d : Dev) (q : Nat) : Dev :=
  let n := (d.activePips q).length
  let d := (d.put (R.FAB_ACTIVE q) n).flagRaise R.ADM_PIP_LOSS 72
  let d := d.put (R.ADM_NPIPS q) n
  if d.adm? = admOff ∨ d.adm? = admTrial then d else d.short

/-- A pip fails, with the loss of R194 where its cup has no reserve. -/
def Dev.pipFails (d : Dev) (p : Nat) (handshake : Bool) : Dev :=
  if !d.pipActive p then d
  else
    let d := d.failPip p handshake
    if d.on (R.CUP_RES_AVAIL (cupOf p)) then d
    else (d.cupFlag (cupOf p) (R.CUP_RES_NONE (cupOf p))).pipLoss (pipQuarter p)

/-- PIP_FAIL (R189, R191): the failed pip's cup hub isolates its slot. -/
def execPipFail (pip : Nat) (cause : PipCause) (s : State) : Out :=
  onUnit (decide (pip < 256)) s (fun d => d.pipFails pip (cause == .handshake))

/-- HANDSHAKE_TIMEOUT (R201): the pip on the link fails, or the upstream hub raises the hub fault of R226. -/
def execHandshakeTimeout (link : FabLink) (s : State) : Out :=
  let t (d : Dev) : Dev := d.flag R.FAB_HS_TIMEOUT
  match link with
  | .pip p => onUnit (decide (p < 256)) s (fun d => (t d).pipFails p true)
  | .cupHub c => onUnit (decide (c < 32)) s (fun d => (t d).cupFlag c (R.CUP_HUB_FAULT c))
  | .quarterHub q => onUnit (decide (q < 4)) s (fun d => (t d).cupFlag (8 * q) (R.CUP_HUB_FAULT (8 * q)))
  | .xbar half => onUnit (decide (half < 2)) s (fun d => (t d).cupFlag (16 * half) (R.CUP_HUB_FAULT (16 * half)))

/-! ### The plan and the deal (R193, R207 to R213) -/

/-- Entries of a quarter's plan with their work, in ascending square and patch number, held patches left out (R207). -/
def Dev.planEntries (d : Dev) (q : Nat) : List (Nat × Nat) :=
  ((d.quarterPatches q).filter (fun k => !decide (k ∈ d.adm.held))).map (fun k => (k, d.patchWork k false))

/-- The rebuilt plan of a quarter, by logical pip, and its number of classes (R208). -/
def Dev.rebuilt (d : Dev) (q : Nat) : List (Nat × List Nat) × Nat :=
  let pips := d.activePips q
  let classes := classesOf (d.planEntries q)
  if pips.isEmpty then ([], classes.length) else (pips.zip (buildPlan pips.length classes), classes.length)

/-- PLAN_REBUILD_DONE (R207, R208, R211): a quarter's rebuild completes; the plan waits for the next window. -/
def execPlanRebuildDone (quarter : Nat) (s : State) : Out :=
  onUnit (decide (quarter < 4)) s (fun d =>
    if quarter ∈ d.pip.rebuild then
      let plan := d.rebuilt quarter
      { d with pip := { d.pip with
        rebuild := d.pip.rebuild.filter (· ≠ quarter)
        nextPlan := Tab.set d.pip.nextPlan quarter (plan.2, plan.1) } }
    else d)

/-- Rebuilt plans come into force at the opening of a window (R211, R226). -/
def Dev.planApply (d : Dev) : Dev :=
  let next := d.pip.nextPlan
  let d := next.foldl (fun (d : Dev) (x : Nat × Nat × List (Nat × List Nat)) =>
    let plan := x.2.2.foldl (fun (t : Tab (List Nat)) (e : Nat × List Nat) => Tab.set t e.1 e.2)
      (Tab.drop d.pip.plan (fun p => pipQuarter p == x.1))
    let d := { d with pip := { d.pip with plan := plan } }
    let n := x.2.2.foldl (fun (n : Nat) (e : Nat × List Nat) => n + e.2.length) 0
    let d := (d.put (R.FAB_PLAN_PATCHES x.1) n).put (R.FAB_CLASSES x.1) x.2.1
    (List.range 64).foldl (fun (d : Dev) i => d.put (R.PIP_DEALT (64 * x.1 + i)) (Tab.getD d.pip.plan (64 * x.1 + i) []).length) d) d
  { d with pip := { d.pip with nextPlan := [] } }

/-- One logical pip comes back with the slot that the banker gave it (R193). -/
def Dev.slotApply (d : Dev) (p : Nat) : Dev :=
  let slot := d.slotOf p
  let d := d.put (R.PIP_SLOT p) slot
  let c := cupOf p
  if slot = 15 then
    let d := if d.get (R.PIP_STATE p) = pipFailed then d else (d.orphanPip p).putPip p pipParked
    d.put (R.CUP_ACTIVE c) (clrBit (d.get (R.CUP_ACTIVE c)) (p % 8))
  else
    let d := if d.get (R.PIP_STATE p) = pipFailed then d.putPip p pipParked else d
    d.put (R.CUP_ACTIVE c) (setBit (d.get (R.CUP_ACTIVE c)) (p % 8))

/-- `SLOT_MAP` comes into force in every cup where it has changed (R193, R194). -/
def Dev.mapApply (d : Dev) : Dev :=
  (List.range 32).foldl (fun (d : Dev) c =>
    let new := d.get (R.CUP_SLOT_MAP c)
    let old := d.slotMap c
    if new = old then d
    else
      let before := (d.activePips (c / 8)).length
      let d := { d with pip := { d.pip with map := Tab.set d.pip.map c new } }
      let d := (List.range 8).foldl (fun (d : Dev) i =>
        if bits new (4 * i + 3) (4 * i) = bits old (4 * i + 3) (4 * i) then d else d.slotApply (8 * c + i)) d
      let taken := (List.range 8).any (fun i => bits new (4 * i + 3) (4 * i) != 15 && bits new (4 * i + 3) (4 * i) != bits old (4 * i + 3) (4 * i))
      let d := if taken then d.cupFlag c (R.CUP_SUBST c) else d
      let n := (d.activePips (c / 8)).length
      let d := (d.put (R.FAB_ACTIVE (c / 8)) n).planDirty
      if n < before then d.pipLoss (c / 8) else d) d

/-- The deal of a window (R212): every active pip gets its entries and starts; entries of a pip that has failed or
has no slot go to its cup's orphan pool. -/
def Dev.deal (d : Dev) : Dev :=
  let d := { d with pip := { d.pip with orphans := [], work := [], todo := [] } }
  let d := (List.range 256).foldl (fun (d : Dev) p =>
    let l := Tab.getD d.pip.plan p []
    if d.pipActive p then d.putTodo p l
    else if l.isEmpty then d else (d.putTodo p []).orphan (cupOf p) l) d
  (List.range 256).foldl (fun (d : Dev) p => if d.pipActive p && d.get (R.PIP_STATE p) != pipTrial then d.startNext d.wanted p else d) d

/-- At the compose deadline every pip drops what it has and parks (R213). -/
def Dev.pipsStop (d : Dev) : Dev :=
  let d := (List.range 256).foldl (fun (d : Dev) p =>
    if d.get (R.PIP_STATE p) = pipComposing ∨ d.get (R.PIP_STATE p) = pipStealing then (d.putTodo p []).park p else d.putTodo p []) d
  { d with pip := { d.pip with orphans := [], work := [] } }

end Sys2Proof.Machine
end

