-- ==== Sys2Proof/Machine/Views.lean ====
section
/-! DEFINITION. Registers that are views of objects (R180, R385, R674, R767), and the reset of one block (R838, R847). -/

namespace Sys2Proof.Machine

/-- Objects that are views of register fields, by index × 256 + subindex (R180, R385, R456, R674). -/
def views : List (Nat × Fld) :=
  [(0x400001, R.ADM_VADM_MV), (0x400002, R.ADM_PIN_SHARE), (0x400003, R.ADM_SHED_US),
   (0x501002, R.PUSH_SCR_EN), (0x501003, R.PUSH_SCR_TURNS), (0x501004, R.PUSH_SCR_DIV), (0x501005, R.PUSH_UR_MODE)] ++
  [(0x610001, R.CAL_AMB_EN), (0x503003, R.TB_SLEW_PPM), (0x503004, R.TB_STEP_US)] ++
  (List.range 85).flatMap (fun s =>
    [((0x5040 + s) * 256 + 1, R.SYNS_LOCK_WIN s), ((0x5040 + s) * 256 + 2, R.SYNS_LOCK_N s),
     ((0x5040 + s) * 256 + 3, R.SYNS_REF_MODE s), ((0x5040 + s) * 256 + 4, R.SYNS_HOP_LIVE s)])

/-- The register field that an object is a view of. -/
def viewOf (key : Nat) : Option Fld := (views.find? (fun (v : Nat × Fld) => v.1 == key)).map (fun v => v.2)

/-- Views in [lo, hi) take the committed values of their objects (R767). -/
def Dev.viewsApply (d : Dev) (lo hi : Nat) : Dev :=
  views.foldl (fun (d : Dev) (v : Nat × Fld) =>
    if lo ≤ v.2.addr ∧ v.2.addr < hi then
      match Tab.get? d.bank.objs v.1 with
      | some b => d.put v.2 (beOf b)
      | none => d
    else d) d

/-- Registers that show state which a block reset keeps (R838): channels, the schedule, the slot maps, stacks, ports. -/
def mirrors (a : Nat) : Bool :=
  let o := a % 0x100000
  match a / 0x100000 with
  | 3 => decide (o = 0x10) || decide (0x20 ≤ o ∧ o < 0x90)
  | 4 => decide (0x20 ≤ o ∧ o < 0x40) || (decide (0x1000 ≤ o ∧ o < 0x3000) && decide (o % 0x100 < 8)) ||
      (decide (0x10000 ≤ o ∧ o < 0x20000) && (o % 0x100 == 0 || o % 0x100 == 8))
  | 5 => decide (0x20 ≤ o ∧ o < 0xA0) || (decide (0x1000 ≤ o) && (o % 0x100 == 0 || o % 0x100 == 0x10))
  | 6 => decide (0x1000 ≤ o ∧ o < 0x2000) && decide (o % 0x40 < 0xC)
  | 7 => false
  | 8 => decide (0x18 ≤ o ∧ o < 0x4C) || (decide (0x10000 ≤ o) && (o % 0x100 == 0 || o % 0x100 == 0xC || o % 0x100 == 0x10))
  | 9 => o % 0x1000 == 0x14 || (decide (0x1C ≤ o % 0x1000) && decide (o % 0x1000 < 0x24)) || decide (0x400 ≤ o % 0x1000)
  | 10 => decide (0x1000 ≤ o)
  | 11 => decide (0x1000 ≤ o)
  | 13 => decide (0x1000 ≤ o)
  | _ => false

/-- Blocks of the always-on set, which a block reset keeps (R829, R838), by BAR0 offset shifted right by 20. -/
def alwaysOn (b : Nat) : Bool := b ∈ [0, 1, 14, 16, 17, 18]

/-- A block resets itself (R838): its registers take their reset values but for those that show what is kept, its
held write and its shadows are lost, its views take their objects' values, and what it was serving ends ABORTED. -/
def Dev.blockReset (d : Dev) (b : Nat) : Dev :=
  if alwaysOn b then d
  else if b = 12 then d.blitReset
  else
    let lo := b * 0x100000
    let hi := lo + 0x100000
    let d := { d with
      regs := Tab.drop d.regs (fun k => decide (lo ≤ k / 64) && decide (k / 64 < hi) && !mirrors (k / 64))
      acc := { d.acc with
        posted := Tab.erase d.acc.posted b
        shadow := Tab.drop d.acc.shadow (fun k => k % 32 == b) } }
    let d := d.viewsApply lo hi
    if b = 6 then
      { d with comp := { d.comp with loads := [] } }.settle (fun (o : Owed) => match o.kind with | .store _ _ => true | _ => false) stAborted none
    else d

end Sys2Proof.Machine
end

