-- ==== Sys2Proof/Machine/Hbm.lean ====
section
/-! DEFINITION. The HBM stacks: training, temperature, errors and their readers; and the transfers of the surface
units (R238 to R251, R280, R695). -/

namespace Sys2Proof.Machine

/-- STATE codes of a stack (R279). -/
def stkOff : Nat := 0
def stkTraining : Nat := 1
def stkReady : Nat := 2
def stkRetrain : Nat := 3
def stkDead : Nat := 4

/-- A bit of a stack's register 0x04 set, with its event (R280). -/
def Dev.stkFlag (d : Dev) (k : Nat) (f : Fld) : Dev := d.flagRaise f (384 + k)

/-- A stack enters FATAL (R245, R850): a device-level fault. -/
def Dev.stackFatal (d : Dev) (k : Nat) : Dev :=
  let d := (d.put (R.STK_STATE k) stkDead).stkFlag k (R.STK_FATAL k)
  (d.raise 7).deviceFault suFaulted

/-- A stack becomes due for retraining, or stays due (R239). -/
def Dev.stackDue (d : Dev) (k : Nat) : Dev :=
  if d.on (R.STK_DUE k) then d
  else { d.put (R.STK_DUE k) 1 with mem := { d.mem with dueSince := Tab.set d.mem.dueSince k d.time.now } }

/-- One temperature of a stack (R238, R239, R244). -/
def Dev.stackTemp (d : Dev) (k : Nat) (t : Int) : Dev :=
  if d.get (R.STK_STATE k) = stkOff then d
  else
    let d := d.put (R.STK_TEMP k) (unsigned 8 t)
    let d := if 95 < t then d.stkFlag k (R.STK_HOT k) else d
    let st := d.get (R.STK_STATE k)
    let was := signed 8 (d.get (R.STK_TEMP_TRAIN k))
    let late : Bool := match Tab.get? d.mem.trained k with
      | some at_ => decide (at_ + 16 * perSec ≤ d.time.now)
      | none => false
    if (st = stkReady ∨ st = stkRetrain) ∧ (late || decide (10 ≤ (t - was).natAbs)) = true then d.stackDue k else d

/-- HBM_TEMP_READ (R238): the temperatures of the eight stacks, °C. -/
def execHbmTempRead (temps : List Int) (s : State) : Out :=
  .next (s.upd fun d => ((temps.take 8).zipIdx).foldl (fun (d : Dev) (x : Int × Nat) => d.stackTemp x.2 x.1) d)

/-- The stack that a quiet interval retrains (R240): due longest, ties to the lower number, one whose synthesizer has
a reband pending passed over. -/
def Dev.stackNext (d : Dev) : Option Nat :=
  let able := (List.range 8).filter (fun k => d.on (R.STK_DUE k) && d.get (R.STK_STATE k) == stkReady && !d.on (R.SYNS_PEND (73 + k)))
  (sortBy (fun k => Tab.getD d.mem.dueSince k 0 * 8 + k) able).head?

/-- A retraining starts in a quiet interval (R240, R275). -/
def Dev.retrainStart (d : Dev) : Dev :=
  match d.stackNext with
  | none => d
  | some k =>
    { d.put (R.STK_STATE k) stkRetrain with mem := { d.mem with startTemp := Tab.set d.mem.startTemp k (d.get (R.STK_TEMP k)) } }

/-- A stack has been trained: the temperature and the moment of it (R238, R239). -/
def Dev.stackTrained (d : Dev) (k temp : Nat) : Dev :=
  let d := (((d.put (R.STK_STATE k) stkReady).put (R.STK_FAILS k) 0).put (R.STK_TEMP_TRAIN k) temp).put (R.STK_DUE k) 0
  { d with mem := { d.mem with
    trained := Tab.set d.mem.trained k d.time.now
    dueSince := Tab.erase d.mem.dueSince k } }

/-- RETRAIN_DONE (R241, R242): a retraining ends. -/
def execRetrainDone (stack : Nat) (ok : Bool) (s : State) : Out :=
  onUnit (decide (stack < 8)) s (fun d =>
    if d.get (R.STK_STATE stack) ≠ stkRetrain then d
    else if ok then
      (d.stackTrained stack (Tab.getD d.mem.startTemp stack (d.get (R.STK_TEMP stack)))).bump (R.STK_RETRAIN_CNT stack) 1
    else
      let n := d.get (R.STK_FAILS stack) + 1
      let d := (d.stkFlag stack (R.STK_TRAIN_FAIL stack)).put (R.STK_FAILS stack) n
      if 3 ≤ n then d.stackFatal stack else (d.put (R.STK_STATE stack) stkReady).stackDue stack)

/-- HBM_UNLOCK_TIMEOUT (R243): 1 ms after synthesizer 73 + k lost lock. -/
def execHbmUnlockTimeout (stack : Nat) (s : State) : Out :=
  onUnit (decide (stack < 8)) s (fun d =>
    let st := d.get (R.STK_STATE stack)
    if (st = stkReady ∨ st = stkRetrain) ∧ d.synState (73 + stack) = synUnlocked then d.stackFatal stack else d)

/-- SCRUB_DONE (R251): a patrol scrub pass completes. -/
def execScrubDone (s : State) : Out :=
  .next (s.upd fun d => if d.on R.MEM_SCRUB_EN then d.flagRaise R.MEM_SCRUB_DONE 393 else d)

/-! ### Errors (R247 to R249) -/

/-- A corrected error on a stack (R248). -/
def Dev.corrected (d : Dev) (k : Nat) : Dev :=
  let l := d.time.now :: (Tab.getD d.mem.ces k []).filter (fun t => decide (d.time.now < t + 3600 * perSec))
  let d := { d with mem := { d.mem with ces := Tab.set d.mem.ces k l } }
  let d := ((d.bump (R.STK_CE_CNT k) 1).flag (R.STK_CE k)).raiseOnceKey (500000 + 2 * k) (384 + k) (2 ^ 0)
  if d.get R.MEM_CE_WARN < l.length then (d.flag (R.STK_CE_RATE k)).raiseOnceKey (500001 + 2 * k) (384 + k) (2 ^ 2) else d

/-- An uncorrectable error at an address (R249): the flit reads poisoned from now on. -/
def Dev.uncorrected (d : Dev) (a : Nat) : Dev :=
  let k := stackOf a
  let l := d.time.now :: (Tab.getD d.mem.ues k []).filter (fun t => decide (d.time.now < t + perSec))
  let f := flitOf a
  let d := { d with mem := { d.mem with
    ues := Tab.set d.mem.ues k l
    poison := if f ∈ d.mem.poison then d.mem.poison else f :: d.mem.poison } }
  let d := ((d.put (R.STK_UE_ADDR_LO k) (f * 32 % 2 ^ 32)).put (R.STK_UE_ADDR_HI k) (f * 32 / 2 ^ 32)).bump (R.STK_UE_CNT k) 1
  let d := d.stkFlag k (R.STK_UE k)
  if 16 < l.length then d.stackFatal k else d

/-! ### The surface units (R695, R707) -/

def entryX (e : List Byte) : Nat := leAt e 8 2
def entryY (e : List Byte) : Nat := leAt e 10 2
def entryW (e : List Byte) : Nat := leAt e 12 2
def entryH (e : List Byte) : Nat := leAt e 14 2
def entryPitch (e : List Byte) : Nat := leAt e 24 4

/-- What the checks of R23 give for SURFACE_WRITE and SURFACE_READ (R694 to R696). -/
def Dev.transferStatus (d : Dev) (q : Nat) (e : List Byte) (write : Bool) : Nat :=
  if !framed e 1 28 then stMalformed
  else if !d.surfNamed (queueFn q) (entryHandle e) then stBadHandle
  else
    match d.surf? (handleIdx (entryHandle e)) with
    | none => stBadHandle
    | some u =>
      if entryW e = 0 ∨ entryH e = 0 ∨ entryPitch e < entryW e * bppOf u.fmt ∨ u.w < entryX e + entryW e ∨
          u.h < entryY e + entryH e then stRange
      else if u.kamius && (entryX e % 8 != 0 || entryY e % 8 != 0 || entryW e % 8 != 0 || entryH e % 8 != 0) then stRange
      else if write && decide (entryHandle e ∈ d.captureTargets none) then stBusy
      else stOk

/-- A transfer starts. -/
def Dev.transferStart (d : Dev) (q : Nat) (e : List Byte) (write : Bool) : Dev :=
  let id := (firstIdx (fun i => (Tab.get? d.mem.xfers i).isNone) (d.mem.xfers.length + 1) 0).getD 0
  let x : Xfer := ⟨q, entryTag e, entryHandle e, write, handleIdx (entryHandle e), entryX e, entryY e, entryW e, entryH e,
    entryAddr e, entryPitch e⟩
  { d with mem := { d.mem with xfers := Tab.set d.mem.xfers id x } }.owe ⟨q, entryTag e, entryHandle e, .surface id⟩

/-- The two entries decided. -/
def Dev.transferD (q : Nat) (e : List Byte) (write : Bool) (d : Dev) : Dev :=
  let st := d.transferStatus q e write
  if st = stOk then d.transferStart q e write else d.answer q e st

/-- SURFACE_WRITE (R693 to R695). -/
def execSurfaceWrite (queue : Nat) (entry : List Byte) (s : State) : Out :=
  onEntryDev queue entry 0x24 1 true s (fun d => d.transferD queue entry true)

/-- SURFACE_READ (R693 to R695). -/
def execSurfaceRead (queue : Nat) (entry : List Byte) (s : State) : Out :=
  onEntryDev queue entry 0x25 1 true s (fun d => d.transferD queue entry false)

/-- n rows written from host data, until poison stops the run: whether all were, and how many, the last begun
included. -/
def State.writeRows (s : State) (u : Surf) (x : Xfer) (data : List Byte) : Nat → Nat → Bool × Nat × State
  | 0, j => (true, j, s)
  | n + 1, j =>
    let bpp := bppOf u.fmt
    match s.surfPut u true ((x.y + j) * u.pitch + x.x * bpp) (slice data (j * x.pitch) (x.w * bpp)) with
    | (true, s) => s.writeRows u x data n (j + 1)
    | (false, s) => (false, j + 1, s)

/-- The 64 pixels of block (bi, bj) of a rectangle in host data. -/
def hostBlock (x : Xfer) (bpp : Nat) (data : List Byte) (bi bj : Nat) : List Byte :=
  (List.range 8).flatMap (fun r => slice data ((8 * bj + r) * x.pitch + 8 * bi * bpp) (8 * bpp))

/-- Blocks written from host data, until poison stops the run: whether all were, and how many, the last begun
included. -/
def State.writeBlocks (s : State) (u : Surf) (x : Xfer) (data : List Byte) : List (Nat × Nat) → Nat → Bool × Nat × State
  | [], n => (true, n, s)
  | (bi, bj) :: t, n =>
    match s.kamWrite u true ((x.y / 8 + bj) * u.bw + x.x / 8 + bi) (hostBlock x (bppOf u.fmt) data bi bj) with
    | (true, s) => s.writeBlocks u x data t (n + 1)
    | (false, s) => (false, n + 1, s)

/-- Blocks of a rectangle row by row. -/
def Xfer.blocks (x : Xfer) : List (Nat × Nat) := (List.range (x.h / 8)).flatMap (fun j => (List.range (x.w / 8)).map (fun i => (i, j)))

/-- A write performed: its outcome, with the damage of R594 on what was written. -/
def State.xferWrite (s : State) (u : Surf) (x : Xfer) (data : List Byte) : Bool × State :=
  if u.kamius then
    let (ok, n, s) := s.writeBlocks u x data x.blocks 0
    (ok, if n = 0 then s else s.upd (fun d => d.sourceDamage x.surf x.x x.y x.w (8 * ceilDiv n (x.w / 8))))
  else
    let (ok, n, s) := s.writeRows u x data x.h 0
    (ok, if n = 0 then s else s.upd (fun d => d.sourceDamage x.surf x.x x.y x.w n))

/-- n rows sent to the host, until a poisoned flit stops them. -/
def State.readRows (s : State) (u : Surf) (x : Xfer) : Nat → Nat → Bool × State
  | 0, _ => (true, s)
  | n + 1, j =>
    let bpp := bppOf u.fmt
    let off := (x.y + j) * u.pitch + x.x * bpp
    let bs := s.rowBytes u x.x (x.y + j) x.w
    let out (bs : List Byte) (s : State) : State :=
      if bs.isEmpty then s else s.upd (fun d => d.send (.hostWrite (queueFn x.queue) (x.addr + j * x.pitch) bs))
    match (if u.kamius then none else s.surfPoison u off (x.w * bpp)) with
    | some o => (false, out (bs.take (o - off)) s)
    | none => (out bs s).readRows u x n (j + 1)

/-- A transfer performed: OK or ABORTED. A Kamius block that reads poisoned is a block in error, and reads as CLEAR. -/
def State.xferRun (s : State) (u : Surf) (x : Xfer) (data : Option (List Byte)) : Nat × State :=
  if x.write then
    match data with
    | none => (stAborted, s)
    | some b =>
      let r := s.xferWrite u x b
      (if r.1 then stOk else stAborted, r.2)
  else
    let bl := u.blocksOf x.x x.y x.w x.h
    let s := if u.kamius then s.upd (fun d => d.kamRead bl.length (s.kamErrors u bl)) else s
    let r := s.readRows u x x.h 0
    (if r.1 then stOk else stAborted, r.2)

/-- A transfer ends: it is performed and its entry completes, ABORTED where `cut` says that poison ended it. -/
def State.xferEnd (s : State) (id : Nat) (data : Option (List Byte)) (cut : Bool) : State :=
  match Tab.get? s.dev.mem.xfers id with
  | none => s
  | some x =>
    let s := s.upd (fun d => { d with mem := { d.mem with xfers := Tab.erase d.mem.xfers id } })
    let (st, s) := match s.dev.surf? x.surf with
      | some u => s.xferRun u x data
      | none => (stAborted, s)
    s.upd (fun d => d.settle (fun (o : Owed) => o.kind == OwedKind.surface id) (if cut then stAborted else st) none)

/-- SURFACE_TRANSFER_DONE (R695, R705, R707): the bytes that the host read gave for a write, none where it failed. -/
def execSurfaceTransferDone (xfer : Nat) (data : Option (List Byte)) (s : State) : Out := .next (s.xferEnd xfer data false)

/-! ### What a read returns (R247 to R250) -/

/-- What a poisoned flit does to its reader (R250, R362, R557). -/
def State.poisonTo (s : State) (a : Nat) : HbmReader → State
  | .pip p => s.upd (fun d => if d.get (R.PIP_STATE p) = pipComposing then d.startNext d.wanted p else d)
  | .calUnit _ => s.upd (fun d => (d.bump R.CAL_POISON_CNT 1).flagRaiseOnce R.CAL_POISON 414)
  | .clipStage => s.upd (fun d => d.clipWriteDone true)
  | .devRegion b => s.upd (fun d => (d.ledgerEvent (384 + stackOf a) 2 b).blockReset b)
  | .surfaceUnit x bytes => s.xferEnd x (some bytes) true
  | .blit => s
  | .scrubber => s
  | .capture _ => s

/-- A reader is one of the part. -/
def readerOk : HbmReader → Bool
  | .pip p => decide (p < 256)
  | .calUnit q => decide (q < 4)
  | .devRegion b => decide (b < 19)
  | .capture l => decide (l < 64)
  | _ => true

/-- HBM_READ_RETURN (R247 to R250): a read of the flit at an address returns. -/
def execHbmReadReturn (addr : Nat) (ecc : EccResult) (reader : HbmReader) (s : State) : Out :=
  if !readerOk reader then .refused .noSuchUnit
  else if hbmBytes ≤ addr then .fault (.hbmAddress addr)
  else
    let k := stackOf addr
    let st := s.dev.get (R.STK_STATE k)
    if st ≠ stkReady ∧ st ≠ stkRetrain then .next s
    else
      let s := s.upd (fun d =>
        let d := d.bump (R.STK_RD_BYTES k) 32
        match ecc with
        | .clean => d
        | .corrected => d.corrected k
        | .uncorrectable => d.uncorrected addr)
      .next (if flitOf addr ∈ s.dev.mem.poison then s.poisonTo addr reader else s)

end Sys2Proof.Machine
end

