-- ==== Sys2Proof/Machine/Objects.lean ====
section
/-! DEFINITION. The object dictionary: its table of objects, the values read, and the checks of a written value
(R763 to R781). A value is held as Shovin carries it, big-endian (R10). -/

namespace Sys2Proof.Machine

/-! ### Types and rows -/

/-- Access classes of an object (R15, R764). -/
inductive ObjAcc where
  | ro | rw | wo | rwp | rwl | rww
  deriving DecidableEq, Repr

def tBool : Nat := 0x01
def tU8 : Nat := 0x02
def tU16 : Nat := 0x03
def tU32 : Nat := 0x04
def tU64 : Nat := 0x05
def tI16 : Nat := 0x07
def tI32 : Nat := 0x08
def tStr : Nat := 0x0B
def tBlob : Nat := 0x0C
def tTime80 : Nat := 0x0D

/-- Bytes of a value of a type of fixed length; 0 for STR and BLOB (R763). -/
def typeSize : Nat → Nat
  | 0x01 => 1 | 0x02 => 1 | 0x03 => 2 | 0x04 => 4 | 0x05 => 8 | 0x06 => 1 | 0x07 => 2 | 0x08 => 4 | 0x09 => 8
  | 0x0A => 4 | 0x0D => 10 | _ => 0

/-- What the table of an object gives: type, access, the roles that may write as a mask of their codes (R779), range
and step, default, and for STR and BLOB the largest length, fixed or not. -/
structure ObjDef where
  typ : Nat
  acc : ObjAcc
  roles : Nat := 0
  lo : Int := 0
  hi : Int := 0
  step : Nat := 1
  dflt : Nat := 0
  size : Nat := 0
  fixed : Bool := false
  deriving DecidableEq, Repr

/-- A row of an object table: ranges of index and subindex, and the definition. -/
structure ObjRow where
  i0 : Nat
  i1 : Nat
  s0 : Nat
  s1 : Nat
  obj : ObjDef
  deriving DecidableEq, Repr

/-- Role masks: integrator, factory; with operator; with venue authority; venue authority and factory; every role. -/
def roIF : Nat := 20
def roOIF : Nat := 22
def roIVF : Nat := 28
def roOIVF : Nat := 30
def roVF : Nat := 24
def roAll : Nat := 31

/-- A read-only object of a fixed type. -/
def rowRo (i s t : Nat) : ObjRow := ⟨i, i, s, s, { typ := t, acc := .ro }⟩
/-- Read-only objects at a run of subindices. -/
def rowRos (i s0 s1 t : Nat) : ObjRow := ⟨i, i, s0, s1, { typ := t, acc := .ro }⟩
/-- A read-only STR or BLOB. -/
def rowRoB (i0 i1 s0 s1 t n : Nat) (fixed : Bool) : ObjRow := ⟨i0, i1, s0, s1, { typ := t, acc := .ro, size := n, fixed := fixed }⟩
/-- A numeric object that may be written. -/
def rowNum (i s t : Nat) (a : ObjAcc) (roles dflt lo hi : Nat) : ObjRow :=
  ⟨i, i, s, s, { typ := t, acc := a, roles := roles, lo := lo, hi := hi, dflt := dflt }⟩
/-- The same at a run of indices. -/
def rowNums (i0 i1 s t : Nat) (a : ObjAcc) (roles dflt lo hi : Nat) : ObjRow :=
  ⟨i0, i1, s, s, { typ := t, acc := a, roles := roles, lo := lo, hi := hi, dflt := dflt }⟩

/-- Identity, limits, geometry, channel mirror (R96, R772 to R774). -/
def rowsA : List ObjRow :=
  [rowRoB 0x1000 0x1000 1 1 tStr 32 false, rowRoB 0x1000 0x1000 2 3 tStr 16 false, rowRoB 0x1000 0x1000 4 4 tStr 2 false,
   rowRoB 0x1000 0x1000 5 5 tBlob 16 true, rowRos 0x1000 6 7 tU16, rowRo 0x1000 8 tU32, rowRos 0x1001 1 3 tU16,
   rowRo 0x1001 4 tU8, rowRo 0x1001 5 tU16, rowRo 0x1001 6 tU8, rowRo 0x1002 1 tTime80, rowRo 0x1002 2 tU64] ++
  [rowRos 0x2000 1 2 tU16, rowRo 0x2000 3 tU8, rowRo 0x2000 4 tU16, rowRoB 0x2000 0x2000 5 5 tBlob 16 true,
   rowRoB 0x2000 0x2000 6 6 tBlob 32 true, ⟨0x2001, 0x2001, 0, 0, { typ := tBlob, acc := .wo, roles := roIVF, size := 0x200000 }⟩,
   rowRo 0x2001 1 tU8, rowRo 0x2001 2 tU64, ⟨0x2100, 0x21FF, 0, 0, { typ := tU8, acc := .ro }⟩,
   rowRoB 0x2100 0x21FF 1 0x40 tBlob 32 true] ++
  [rowNum 0x3000 1 tU32 .rw roAll 0 0 0xFFFFFFFF, rowRo 0x3000 2 tU32, rowRos 0x3000 3 4 tU8, rowRo 0x3000 5 tU64,
   rowRo 0x3000 6 tU8, rowRo 0x3000 7 tU64, rowRoB 0x3000 0x3000 8 8 tBlob 128 false, rowRos 0x3000 9 0xA tU64,
   ⟨0x3001, 0x3008, 1, 1, { typ := tU32, acc := .ro }⟩]

/-- Ladder, admission, clip drives, schedule, table, port modes (R183, R459, R525, R563). -/
def rowsB : List ObjRow :=
  [⟨0x4000, 0x4000, 1, 1, { typ := tU16, acc := .rwp, roles := roIF, lo := 720, hi := 900, step := 10, dflt := 900 }⟩,
   rowNum 0x4000 2 tU8 .rwp roIF 4 1 16, rowNum 0x4000 3 tU16 .rwp roIF 64 8 1000, rowRo 0x4000 4 tU16,
   rowNum 0x4001 1 tU8 .rwp roIF 0 0 7, ⟨0x4010, 0x4010, 1, 8, { typ := tU32, acc := .rwp, roles := roIF, lo := 100, hi := 12000, dflt := 3000 }⟩] ++
  [(0x4002, 0x400F), (0x4011, 0x4020), (0x14010, 0x14010)].map (fun r => rowNums r.1 r.2 1 tU8 .rwp roIF 1 0 7) ++
  [(0x4001, 0x400F), (0x4011, 0x4020), (0x14010, 0x14010)].flatMap (fun r =>
    [rowNums r.1 r.2 2 tU8 .rwp roIF 100 0 100, rowNums r.1 r.2 3 tU8 .rwp roIF 64 0 64]) ++
  [rowNum 0x5001 1 tU32 .rw roOIF 0 23976 480000, rowRo 0x5001 2 tU32, rowRo 0x5001 3 tU64, rowRo 0x5001 4 tU8,
   rowNum 0x5001 5 tU8 .rwp roIF 4 4 255, rowNum 0x5010 1 tU32 .rwp roIVF 10000 100 600000,
   rowNum 0x5010 2 tBool .rwp roIF 1 0 1, rowNum 0x5010 3 tU16 .rwp roIF 120 1 65535, rowNum 0x5010 4 tU8 .rwp roIF 4 1 16,
   rowNum 0x5010 5 tU8 .rwp roIF 0 0 1, rowNum 0x5020 1 tU8 .rwp roIF 3 2 16, rowRo 0x5020 2 tU32, rowRos 0x5020 3 4 tU8,
   ⟨0x5021, 0x5021, 1, 8, { typ := tU8, acc := .rwp, roles := roIF, hi := 1 }⟩]

/-- Time base and synthesizers (R674). -/
def rowsC : List ObjRow :=
  [rowNum 0x5030 1 tU8 .rwp roIF 1 0 3, rowNum 0x5030 2 tU32 .rwp roIF 0 0 41708333, rowNum 0x5030 3 tU8 .rwp roIF 100 1 100,
   rowNum 0x5030 4 tU32 .rwp roIF 100 1 1000000, rowNum 0x5031 1 tU8 .rwp roIF 127 0 127,
   rowNum 0x5031 2 tU16 .rwp roIF 3 0 1023, rowRoB 0x5031 0x5031 3 3 tBlob 8 true, rowRo 0x5031 4 tI32] ++
  [rowNums 0x5032 0x5033 1 tU8 .rwp roIF 0 0 2, rowNums 0x5032 0x5033 2 tU8 .rwp roIF 1 1 8,
   rowNums 0x5032 0x5033 3 tBool .rwp roIF 0 0 1, rowNums 0x5032 0x5033 4 tU16 .rwp roIF 500 10 10000,
   rowNums 0x5032 0x5033 5 tU8 .rwp roIF 8 2 255, rowNums 0x5032 0x5033 6 tU16 .rwp roIF 50 1 500] ++
  [rowNums 0x5040 0x5094 1 tU8 .rwp roIF 20 5 100, rowNums 0x5040 0x5094 2 tU16 .rwp roIF 256 16 4095,
   rowNums 0x5040 0x5094 3 tU8 .rwp roIF 1 0 2, rowNum 0x5040 4 tBool .rwp roIF 0 0 1,
   rowNums 0x5041 0x5088 4 tBool .rwp roIF 1 0 1, rowNums 0x5089 0x5090 4 tBool .rwp roIF 0 0 1,
   rowNums 0x5091 0x5094 4 tBool .rwp roIF 1 0 1]

/-- Sensing, plausibility windows, brightness, alarm inputs (R385, R637). -/
def rowsD : List ObjRow :=
  [rowNum 0x6000 1 tU8 .rwp roIF 1 0 4, rowNum 0x6000 2 tU16 .rwp roIF 32 8 256, rowNum 0x6000 3 tU16 .rwp roIF 2 1 1000,
   rowNum 0x6000 4 tU8 .rwp roIF 8 2 64, rowNum 0x6000 5 tU8 .rwp roIF 4 1 63, rowNum 0x6000 6 tU8 .rwp roIF 3 1 64,
   rowNum 0x6000 7 tU8 .rwp roIF 2 1 16, rowNum 0x6000 8 tU8 .rwp roIF 2 1 16, rowNum 0x6000 9 tU16 .rwp roIF 4 0 4096,
   rowNum 0x6000 0xA tU32 .rwp roIF 600 1 86400, rowNum 0x6000 0xB tU32 .rwp roIF 1800 0 86400,
   rowNum 0x6000 0xC tU16 .rwp roIF 16 1 1000, rowNum 0x6000 0xD tU16 .rwp roIF 100 10 10000,
   rowNum 0x6000 0xE tU16 .rwp roIF 16 1 4096] ++
  [rowNum 0x6001 1 tI16 .rwp roIF 1360 640 1920, rowNum 0x6001 2 tU8 .rwp roIF 10 1 200,
   rowNum 0x6001 3 tU16 .rwp roIF 1000 0 65535, rowNum 0x6001 4 tU16 .rwp roIF 60000 0 65535,
   rowNum 0x6001 5 tU32 .rwp roIF 100000 1000 1000000, rowNum 0x6001 6 tU16 .rwp roIF 100 1 60000,
   rowNum 0x6001 7 tU32 .rwp roIF 200000 1 1000000] ++
  [rowNum 0x6100 1 tBool .rwp roOIF 0 0 1, rowNum 0x6100 2 tU16 .rwp roOIF 0xFFFF 0 0xFFFF,
   rowNum 0x6100 3 tU16 .rwp roIF 10 1 600, rowNum 0x6100 4 tU16 .rwp roIF 4096 1 65535, rowNum 0x6100 5 tU16 .rwp roIF 30 1 3600,
   rowNum 0x6100 6 tU16 .rwp roIF 0x8000 0 0xFFFF, rowNum 0x6100 7 tU8 .rwp roIF 2 1 8,
   rowNum 0x6101 1 tU32 .rwp roIF 0 0 200000, rowNum 0x6101 2 tU32 .rwp roIF 10000 0 200000,
   ⟨0x6101, 0x6101, 3, 8, { typ := tU32, acc := .rwp, roles := roIF, hi := 200000 }⟩,
   rowNum 0x6102 1 tU16 .rwp roIF 0x2000 0 0xFFFF,
   ⟨0x6102, 0x6102, 2, 8, { typ := tU16, acc := .rwp, roles := roIF, hi := 0xFFFF, dflt := 0xFFFF }⟩] ++
  [rowNums 0x6200 0x6201 1 tU8 .rwp roIVF 1 0 2, rowNums 0x6200 0x6201 2 tBool .rwp roIVF 0 0 1,
   rowNums 0x6200 0x6201 3 tU16 .rwp roIVF 20 5 500,
   ⟨0x6200, 0x6201, 4, 7, { typ := tU32, acc := .rw, roles := roOIVF, hi := 0xFFFFFFFF }⟩, rowNums 0x6200 0x6201 8 tU8 .ro 0 0 0 0]

/-- Protected and write-limited settings, role keys, control ports (R769, R775, R779, R783). -/
def rowsE : List ObjRow :=
  [⟨0x7001, 0x7001, 1, 1, { typ := tStr, acc := .rww, roles := roVF, size := 64 }⟩, rowRo 0x7001 2 tU16,
   rowNum 0x7002 1 tBool .rw roVF 0 0 1, rowNum 0x7002 2 tBool .rwp roVF 0 0 1, rowRo 0x7002 3 tU64,
   rowNum 0x7010 1 tU16 .rww roVF 0xFFFF 0 0xFFFF, rowRo 0x7010 2 tU16,
   ⟨0x7020, 0x7020, 1, 1, { typ := tBlob, acc := .rww, roles := roVF, size := 32, fixed := true }⟩, rowRo 0x7020 2 tU16,
   ⟨0x7030, 0x7030, 1, 3, { typ := tBlob, acc := .rww, roles := 4, size := 32, fixed := true }⟩,
   ⟨0x7030, 0x7030, 4, 4, { typ := tBlob, acc := .rww, roles := 8, size := 32, fixed := true }⟩, rowRos 0x7030 0x11 0x14 tU16,
   rowNum 0x7040 1 tU32 .rww roVF 0 0 0xFFFFFFFF, rowRo 0x7040 2 tU16]

/-- Control ports and Shovin (R783). -/
def rowsF : List ObjRow :=
  [rowNum 0x7050 1 tU32 .rwl roIF 0 0 0xFFFFFFFF, rowNum 0x7050 2 tU32 .rwl roIF 0xFFFFFF00 0 0xFFFFFFFF,
   rowNum 0x17051 2 tU32 .rwl roIF 0xFFFFFF00 0 0xFFFFFFFF, rowNum 0x7051 1 tU32 .rwl roIF 2000 100 60000,
   rowNum 0x7051 2 tU16 .rwl roIF 10 1 600, rowNums 0x7050 0x7051 3 tU32 .rwl roIF 0 0 0xFFFFFFFF,
   rowNums 0x7050 0x7051 4 tU16 .rwl roIF 0 0 0x1FFF, rowNums 0x7050 0x7051 5 tU16 .rwl roIF 47200 1024 65535,
   rowRoB 0x7050 0x7051 6 6 tBlob 6 true, rowRos 0x7052 1 3 tU64]

/-- Ledger, health, update, maintenance (R516, R824). -/
def rowsG : List ObjRow :=
  [rowRos 0x8000 1 4 tU64, ⟨0x8000, 0x8000, 5, 6, { typ := tU64, acc := .rwp, roles := roIVF, hi := 0xFFFFFFFFFFFFFFFF }⟩,
   rowRo 0x8000 7 tU64, rowNum 0x8001 1 tU64 .rw roAll 0 0 0xFFFFFFFFFFFFFFFF, rowNum 0x8001 2 tU8 .rw roAll 0 0 1,
   rowRoB 0x8001 0x8001 3 3 tBlob 960 false, rowNum 0x8002 1 tU64 .wo roIF 0 0 0xFFFFFFFFFFFFFFFF, rowRo 0x8002 2 tU64,
   rowNum 0x8010 1 tI16 .rwp roIF 1600 1120 1680, rowRos 0x8010 2 3 tI16, rowRo 0x8010 4 tU32, rowRo 0x8010 5 tU16,
   rowRos 0x8011 1 0x20 tU16] ++
  [⟨0x9000, 0x9000, 1, 1, { typ := tBlob, acc := .wo, roles := roIF, size := 0x4000000 }⟩, rowNum 0x9000 2 tU8 .wo roIF 0 1 4,
   rowRo 0x9000 3 tU8, rowRos 0x9000 4 7 tU32, rowRo 0x9000 8 tU8, rowNum 0x9000 9 tU32 .rwp roIF 600 60 86400,
   rowNum 0xA000 1 tBool .rw roIF 0 0 1, rowNum 0xA000 2 tBool .wo roIF 0 1 1, rowNum 0xA000 3 tU8 .wo roIF 0 0 255,
   rowNum 0xA000 4 tBool .wo roIF 0 1 1]

/-- Every object of the dictionary. -/
def objRows : List ObjRow := rowsA ++ rowsB ++ rowsC ++ rowsD ++ rowsE ++ rowsF ++ rowsG

/-- The row names this index and subindex. -/
def ObjRow.has (r : ObjRow) (idx sub : Nat) : Bool := decide (r.i0 ≤ idx ∧ idx ≤ r.i1 ∧ r.s0 ≤ sub ∧ sub ≤ r.s1)

/-- The definition of an object. -/
def objDef? (idx sub : Nat) : Option ObjDef := (objRows.find? (fun r => r.has idx sub)).map (·.obj)

/-- Indices that two tables of the spec give to two objects: 0x4010:01 to :03, drive rates of R563 and the ladder
objects of function 15 (0x4001 + 15), and 0x7051:02, SEG_IDLE_S and the netmask of control port 1 (0x7050 + 1). The type
of the request tells them apart; the second of each has an inner index of its own, 0x10000 above. -/
def innerIdx (idx sub typ : Nat) : Nat :=
  if idx = 0x4010 ∧ sub ≤ 3 ∧ typ = tU8 then 0x14010
  else if idx = 0x7051 ∧ sub = 2 ∧ typ = tU32 then 0x17051
  else idx

/-- The key under which an object's value is held. -/
def objKey (idx sub : Nat) : Nat := idx * 256 + sub

/-- The default of an object as its value. -/
def ObjDef.dfltBytes (o : ObjDef) : List Byte :=
  if o.typ = tStr then [] else if o.typ = tBlob then (if o.fixed then List.replicate o.size 0 else [])
  else beBytes (typeSize o.typ) o.dflt

/-! ### Identity (R7, R8, R772) -/

/-- The 6 bytes of the fused MAC address of control port k (R783, R815). -/
def macOf (k : Nat) : List Byte := (List.range 6).map (fun i => BitVec.ofNat 8 (fuseBits (199 + 48 * k + 8 * i) (192 + 48 * k + 8 * i)))

/-- ASCII of a text. -/
def ascii (s : String) : List Byte := s.toList.map (fun c => BitVec.ofNat 8 c.toNat)

/-- The slot that runs: the active one, or the other while it is on trial (R820, R822). -/
def Dev.runSlot (d : Dev) : Nat :=
  if d.get R.ST_UPD_STATE = 3 then 1 - d.get R.ST_ACTIVE_SLOT else d.get R.ST_ACTIVE_SLOT

/-- Cadence in force, mHz (R412, R413). -/
def Dev.cadenceMhz (d : Dev) : Nat :=
  if d.num = 1001000000 then (2 * d.den * 1000000 + 1001) / 2002 else d.den

/-! ### Reading -/

/-- The 32-byte SQUARE record of a square (R87), zeros where there is none. -/
def Dev.squareRecord (d : Dev) (n : Nat) : List Byte :=
  match d.square? n with
  | none => List.replicate 32 0
  | some q =>
    leBytes 2 (256 * d.ownIdx + n / 64) ++ leBytes 1 (n % 64) ++ leBytes 1 q.flags ++ leBytes 2 q.x ++ leBytes 2 q.y ++
      leBytes 2 q.w ++ leBytes 2 q.h ++ leBytes 4 q.tileType ++ leBytes 4 q.calSet ++ List.replicate 12 0

/-- Fuses of the count of a write-limited object (R815): the first and the last. -/
def countFuses (key : Nat) : Option (Nat × Nat) :=
  if key = 0x700101 then some (1792, 1792)
  else if key = 0x701001 then some (1793, 1824)
  else if key = 0x702001 then some (1825, 1840)
  else if key = 0x703001 then some (1841, 1904)
  else if key = 0x703002 then some (1905, 1968)
  else if key = 0x703003 then some (1969, 2032)
  else if key = 0x703004 then some (2033, 2096)
  else if key = 0x704001 then some (2097, 2224)
  else none

/-- The remaining count of a write-limited object (R776, R816). -/
def Dev.remaining (d : Dev) (key : Nat) : Nat :=
  match countFuses key with
  | some (lo, hi) => d.fusesLeft lo hi
  | none => 0xFFFF

/-- The object whose count a subindex holds (R775). -/
def countOf (idx sub : Nat) : Nat := if idx = 0x7030 then objKey idx (sub - 0x10) else objKey idx 1

/-- What `MIRROR_SEL` of a requester selects: class, index, and whether the generation is the current one (R773, R774). -/
def Dev.mirrorSel (d : Dev) (rk : Nat) : Nat × Nat × Bool :=
  let h := Tab.getD d.bank.mirror rk 0
  (handleCls h, handleIdx h, handleGen h == 0 || handleGen h == d.curGen (handleCls h) (handleIdx h))

/-- An object of the channel mirror (R774). -/
def Dev.mirrorValue (d : Dev) (rk sub : Nat) : Nat × List Byte :=
  let (cls, idx, cur) := d.mirrorSel rk
  if !cur then (stBadHandle, [])
  else
    let c := d.chan? cls idx
    let num (n : Nat) (f : Chan → Nat) : Nat × List Byte := (stOk, beBytes n (match c with | some x => f x | none => 0))
    if sub = 2 then num 4 (fun x => x.handle cls idx)
    else if sub = 3 then num 1 (fun x => if x.retiring then 2 else 1)
    else if sub = 4 then num 1 (fun x => x.owner)
    else if sub = 5 then num 8 (fun x => x.cseq)
    else if sub = 6 then num 1 (fun x => x.rung + (if x.demoted then 8 else 0))
    else if sub = 7 then num 8 (fun x => x.aseq)
    else if sub = 8 then
      (stOk, match c with | some x => x.record.take (recordLen cls) | none => List.replicate (recordLen cls) 0)
    else if cls = clsIngest then
      let g := d.ing? idx
      num 8 (fun _ => if sub = 9 then g.dropped else g.repeated)
    else num 8 (fun _ => 0)

/-- The oldest SEQ that a ledger ring holds, 0 for an empty one. -/
def oldestSeq (ring : List Ledger) : Nat :=
  match ring.getLast? with
  | some l => l.seq
  | none => 0

/-- The ledger cursor of a requester: first SEQ and ring. -/
def Dev.cursorOf (d : Dev) (rk : Nat) : Nat × Nat := Tab.getD d.bank.cursor rk (0, 0)

/-- Up to 15 ledger entries from the cursor, whole lines of 64 bytes (R824). -/
def Dev.ledgerRead (d : Dev) (rk : Nat) : Nat × List Byte :=
  let (seq, ring) := d.cursorOf rk
  let entries := d.ledgerRing (ring == 1)
  if seq < oldestSeq entries then (stRange, [])
  else
    let got := ((entries.takeWhile (fun l => seq ≤ l.seq)).reverse).take 15
    (stOk, got.flatMap (fun l => l.body ++ l.lmac))

/-- Alarm input k as 0x6200 + k:08 shows it. -/
def Dev.alarmByte (d : Dev) (k : Nat) : Nat :=
  let a := d.alarmOf k
  (if a.active then 1 else 0) + (if d.alarmOn k then 2 else 0) + (if a.chatter then 4 else 0)

/-- The value of an object that the device makes or holds elsewhere; none for one whose value is held as written. -/
def Dev.madeValue (d : Dev) (rk idx sub : Nat) : Option (Nat × List Byte) :=
  let n (w v : Nat) : Option (Nat × List Byte) := some (stOk, beBytes w v)
  let b (l : List Byte) : Option (Nat × List Byte) := some (stOk, l)
  if idx = 0x1000 then
    if sub = 1 then b (ascii "Emruholt Microsystems")
    else if sub = 2 then b (ascii "CRH-8256")
    else if sub = 3 then b (ascii "CRH-8256-FLA")
    else if sub = 4 then b (beBytes 2 (fuseBits 175 160))
    else if sub = 5 then b deviceId
    else if sub = 6 then n 2 (fuseBits 143 128)
    else if sub = 7 then n 2 (fuseBits 159 144)
    else n 4 (leAt (d.slotImage d.runSlot) 8 4)
  else if idx = 0x1001 then
    if sub = 1 then n 2 32768
    else if sub = 2 ∨ sub = 3 then n 2 16384
    else if sub = 4 then n 1 64
    else if sub = 5 then n 2 (((List.range 4).map (fun q => (d.activePips q).length)).foldl (· + ·) 0)
    else n 1 (((List.range 32).filter (fun c => Tab.getD d.pip.reserve c 15 != 15)).length)
  else if idx = 0x1002 then if sub = 1 then b d.time80Be else n 8 d.time.turn
  else if idx = 0x2000 then
    if sub = 1 then n 2 d.geo.width
    else if sub = 2 then n 2 d.geo.height
    else if sub = 3 then n 1 d.geo.depth
    else if sub = 4 then n 2 d.geo.squares.length
    else if sub = 5 then b (slice d.geo.imageId 0 16)
    else b (slice d.geo.hash 0 32)
  else if idx = 0x2001 then if sub = 1 then n 1 d.bank.imageStatus else n 8 d.bank.imageTurn
  else if 0x2100 ≤ idx ∧ idx < 0x2200 then
    if sub = 0 then n 1 (d.snakeSquares (idx - 0x2100)) else b (d.squareRecord (64 * (idx - 0x2100) + sub - 1))
  else if idx = 0x3000 then if sub = 1 then n 4 (Tab.getD d.bank.mirror rk 0) else some (d.mirrorValue rk sub)
  else if 0x3001 ≤ idx ∧ idx ≤ 0x3008 then n 4 (d.liveOf (idx - 0x3001)).length
  else if idx = 0x4000 ∧ sub = 4 then
    n 2 (((List.range 4).map (fun q => d.get (R.ADM_PA q))).foldl min 0xFFFF)
  else if idx = 0x5001 then
    if sub = 1 then n 4 (match Tab.get? d.bank.rw (objKey idx 1) with | some v => beOf v | none => d.cadenceMhz)
    else if sub = 2 then n 4 d.cadenceMhz
    else if sub = 3 then n 8 (d.get R.PUSH_TCHG_TURN)
    else if sub = 4 then n 1 (d.get R.PUSH_TCHG)
    else none
  else if idx = 0x5020 then
    if sub = 2 then n 4 (d.get R.PUSH_EPOCH)
    else if sub = 3 then n 1 (d.get R.PUSH_RULER)
    else if sub = 4 then n 1 d.table
    else none
  else if idx = 0x5031 ∧ sub = 3 then
    b (match d.time.gm with | some f => beBytes 8 f.data.gmId.toNat | none => List.replicate 8 0)
  else if idx = 0x5031 ∧ sub = 4 then n 4 (d.get R.TB_OFFSET_NS)
  else if (idx = 0x5032 ∨ idx = 0x5033) ∧ sub = 1 then
    match d.sched.timing with
    | some t => match t.refModes.find? (fun m => m.1 == idx - 0x5032) with
      | some m => n 1 m.2
      | none => none
    | none => none
  else if (idx = 0x6200 ∨ idx = 0x6201) ∧ 4 ≤ sub then
    if sub = 8 then n 1 (d.alarmByte (idx - 0x6200)) else n 4 (Tab.getD d.sns.bind (4 * (idx - 0x6200) + (sub - 4)) 0)
  else if idx = 0x7002 ∧ sub = 1 then n 1 (if d.bank.dictLock then 1 else 0)
  else if (sub = 2 ∧ (idx = 0x7001 ∨ idx = 0x7010 ∨ idx = 0x7020 ∨ idx = 0x7040)) ∨ (idx = 0x7030 ∧ 0x11 ≤ sub) then
    n 2 (d.remaining (countOf idx sub))
  else if idx = 0x7030 then some (stLocked, [])
  else if (idx = 0x7050 ∨ idx = 0x7051) ∧ sub = 6 then b (macOf (idx - 0x7050))
  else if idx = 0x7052 then
    n 8 (if sub = 1 then d.bank.answered else if sub = 2 then d.bank.authFailed else d.bank.stale)
  else if idx = 0x8000 then
    if sub = 1 then n 8 (d.get R.ST_LEDGER_SEQ)
    else if sub = 2 then n 8 (d.get R.ST_LEDGER_PSEQ)
    else if sub = 3 then n 8 (oldestSeq d.bank.general)
    else if sub = 4 then n 8 (oldestSeq d.bank.protect)
    else if sub = 7 then n 8 d.bank.dropped
    else none
  else if idx = 0x8001 then
    if sub = 1 then n 8 (d.cursorOf rk).1 else if sub = 2 then n 1 (d.cursorOf rk).2 else some (d.ledgerRead rk)
  else if idx = 0x8002 then n 8 d.bank.firstFail
  else if idx = 0x8010 then
    if sub = 2 then n 2 (unsigned 16 d.bank.hottest)
    else if sub = 3 then n 2 (unsigned 16 d.bank.hottestEver)
    else if sub = 4 then n 4 d.bank.restarts
    else if sub = 5 then n 2 (d.get R.ST_RETIRED_BLOCKS)
    else none
  else if idx = 0x8011 then
    n 2 (d.bank.retiredSlots.foldl (fun m s => if s / 9 = sub - 1 then setBit m (s % 9) else m) 0)
  else if idx = 0x9000 then
    if sub = 3 then n 1 (if d.get R.PWR_SU_STATE = suRecovery then 4 else d.get R.ST_UPD_STATE)
    else if sub = 4 then n 4 (leAt (d.slotImage 0) 8 4)
    else if sub = 5 then n 4 (leAt (d.slotImage 1) 8 4)
    else if sub = 6 then n 4 (leAt (d.slotImage 0) 12 4)
    else if sub = 7 then n 4 (leAt (d.slotImage 1) 12 4)
    else if sub = 8 then n 1 (d.get R.ST_ACTIVE_SLOT)
    else none
  else if idx = 0xA000 ∧ sub = 1 then n 1 (if d.maintOn then 1 else 0)
  else none

/-- An object read by a requester: status and value (R764, R765). A register view shows its register (R180). -/
def Dev.objRead (d : Dev) (rk idx sub : Nat) : Nat × Nat × List Byte :=
  match objDef? idx sub with
  | none => (stMalformed, 0, [])
  | some o =>
    if o.acc = .wo then (stLocked, o.typ, [])
    else match d.madeValue rk idx sub with
      | some (st, v) => (st, o.typ, v)
      | none =>
        match viewOf (objKey idx sub) with
        | some f => (stOk, o.typ, beBytes (typeSize o.typ) (d.get f))
        | none => (stOk, o.typ, (Tab.get? d.bank.objs (objKey idx sub)).getD o.dfltBytes)

end Sys2Proof.Machine
end

