-- ==== Sys2Proof/Machine/Checks.lean ====
section
/-! DEFINITION. The checks of an object write, in the order of R766, and timing changes as a request makes them (R417 to R424). -/

namespace Sys2Proof.Machine

/-! ### Values -/

/-- Text bytes are well-formed UTF-8: more is how many continuation bytes are due, the next within [lo, hi]. -/
def utf8Go : List Nat → Nat → Nat → Nat → Bool
  | [], more, _, _ => more == 0
  | b :: t, 0, _, _ =>
    if b < 0x80 then utf8Go t 0 0x80 0xBF
    else if 0xC2 ≤ b ∧ b ≤ 0xDF then utf8Go t 1 0x80 0xBF
    else if b = 0xE0 then utf8Go t 2 0xA0 0xBF
    else if b = 0xED then utf8Go t 2 0x80 0x9F
    else if 0xE1 ≤ b ∧ b ≤ 0xEF then utf8Go t 2 0x80 0xBF
    else if b = 0xF0 then utf8Go t 3 0x90 0xBF
    else if 0xF1 ≤ b ∧ b ≤ 0xF3 then utf8Go t 3 0x80 0xBF
    else if b = 0xF4 then utf8Go t 3 0x80 0x8F
    else false
  | b :: t, n + 1, lo, hi => decide (lo ≤ b ∧ b ≤ hi) && utf8Go t n 0x80 0xBF

/-- A value is well-formed UTF-8 (R763). -/
def utf8Ok (bs : List Byte) : Bool := utf8Go (bs.map (·.toNat)) 0 0x80 0xBF

/-- A numeric value as its type reads it. -/
def ObjDef.num (o : ObjDef) (raw : List Byte) : Int :=
  if 0x06 ≤ o.typ ∧ o.typ ≤ 0x09 then signed (8 * typeSize o.typ) (beOf raw) else (beOf raw : Nat)

/-- A value is within the object's own range (R763, R766). -/
def ObjDef.inRange (o : ObjDef) (raw : List Byte) : Bool :=
  if o.typ = tStr then decide (raw.length ≤ o.size) && utf8Ok raw
  else if o.typ = tBlob then decide (raw.length ≤ o.size)
  else decide (o.lo ≤ o.num raw ∧ o.num raw ≤ o.hi) && decide ((o.num raw - o.lo) % (o.step : Int) = 0)

/-- The form of a value fits its type: MALFORMED where it does not (R766). -/
def ObjDef.formOk (o : ObjDef) (typ len : Nat) : Bool :=
  typ == o.typ &&
    (if typeSize o.typ ≠ 0 then len == typeSize o.typ else if o.fixed then len == o.size else true)

/-! ### A request -/

/-- Who makes a request of the dictionary service: role (R779), requester key of R773, transport (0 and 1 the control
ports, 2 the mailbox) and CLIENT. -/
structure Req where
  role : Nat
  key : Nat
  transport : Nat
  client : Nat
  deriving DecidableEq, Repr

/-- The requester that a role and a client are on a transport: the mailbox is one requester (R773). -/
def mkReq (role transport client : Nat) : Req :=
  ⟨role, if transport = 2 then 0 else role * 2 ^ 32 + client + 1, transport, client⟩

/-- The command rows that name a role alone are requests of function 0 through the mailbox, CLIENT 0. -/
def reqOf (role : Nat) : Req := mkReq role 2 0

/-- The role is one that the mask names. -/
def roleIn (mask role : Nat) : Bool := decide (role < 5) && tbit mask role

/-! ### Timing changes (R417 to R424) -/

/-- The timing in force. -/
def Dev.timingNow (d : Dev) : Timing := { ne := 0, num := d.num, den := d.den, quiet := d.sched.quiet, src := d.src }

/-- A timing change request completes with BUSY (R420, R424). -/
def Dev.timingBusy (d : Dev) : Bool :=
  (match d.sched.timing with | some t => t.announced | none => false) || d.adm? == admTrial || d.table == tsDivided

/-- A timing change is accepted: pending from the turn of acceptance, in place of one not yet announced (R418, R420). -/
def Dev.scheduleAt (d : Dev) (ne : Nat) (t : Timing) : Dev :=
  let d := if d.sched.timing.isSome then d.flag R.PUSH_TCHG_REPLACED else d
  let d := { d with sched := { d.sched with timing := some { t with ne := ne, announced := false } } }
  ((d.put R.PUSH_TCHG 1).put R.PUSH_TCHG_TURN ne).raise 832

def Dev.schedule (d : Dev) (t : Timing) : Dev := d.scheduleAt (d.time.turn + d.lead) t

/-- A timing change asked for: the ruler of a part schedules and tells its members, a member asks its ruler (R112, R643). -/
def Dev.askTiming (d : Dev) (t : Timing) : Dev :=
  if !d.grouped then d.schedule t
  else if d.rules then
    let d := d.schedule t
    d.decree [.timing (d.time.turn + d.lead) t.num t.den t.quiet t.src]
  else d.tellRuler (.timing t.num t.den t.quiet t.src)

/-- Pixels on each snake, and the fit of R77 and R78 at a cadence in mHz and an output depth of 16 or 12. -/
def rateFits (squares : List (Nat × Square)) (depth : Nat) (c : Nat) : Bool :=
  let area (l : List (Nat × Square)) : Nat := l.foldl (fun a p => a + p.2.w * p.2.h) 0
  let (num, den) := periodOf c
  let bitsPx := if depth = 12 then 36 else 48
  ((squares.map (fun p => p.1 / 64)).eraseDups).all (fun s =>
      decide (area (squares.filter (fun p => p.1 / 64 = s)) * bitsPx * den * 1000000000 ≤ 23040000000 * num)) &&
    decide (area squares * den * 1000000000 ≤ 64424509440 * num)

/-- Every stake fits at a new period (R148). -/
def Dev.fitsPeriod (d : Dev) (num den : Nat) : Bool :=
  ((d.put R.PUSH_PERIOD_NUM num).put R.PUSH_PERIOD_DEN den).stakesFail == 0

/-! ### The value as it would stand -/

/-- An object put to a value, with the register that it is a view of (R180, R767). A REF_MODE register changes in the
next quiet interval (R664). -/
def Dev.setValue (d : Dev) (idx sub : Nat) (raw : List Byte) : Dev :=
  let d := { d with bank := { d.bank with objs := Tab.set d.bank.objs (objKey idx sub) raw } }
  match viewOf (objKey idx sub) with
  | none => d
  | some f => if 0x5040 ≤ idx ∧ idx < 0x5095 ∧ sub = 3 then d else d.put f (beOf raw)

/-- A value that is held, or its default. -/
def Dev.objVal (d : Dev) (idx sub : Nat) : Nat :=
  match objDef? idx sub with
  | some o => d.objNat idx sub o.dflt
  | none => 0

/-- REF_MODE as synthesizer s will have it: a change that waits counts. -/
def Dev.refModeOf (d : Dev) (s : Nat) : Nat := Tab.getD d.time.refModePend s (d.get (R.SYNS_REF_MODE s))

/-- The points in use of the ambient curve rise strictly in lux (R386). -/
def Dev.curveOk (d : Dev) : Bool :=
  (List.range (d.ambPoints - 1)).all (fun i => decide ((d.ambPoint i).1 < (d.ambPoint (i + 1)).1))

/-- A mask of ones followed by zeros. -/
def contiguous (m : Nat) : Bool := (List.range 33).any (fun k => m == 2 ^ 32 - 2 ^ k)

/-- Relations that an object's chapter sets between values: e is the state with the value in force, d as it is. -/
def Dev.relationOk (d e : Dev) (idx sub : Nat) (raw : List Byte) : Bool :=
  let v := beOf raw
  if idx = 0x3000 then decide (handleCls v < 8) && decide (handleIdx v < indexLimit (handleCls v))
  else if idx = 0x5001 ∧ sub = 1 then rateFits d.geo.squares d.geo.depth v
  else if 0x5040 ≤ idx ∧ idx < 0x5095 ∧ sub = 2 then lockNFits (idx - 0x5040) (e.refModeOf (idx - 0x5040)) v
  else if idx = 0x6000 ∧ (sub = 4 ∨ sub = 5) then decide (e.objVal 0x6000 5 < e.objVal 0x6000 4)
  else if idx = 0x6001 ∧ (sub = 3 ∨ sub = 4) then decide (e.objVal 0x6001 3 < e.objVal 0x6001 4)
  else if (idx = 0x6100 ∧ sub = 7) ∨ idx = 0x6101 then e.curveOk
  else if (idx = 0x6200 ∨ idx = 0x6201) ∧ 4 ≤ sub then
    v == 0 || (match d.handleOf? clsLayer v with | some c => c.rung == 0 | none => true)
  else if idx = 0x7002 then if sub = 1 then v == 1 else v == 0
  else if idx = 0x7040 then decide (d.objNat 0x7040 1 0 ≤ v) && decide (v ≤ leAt (d.slotImage (d.get R.ST_ACTIVE_SLOT)) 12 4)
  else if (idx = 0x7050 ∨ idx = 0x17051) ∧ sub = 2 then contiguous v
  else if (idx = 0x7050 ∨ idx = 0x7051) ∧ sub = 5 then v != 319 && v != 320
  else if idx = 0x8000 then decide (v ≤ d.get (if sub = 5 then R.ST_LEDGER_SEQ else R.ST_LEDGER_PSEQ))
  else true

/-- BAD_HANDLE: a binding names no LIVE layer (R630). -/
def Dev.handleBad (d : Dev) (idx sub : Nat) (raw : List Byte) : Bool :=
  (idx == 0x6200 || idx == 0x6201) && decide (4 ≤ sub) && decide (sub ≤ 7) && beOf raw != 0 && (d.handleOf? clsLayer (beOf raw)).isNone

/-- The object is the role's own key, and that is unset (R780). -/
def Dev.ownUnset (d : Dev) (role idx sub : Nat) : Bool :=
  idx == 0x7030 && decide (role < 4) && sub == role + 1 && (Tab.get? d.bank.objs (objKey idx sub)).isNone

/-- LOCKED (R764 to R767, R769, R777, R824). -/
def Dev.lockedFor (d : Dev) (o : ObjDef) (role idx sub : Nat) : Bool :=
  o.acc == .ro || !(roleIn o.roles role || d.ownUnset role idx sub) || (o.acc == .rwl && d.bank.dictLock) ||
    (match viewOf (objKey idx sub) with | some f => d.on (lockFld f.addr) | none => false) ||
    (idx == 0x7001 && d.remaining (objKey idx sub) == 0) || (idx == 0xA000 && sub == 3 && !d.maintOn)

/-- The object is one whose write is a timing change: 0x5001:01, TIME_SRC, the mode of the REF_IN selected (R417, R643). -/
def Dev.isTiming (d : Dev) (idx sub : Nat) : Bool :=
  (idx == 0x5001 && sub == 1) || (idx == 0x5030 && sub == 1) ||
    (sub == 1 && ((idx == 0x5032 && d.src == 2) || (idx == 0x5033 && d.src == 3)))

/-- Commands of 0x9000:02 that the update state accepts (R820): VERIFY of an image that is there, while none is
verified or on trial; ACTIVATE when STAGED; CONFIRM in TRIAL; ABORT of what is being received or STAGED. -/
def updateTakes (st cmd : Nat) (have_ : Bool) : Bool :=
  if cmd = 1 then (st == 0 && have_) || st == 1
  else if cmd = 2 then st == 2
  else if cmd = 3 then st == 3
  else st == 1 || st == 2

/-- BUSY of an object's chapter (R420, R424, R525, R820). -/
def Dev.conflict (d : Dev) (idx sub : Nat) (raw : List Byte) : Bool :=
  (d.isTiming idx sub && d.timingBusy) ||
    (idx == 0x5021 && (d.portHasLeg (sub - 1) || d.portHasTable (sub - 1))) ||
    (idx == 0x9000 && sub == 1 && d.get R.ST_UPD_STATE == 3) ||
    (idx == 0x9000 && sub == 2 && !updateTakes (d.get R.ST_UPD_STATE) (beOf raw) (!(d.slotImage d.spareSlot).isEmpty))

/-- A write of this class goes through the journal (R764). -/
def ObjAcc.journaled (a : ObjAcc) : Bool := a == .rwp || a == .rwl || a == .rww

/-- The checks of R766 but for the journal: e is the state that the value is checked against. -/
def Dev.checkWrite (d e : Dev) (role idx sub typ : Nat) (raw : List Byte) : Nat :=
  match objDef? idx sub with
  | none => stMalformed
  | some o =>
    if !o.formOk typ raw.length then stMalformed
    else if d.handleBad idx sub raw then stBadHandle
    else if o.acc != .ro && (!o.inRange raw || !d.relationOk e idx sub raw) then stRange
    else if d.lockedFor o role idx sub then stLocked
    else if o.acc == .rww && d.remaining (objKey idx sub) == 0 then stLimit
    else if d.conflict idx sub raw then stBusy
    else stOk

/-- The first status of R766 that a write meets, OK when it passes every row. -/
def Dev.writeStatus (d : Dev) (role idx sub typ : Nat) (raw : List Byte) : Nat :=
  let st := d.checkWrite (d.setValue idx sub raw) role idx sub typ raw
  if st != stOk then st
  else match objDef? idx sub with
    | some o => if o.acc.journaled && d.journalFull then stBusy else stOk
    | none => stOk

end Sys2Proof.Machine
end

