-- ==== Sys2Proof/Machine/Image.lean ====
section
/-! DEFINITION. The dictionary image: its layout, its checks, and what an accepted image changes (R81 to R101, R112). -/

namespace Sys2Proof.Machine

/-! ### Layout (R81 to R91) -/

/-- A SNAKE record (R86). -/
structure SnakeRec where
  snake : Nat
  owner : Nat
  squares : Nat
  deriving DecidableEq, Repr

/-- A DICT record (R89), its value as the image holds it. -/
structure DictRec where
  idx : Nat
  sub : Nat
  typ : Nat
  value : List Byte
  deriving DecidableEq, Repr

/-- What an image says. Squares stand with their global snake number and position. -/
structure ImageData where
  width : Nat
  height : Nat
  cadence : Nat
  depth : Nat
  devices : Nat
  quiet : Nat
  snakes : List SnakeRec
  squares : List (Nat × Nat × Square)
  dict : List DictRec
  imageId : List Byte
  hash : List Byte
  deriving DecidableEq, Repr

/-- A directory entry (R83). -/
structure Section where
  typ : Nat
  off : Nat
  size : Nat
  count : Nat
  deriving DecidableEq, Repr

/-- Directory entry i. -/
def sectionAt (img : List Byte) (i : Nat) : Section :=
  let o := 64 + 16 * i
  ⟨leAt img o 2, leAt img (o + 4) 4, leAt img (o + 8) 4, leAt img (o + 12) 4⟩

/-- DICT records of a body: n of them, filling it. -/
def dictRecords : Nat → List Byte → Option (List DictRec)
  | 0, b => if b.isEmpty then some [] else none
  | n + 1, b =>
    let len := leAt b 4 2
    let whole := 8 + 4 * ceilDiv len 4
    let idx := leAt b 0 2
    if b.length < whole ∨ !allZero (slice b 6 2) ∨ !allZero (slice b (8 + len) (whole - 8 - len)) ∨ idx < 0x4000 ∨ 0x7000 ≤ idx then
      none
    else (dictRecords n (b.drop whole)).map (fun l => ⟨idx, byteAt b 2, byteAt b 3, slice b 8 len⟩ :: l)

/-- Records of n bytes each. -/
def recordsOf (b : List Byte) (n count : Nat) : List (List Byte) := (List.range count).map (fun i => slice b (n * i) n)

/-- A SNAKE record read. -/
def readSnake (r : List Byte) : SnakeRec := ⟨leAt r 0 2, byteAt r 2, byteAt r 3⟩

/-- A SQUARE record read (R87). -/
def readSquare (r : List Byte) : Nat × Nat × Square :=
  (leAt r 0 2, byteAt r 2, ⟨byteAt r 3, leAt r 4 2, leAt r 6 2, leAt r 8 2, leAt r 10 2, leAt r 12 4, leAt r 16 4⟩)

/-- CRC of an image (R82): its CRC field taken as 0, the trailer left out. -/
def imageCrc (img : List Byte) : Nat :=
  crc32 (slice img 0 12 ++ List.replicate 4 0 ++ slice img 16 (img.length - 48))

/-- Two sections share a byte. -/
def Section.meets (a b : Section) : Bool := decide (a.off < b.off + b.size ∧ b.off < a.off + a.size)

/-- The key of a role, none while it is unset (R779, R780). -/
def Dev.roleKey (d : Dev) (role : Nat) : Option (List Byte) :=
  if role = 4 then some ((List.range 32).map Config.factoryKey)
  else if role < 4 then Tab.get? d.bank.objs (objKey 0x7030 (role + 1))
  else none

/-- The header, directory and sections of an image are well formed (R82 to R84). -/
def imageForm (img : List Byte) : Bool :=
  let n := leAt img 6 2
  let secs := (List.range n).map (sectionAt img)
  decide (img.length ≤ 0x200000) && decide (96 ≤ img.length) && leAt img 0 4 == 0x4D494652 && leAt img 4 2 == 1 &&
    (n == 3 || n == 4) && leAt img 8 4 == img.length && img.length % 4 == 0 && allZero (slice img 40 24) &&
    decide (64 + 16 * n + 32 ≤ img.length) &&
    (List.range n).all (fun i => allZero (slice img (66 + 16 * i) 2)) &&
    secs.map (·.typ) == [1, 2, 3, 4].take n &&
    secs.all (fun s => s.off % 4 == 0 && decide (64 + 16 * n ≤ s.off ∧ s.off + s.size ≤ img.length - 32)) &&
    secs.zipIdx.all (fun a => secs.zipIdx.all (fun b => a.2 == b.2 || !a.1.meets b.1)) &&
    leAt img 12 4 == imageCrc img

/-- Counts, sizes and reserved fields of the fixed records (R84 to R87). -/
def sectionsForm (board snake square : Section) (bb : List Byte) (sn sq : List (List Byte)) : Bool :=
  board.count == 1 && board.size == 32 && decide (1 ≤ snake.count ∧ snake.count ≤ 2048) && snake.size == 8 * snake.count &&
    decide (1 ≤ square.count ∧ square.count ≤ 16384) && square.size == 32 * square.count && allZero (slice bb 12 20) &&
    sn.all (fun r => allZero (slice r 4 4)) && sq.all (fun r => allZero (slice r 20 12) && decide (byteAt r 3 < 32))

/-- An image read: none where step 1 of R92 fails in its layout. -/
def parseImage (img : List Byte) : Option ImageData :=
  if !imageForm img then none
  else
    let board := sectionAt img 0
    let snake := sectionAt img 1
    let square := sectionAt img 2
    let bb := slice img board.off board.size
    let sb := slice img snake.off snake.size
    let qb := slice img square.off square.size
    let sn := recordsOf sb 8 snake.count
    let sq := recordsOf qb 32 square.count
    if !sectionsForm board snake square bb sn sq then none
    else
      let dict : Option (List DictRec) :=
        if leAt img 6 2 = 4 then
          let s := sectionAt img 3
          if 65535 < s.count then none else dictRecords s.count (slice img s.off s.size)
        else some []
      dict.map (fun recs =>
        { width := leAt bb 0 2, height := leAt bb 2 2, cadence := leAt bb 4 4, depth := byteAt bb 8, devices := byteAt bb 9,
          quiet := leAt bb 10 2, snakes := sn.map readSnake, squares := sq.map readSquare, dict := recs,
          imageId := slice img 16 16, hash := sha256 (bb ++ sb ++ qb) })

/-- A DICT value as a dictionary value: numbers turn to big-endian, texts and byte strings stay (R763). -/
def DictRec.raw (r : DictRec) : List Byte :=
  if r.typ = tStr ∨ r.typ = tBlob then r.value else r.value.reverse

/-- The object a record targets, by its index as held. -/
def DictRec.inner (r : DictRec) : Nat := innerIdx r.idx r.sub r.typ

/-! ### Step 2 (R69, R73, R77, R78, R85 to R88) -/

/-- A square's own limits on a board (R73, R345). -/
def squareOk (im : ImageData) (q : Square) : Bool :=
  q.x % 8 == 0 && q.y % 8 == 0 && q.w % 8 == 0 && q.h % 8 == 0 && decide (8 ≤ q.w ∧ q.w ≤ 512 ∧ 8 ≤ q.h ∧ q.h ≤ 512) &&
    decide (q.x + q.w ≤ im.width ∧ q.y + q.h ≤ im.height) && decide (q.calSet ≤ 255)

def Square.rect (q : Square) : Rect := ⟨q.x, q.y, q.w, q.h⟩

/-- No two of a list of squares share a pixel. -/
def squaresApart : List (Nat × Nat × Square) → Bool
  | [] => true
  | a :: t => t.all (fun b => !(a.2.2.rect.meets b.2.2.rect)) && squaresApart t

/-- Squares of a device by square number. -/
def ImageData.owned (im : ImageData) (dev : Nat) : Tab Square :=
  (im.squares.filter (fun q => q.1 / 256 = dev)).foldl (fun t q => Tab.set t (64 * (q.1 % 256) + q.2.1) q.2.2) []

/-- The ranges of an image but for its DICT records. -/
def imageRange (im : ImageData) : Bool :=
  im.width % 8 == 0 && decide (8 ≤ im.width ∧ im.width ≤ 32768) && im.height % 8 == 0 && decide (8 ≤ im.height ∧ im.height ≤ 16384) &&
    decide (23976 ≤ im.cadence ∧ im.cadence ≤ 480000) && (im.depth == 16 || im.depth == 12) &&
    decide (1 ≤ im.devices ∧ im.devices ≤ 8) && decide (20 ≤ im.quiet ∧ im.quiet ≤ 200) &&
    im.snakes.all (fun s => decide (s.snake < 2048) && s.owner == s.snake / 256 && decide (s.owner < im.devices) &&
      decide (1 ≤ s.squares ∧ s.squares ≤ 64)) &&
    decide ((im.snakes.map (·.snake)).eraseDups.length = im.snakes.length) &&
    im.snakes.all (fun s =>
      let ps := (im.squares.filter (fun q => q.1 == s.snake)).map (fun q => q.2.1)
      ps.length == s.squares && (List.range s.squares).all (fun p => decide (p ∈ ps))) &&
    im.squares.all (fun q => decide (q.1 ∈ im.snakes.map (·.snake)) && squareOk im q.2.2) && squaresApart im.squares &&
    (List.range im.devices).all (fun dev => rateFits (im.owned dev) im.depth im.cadence)

/-! ### The state that an image leaves -/

/-- The geometry of an image on this device (R113, R447). -/
def Dev.geometry (d : Dev) (img : List Byte) (im : ImageData) : GeoSt :=
  let own := d.ownIdx
  { image := some img, width := im.width, height := im.height, depth := im.depth, devices := im.devices,
    imageId := im.imageId, hash := im.hash, squares := if own < im.devices then im.owned own else [],
    others := (im.squares.filter (fun q => q.1 / 256 ≠ own)).map (fun q => (q.1 / 256, q.2.2)) }

/-- The DICT records put in force, in image order (R94). A timing change among them goes with the image's own. -/
def Dev.dictApply (d : Dev) (recs : List DictRec) : Dev :=
  recs.foldl (fun (d : Dev) r =>
    if d.isTiming r.inner r.sub && r.idx != 0x5030 then d
    else if 0x6200 ≤ r.idx ∧ r.idx ≤ 0x6201 ∧ 4 ≤ r.sub then
      { d with sns := { d.sns with bind := Tab.set d.sns.bind (4 * (r.idx - 0x6200) + (r.sub - 4)) (beOf r.raw) } }
    else d.setValue r.inner r.sub r.raw) d

/-- The state as the image leaves it once its change has taken effect: what its records and the stakes are checked against. -/
def Dev.afterImage (d : Dev) (img : List Byte) (im : ImageData) : Dev :=
  let (num, den) := periodOf im.cadence
  let d := { d with geo := d.geometry img im, sched := { d.sched with quiet := im.quiet } }
  ((d.put R.PUSH_PERIOD_NUM num).put R.PUSH_PERIOD_DEN den).dictApply im.dict

/-! ### The checks of R92 -/

/-- The geometry seal allows an image (R97). -/
def Dev.sealAllows (d : Dev) (hash : List Byte) : Bool :=
  match Tab.get? d.bank.objs (objKey 0x7020 1) with
  | none => true
  | some v => allZero v || v == hash

/-- The status of each record of an image, checked as a write of the integrator against the state the image leaves (R94);
a record for 0x5001:01 must repeat the image's cadence. -/
def Dev.dictStatus (d e : Dev) (im : ImageData) (r : DictRec) : Nat :=
  let st := d.checkWrite e 2 r.inner r.sub r.typ r.raw
  if r.idx = 0x5001 ∧ r.sub = 1 ∧ st ≠ stMalformed ∧ beOf r.raw ≠ im.cadence then stRange
  else if st = stBusy ∧ d.isTiming r.inner r.sub then stOk
  else st

/-- The HMAC of the trailer verifies under the integrator key (R90). -/
def Dev.imageSigned (d : Dev) (img : List Byte) : Bool :=
  match d.roleKey 2 with
  | some key => hmacSha256 key (slice img 0 (img.length - 32)) == slice img (img.length - 32) 32
  | none => false

/-- The first failure of R92: OK with the image read where there is none. -/
def Dev.checkImage (d : Dev) (img : List Byte) : Nat × Option ImageData :=
  match parseImage img with
  | none => (stMalformed, none)
  | some im =>
    if !d.imageSigned img then (stMalformed, none)
    else
      let e := d.afterImage img im
      let sts := im.dict.map (d.dictStatus e im)
      if stMalformed ∈ sts then (stMalformed, none)
      else if stBadHandle ∈ sts then (stBadHandle, none)
      else if !imageRange im || decide (stRange ∈ sts) then (stRange, none)
      else if !d.sealAllows im.hash || decide (stLocked ∈ sts) then (stLocked, none)
      else if d.timingBusy || decide (stBusy ∈ sts) || d.journalFull then (stBusy, none)
      else if e.stakesFail ≠ 0 then (stRefused, none)
      else (stOk, some im)

/-! ### Acceptance (R94, R95, R96, R98) -/

/-- The timing change that an image makes (R417). -/
def Dev.imageTiming (d : Dev) (img : List Byte) (im : ImageData) : Timing :=
  let (num, den) := periodOf im.cadence
  let src := match im.dict.find? (fun r => r.idx == 0x5030 && r.sub == 1) with
    | some r => beOf r.raw
    | none => d.src
  let modes := im.dict.filterMap (fun r =>
    if r.idx ≠ 0x5030 && d.isTiming r.inner r.sub && r.idx != 0x5001 then some (r.idx - 0x5032, beOf r.raw) else none)
  { ne := 0, num := num, den := den, quiet := im.quiet, src := src, refModes := modes, image := some img }

/-- REF_MODE records of an image, which hop in the next quiet interval (R663, R664). -/
def Dev.dictModes (d : Dev) (recs : List DictRec) : Dev :=
  recs.foldl (fun (d : Dev) r =>
    if 0x5040 ≤ r.idx ∧ r.idx < 0x5095 ∧ r.sub = 3 then
      { d with time := { d.time with refModePend := Tab.set d.time.refModePend (r.idx - 0x5040) (beOf r.raw) } }
    else d) d

/-- An image is accepted: its records are in force, image and records are one transaction, and its geometry and timing
change at turn ne. -/
def Dev.acceptImageAt (d : Dev) (img : List Byte) (im : ImageData) (answer : Option Reply) (ne : Nat) : Dev :=
  let t := d.imageTiming img im
  let hold := d.holdMs
  let tr := match answer with | some r => r.transport | none => 2
  let d : Dev := im.dict.foldl (fun (d : Dev) r =>
    if 0x6200 ≤ r.idx ∧ r.idx ≤ 0x6201 ∧ 4 ≤ r.sub then d.bindTo 2 tr (r.idx - 0x6200) (r.sub - 4) (beOf r.raw) else d) d
  let d := (d.dictApply im.dict).dictModes im.dict
  let d := if d.holdMs = hold then d else d.reconfigAll
  let objs := im.dict.filterMap (fun r =>
    match objDef? r.inner r.sub with
    | some o => if o.acc.journaled then some (objKey r.inner r.sub, r.raw) else none
    | none => none)
  let d := { d with bank := { d.bank with imageTurn := ne } }
  let d := d.domNeed (((im.owned d.ownIdx).map (fun p => 55 + p.1 / 256)).eraseDups)
  (d.journal { objs := objs, image := some img, answer := answer }).scheduleAt ne t

/-- An image is offered to this device (R92, R96, R112): its status, and the state it leaves. A member of a table that does
not rule checks it for its own part and passes it to the ruler, which distributes it. -/
def Dev.offerImage (d : Dev) (img : List Byte) (answer : Option Reply) : Nat × Dev :=
  let (st, im) := d.checkImage img
  let d := { d with bank := { d.bank with imageStatus := st } }
  match im with
  | none => (st, d)
  | some im =>
    let ne := d.time.turn + d.lead
    if d.rules then
      let d := d.acceptImageAt img im answer ne
      (st, d.decree [.image img ne])
    else
      let d := d.tellRuler (.imageLoad img)
      (st, d.reply? answer)

/-! ### What takes effect (R98 to R101, R422, R447, R508) -/

/-- The geometry that a tile is told of differs: W, H, ORIENT, MIRROR, or the output depth (R484). -/
def tileChanged (depth : Bool) (a b : Square) : Bool :=
  depth || a.w != b.w || a.h != b.h || bits a.flags 2 0 != bits b.flags 2 0

/-- Squares of this device that are told of a change with GEOM 1 (R99, R484). -/
def Dev.geomSquares (d : Dev) (g : GeoSt) : List Nat :=
  g.squares.filterMap (fun p => match d.square? p.1 with
    | some q => if tileChanged (d.geo.depth != g.depth) q p.2 then some p.1 else none
    | none => none)

/-- Snakes whose square count or any TILE_TYPE changes (R100). -/
def Dev.changedSnakes (d : Dev) (g : GeoSt) : List Nat :=
  (List.range 256).filter (fun s =>
    let a := d.geo.squares.filter (fun p => p.1 / 64 = s)
    let b := g.squares.filter (fun p => p.1 / 64 = s)
    a.map (·.1) != b.map (·.1) || a.map (fun p => p.2.tileType) != b.map (fun p => p.2.tileType))

/-- Every patch of the squares named has its shown PCRC listed, so that the echo of the last content compares with the
geometry it was shown under. -/
def Dev.listShown (d : Dev) (ns : List Nat) : Dev :=
  ns.foldl (fun (d : Dev) n => match d.square? n with
    | none => d
    | some q => (squarePatches n q).foldl (fun (d : Dev) k =>
        match Tab.get? d.push.shown k with
        | some _ => d
        | none => { d with push := { d.push with shown := Tab.set d.push.shown k (d.zeroPcrc k) } }) d) d

/-- A device whose index is not below DEVICES owns no snake (R447). -/
def Dev.indexError (d : Dev) : Dev :=
  (d.raise 12).ledger ⟨false, 0x0A02, 10, 1, leBytes 1 d.ownIdx, false⟩

/-- The table state that a change of DEVICES brings on a running device (R446, R447, R453). -/
def Dev.tableResize (d : Dev) : Dev :=
  if d.geo.devices ≤ 1 ∨ d.geo.devices ≤ d.ownIdx then
    let d := if d.geo.devices ≤ d.ownIdx ∧ 1 < d.geo.devices then d.indexError else d
    { (d.put R.PUSH_TABLE tsAlone) with tbl := { d.tbl with part := [] } }
  else if d.table = tsAlone then
    let d := (d.put R.PUSH_TABLE tsDivided).putRuler d.ownIdx
    ((d.putEpoch (d.get R.PUSH_EPOCH + 1)).raise 837).raise 839
  else d

/-- The geometry of an image is in force for the content being latched (R99, R422). -/
def Dev.geometryApply (d : Dev) (img : List Byte) : Dev :=
  match parseImage img with
  | none => d
  | some im =>
    let g := d.geometry img im
    let gone := (d.geo.squares.filter (fun p => Tab.get? g.squares p.1 != some p.2)).map (·.1)
    let new := (g.squares.filter (fun p => Tab.get? d.geo.squares p.1 != some p.2 || d.geo.depth != g.depth)).map (·.1)
    let all := if d.geo.depth ≠ g.depth then d.geo.squares.map (·.1) else gone
    let told := d.geomSquares g
    let reenum := d.changedSnakes g
    let d := gone.foldl (fun (d : Dev) n => d.stopSensing n) (d.listShown all)
    let d := { d with
      geo := g
      push := { d.push with
        dmg := d.push.dmg.filter (fun k => !decide (patchSquare k ∈ all))
        awaits := Tab.drop d.push.awaits (fun n => (Tab.get? g.squares n).isNone)
        rezero := told, reenum := reenum } }
    let d := new.foldl (fun (d : Dev) n => d.markSquare n) d
    (d.senseRefresh.reheld.planDirty.tableResize).flowRegs

/-- At the present instant of the change: the squares told of it show zero codes where they do not flip (R508), and
changed snakes are enumerated (R100). -/
def Dev.geometryShown (d : Dev) : Dev :=
  let z := d.push.rezero
  let snakes := d.push.reenum
  let d := { d with push := { d.push with
    shown := Tab.drop d.push.shown (fun k => decide (k / 256 ∈ z)), prev := Tab.drop d.push.prev (fun k => decide (k / 256 ∈ z)),
    rezero := [], reenum := [] } }
  snakes.foldl (fun (d : Dev) s =>
    if d.snakeSquares s = 0 then d.portDown s
    else if d.port s = psDown then d.portUp s
    else if d.port s = psLocking then d
    else if d.port s = psFatal then d.toLocking s
    else (d.putPort s psRecover).startWalk s 0 0) d

end Sys2Proof.Machine
end

