-- ==== Sys2Proof/Machine/Push.lean ====
section
/-! DEFINITION. Pushing a content: calibration into push buffers, PUSH, PRESENT and CADENCE frames, acknowledgement and
repeat, underrun, echo, hold (R392 to R411, R419, R432 to R436, R443, R482 to R484, R497). -/

namespace Sys2Proof.Machine

/-- A bit of a snake's push register set, with its event (R457, R758). -/
def Dev.psnFlag (d : Dev) (s : Nat) (f : Fld) : Dev := (d.flag f).raiseD (432 + s) (2 ^ (20 + f.lo))
/-- The same for UNDERRUN, LATE and MISS, which raise at most once per turn. -/
def Dev.psnFlagOnce (d : Dev) (s : Nat) (f : Fld) : Dev :=
  (d.flag f).raiseOnceKey (320000 + 32 * s + f.lo) (432 + s) (2 ^ (20 + f.lo))

/-- The snake of a patch. -/
def snakeOf (k : Nat) : Nat := patchSquare k / 64

/-- The port takes pushes for a square: it serves it, and the square is not about to be enumerated anew (R100, R511). -/
def Dev.pushable (d : Dev) (n : Nat) : Bool := d.served n && !decide (n / 64 ∈ d.push.reenum)

/-- The device composes and pushes: between the opening of the window and the push deadline. -/
def Dev.pushing (d : Dev) : Bool := d.running && (d.sched.phase == .compose || d.sched.phase == .composed)

/-! ### The calibration unit (R398 to R404) -/

/-- Patches that wait for the calibration unit of quarter q. -/
def Dev.emitQ (d : Dev) (q : Nat) : List Emitted := Tab.getD d.comp.emit q []

/-- A patch that is to be pushed: damaged, its square served, not left out already. -/
def Dev.toPush (d : Dev) (k : Nat) : Bool :=
  decide (k ∈ d.push.latched) && !decide (k ∈ d.push.left) && d.pushable (patchSquare k)

/-- The unit may begin a patch: its snake's buffer has room, or it goes to none (R400). -/
def Dev.mayBegin (d : Dev) (e : Emitted) : Bool :=
  !d.toPush e.patch || decide (d.get (R.PSN_OCC (snakeOf e.patch)) + d.patchBytes e.patch ≤ 65536)

/-- A snake is urgent (R403). -/
def Dev.urgent (d : Dev) (s : Nat) : Bool :=
  decide (d.get (R.PSN_OCC s) < d.get R.PUSH_URGENT * 32) &&
    (d.emitQ (quarterOf s)).any (fun e => snakeOf e.patch == s && d.toPush e.patch)

/-- `URGENT` of a snake as it stands. -/
def Dev.urgentReg (d : Dev) (s : Nat) : Dev :=
  let v := if d.urgent s then 1 else 0
  if d.get (R.PSN_URGENT s) = v then d else d.put (R.PSN_URGENT s) v

/-- `URGENT` of the snakes of a quarter. -/
def Dev.urgentRegs (d : Dev) (q : Nat) : Dev := (List.range 64).foldl (fun (d : Dev) i => d.urgentReg (64 * q + i)) d

/-- The urgent snake with the fewest bytes buffered, the lower number at a tie (R403). -/
def Dev.mostUrgent (d : Dev) (ss : List Nat) : Option Nat :=
  ss.foldl (fun (best : Option Nat) s =>
    match best with
    | none => some s
    | some b =>
      let x := d.get (R.PSN_OCC s)
      let y := d.get (R.PSN_OCC b)
      if x < y ∨ (x = y ∧ s < b) then some s else some b) none

/-- The patch that the unit of a quarter begins next (R400, R403). -/
def Dev.nextEmitted (d : Dev) (q : Nat) : Option Emitted :=
  let can := (d.emitQ q).filter d.mayBegin
  let hot := ((can.map (fun e => snakeOf e.patch)).eraseDups).filter d.urgent
  match d.mostUrgent hot with
  | some s => can.find? (fun e => snakeOf e.patch == s)
  | none => can.head?

/-- A calibrated patch put at the end of its snake's buffer, its PCRC recorded (R398, R433). -/
def Dev.bufferPatch (d : Dev) (k : Nat) (codes : List Code) : Dev :=
  let bytes := packCodes d.depth12 codes
  let s := snakeOf k
  let d := { d with push := { d.push with pushed := Tab.set d.push.pushed k (pcrc (patchNum k) bytes) } }
  d.putBuf s (d.buf s ++ [BufPatch.mk k bytes])

/-- PATCH_CALIBRATE (R398, R344): the calibration unit of a quarter converts a patch and writes it to the push buffer of
its snake; a patch composed for a check alone goes to none (R439). -/
def execPatchCalibrate (quarter : Nat) (s : State) : Out :=
  if 4 ≤ quarter then .refused .noSuchUnit
  else match s.dev.nextEmitted quarter with
  | none => .next s
  | some e =>
    let rest := (s.dev.emitQ quarter).filter (fun x => x.patch != e.patch)
    let s := s.upd (fun d => { d with comp := { d.comp with emit := Tab.set d.comp.emit quarter rest } })
    match s.dev.square? (patchSquare e.patch) with
    | none => .next s
    | some sq =>
      let (codes, s) := s.convert e.patch sq e.pix
      .next (s.upd (fun d =>
        let d := d.checkCode e.patch codes
        let d :=
          if d.toPush e.patch then d.bufferPatch e.patch codes
          else if e.patch ∈ d.push.latched then (d.leaveOut e.patch).plFire
          else d
        d.urgentRegs quarter))

/-! ### PUSH frames (R399, R401, R480) -/

/-- Bytes of the largest patch of a snake's squares. -/
def Dev.largestPatch (d : Dev) (s : Nat) : Nat :=
  (d.allPatches.filter (fun k => snakeOf k == s)).foldl (fun m k => max m (d.patchBytes k)) 0

/-- A PUSH frame of a buffered patch starts: its bytes move to the retry store, and it awaits its acknowledgement. -/
def Dev.sendPush (d : Dev) (s : Nat) (b : BufPatch) (rest : List BufPatch) : Dev :=
  let n := patchSquare b.patch
  let (seq, d) := d.nextSeq n
  let ws := frameOf { ftype := ftPush, pos := n % 64, seq := seq, arg := patchNum b.patch } (bytesWords (ceilDiv b.bytes.length 8) b.bytes) false
  let d := (d.putBuf s rest).sendDown s ftPush (n % 64) ws
  let d := d.putFlights n (d.flights n ++ [⟨seq, ftPush, b.patch, 1, ws⟩])
  let d := d.put (R.PSN_RETRY_OCC s) (d.get (R.PSN_RETRY_OCC s) + b.bytes.length)
  let d := d.bump (R.PSN_PUSH_BYTES s) b.bytes.length
  let d := { d with snk := { d.snk with tx := Tab.set d.snk.tx s b.patch } }
  (d.put (R.PSN_RETRY_FULL s) 0).urgentReg s

/-- PUSH_FRAME_START (R401): the port begins the patch at the head of its buffer, while the retry store has room for a
whole frame of its largest patch (R399) and the cutoff has not passed (R405). -/
def execPushFrameStart (snake : Nat) (s : State) : Out :=
  onUnit (decide (snake < 256)) s (fun d =>
    if !d.pushing || d.push.cut then d
    else match d.buf snake with
    | [] => d
    | b :: rest =>
      if !d.toPush b.patch then ((d.putBuf snake rest).leaveOut b.patch).plFire
      else if 196608 < d.get (R.PSN_RETRY_OCC snake) + d.largestPatch snake then d.put (R.PSN_RETRY_FULL snake) 1
      else d.sendPush snake b rest)

/-! ### Underrun (R409 to R411) -/

/-- The payload of a frame cut after n pixels of p bytes, the last one sent repeated to the end. -/
def repeatPixel (p n : Nat) (bytes : List Byte) : List Byte :=
  let kept := max 1 n
  let last := slice bytes (p * (kept - 1)) p
  if bytes.length ≤ p * kept then bytes
  else (bytes.take (p * kept) ++ (List.range (ceilDiv bytes.length p)).flatMap (fun _ => last)).take bytes.length

/-- The same with pixels of 36 bits (R480). -/
def repeatPixel12 (n : Nat) (bytes : List Byte) : List Byte :=
  let v := leOf bytes
  let kept := max 1 n
  let last := v / 2 ^ (36 * (kept - 1)) % 2 ^ 36
  let total := bytes.length * 8 / 36
  leBytes bytes.length ((List.range total).foldl (fun a i => a + (if i < kept then v / 2 ^ (36 * i) % 2 ^ 36 else last) * 2 ^ (36 * i)) 0)

/-- The frame of a patch as it leaves with UNDERRUN after n pixels (R409, R476). -/
def underrunFrame (twelve : Bool) (n : Nat) (ws : List LinkWord) : List LinkWord :=
  match readHeader (ws.headD 0) with
  | none => ws
  | some h =>
    let pay := ((ws.drop 1).take h.len).flatMap wordBytes
    let cut := if twelve then repeatPixel12 n pay else repeatPixel 6 n pay
    frameOf h (bytesWords h.len cut) true

/-- The last frame sent down a snake, if it is this one, put another way. -/
def replaceFrame (s : Nat) (ws new : List LinkWord) : List OutMsg → List OutMsg
  | [] => []
  | m :: t => if m = .snakeFrame s ws then .snakeFrame s new :: t else m :: replaceFrame s ws new t

/-- VISIBLE of a layer record set to 0. -/
def hideRecord (r : List Byte) : List Byte := putLe r 5 1 (clrBit (byteAt r 5) 0)

/-- A layer is switched off (R410): its record shows VISIBLE 0, in a change that waits too. -/
def Dev.layerOff (d : Dev) (h : Nat) : Dev :=
  match d.handleOf? clsLayer h with
  | none => d
  | some c =>
    let i := handleIdx h
    let d := d.modChan clsLayer i (fun c => { c with record := hideRecord c.record })
    let hide (o : Owed) : Owed := match o.kind with
      | .change cls idx (some b) => if cls = clsLayer ∧ idx = i then { o with kind := .change cls idx (some { b with record := hideRecord b.record }) } else o
      | _ => o
    let d := { d with q := { d.q with owed := d.q.owed.map hide } }
    ((d.markLayer c.record).bump R.PUSH_LAYER_OFF_CNT 1).flagRaise R.PUSH_LAYER_OFF 841

/-- The layer that an underrun on a patch switches off: the topmost whose rung is not 0 (R288, R410). -/
def Dev.underrunLayer (d : Dev) (k : Nat) : Option Nat :=
  (((d.layersOver (d.patchRect k)).filter (fun x => lRung x.2.record != 0)).map (fun x => x.2.handle)).getLast?

/-- A layer-off: in a part of a table it goes through the ruler, to apply on every device (R411). -/
def Dev.layerOffAsk (d : Dev) (h : Nat) : Dev :=
  if d.grouped && !d.rules then d.tellRuler (.layerOff h) else (d.layerOff h).decree [.layerOff h]

/-- An underrun of the frame in progress of a snake (R409, R410). The number of pixels sent before it is open. -/
def Dev.underrunOn (d : Dev) (s k : Nat) (f : Flight) : Dev :=
  let n := patchSquare k
  let (x, d) := d.fresh 15
  let new := underrunFrame d.depth12 (x % (d.patchRect k).area) f.words
  let d := { d with out := replaceFrame s f.words new d.out }
  let d := (d.dropFlight n f).leaveOut k
  let d := { d with
    push := { d.push with underrun := k :: d.push.underrun, pushed := Tab.erase d.push.pushed k }
    snk := { d.snk with tx := Tab.erase d.snk.tx s } }
  let d := (d.bump R.PUSH_UNDERRUN_CNT 1).bump (R.PSN_SNAKE_UNDERRUNS s) 1
  let d := (d.psnFlagOnce s (R.PSN_UNDERRUN s)).plFire
  if d.get R.PUSH_UR_MODE = 1 then
    match d.underrunLayer k with
    | some h => d.layerOffAsk h
    | none => d
  else d

/-- UNDERRUN (R409). -/
def execUnderrun (snake : Nat) (s : State) : Out :=
  onUnit (decide (snake < 256)) s (fun d =>
    match Tab.get? d.snk.tx snake with
    | none => d
    | some k =>
      match (d.flights (patchSquare k)).find? (fun f => f.ftype == ftPush && f.patch == k) with
      | some f => d.underrunOn snake k f
      | none => d)

/-! ### The cutoff (R405, R406) -/

/-- A patch is too late for this content (R406). -/
def Dev.latePatch (d : Dev) (k : Nat) : Dev :=
  ((d.leaveOut k).bump R.PUSH_LATE_CNT 1).psnFlagOnce (snakeOf k) (R.PSN_LATE (snakeOf k))

/-- PUSH_CUTOFF (R405): every emitted patch not acknowledged by now is left out of the flip map. -/
def execPushCutoff (s : State) : Out :=
  .next (s.upd fun d =>
    if !d.pushing || d.push.cut then d
    else
      let d := { d with push := { d.push with cut := true } }
      let late := d.push.latched.filter (fun k => decide (k ∈ d.push.emitted) && !decide (k ∈ d.push.acked) && !decide (k ∈ d.push.left))
      (late.foldl Dev.latePatch d).plFire)

/-! ### PRESENT frames (R48, R393, R426, R482, R483) -/

/-- Patches of a square in the content being pushed. -/
def Dev.latchedOf (d : Dev) (n : Nat) : List Nat := d.push.latched.filter (fun k => patchSquare k == n)

/-- Every PUSH frame of a square for the turn has been acknowledged or given up. -/
def Dev.pushesEnded (d : Dev) (n : Nat) : Bool :=
  d.push.cut || (d.latchedOf n).all (fun k => decide (k ∈ d.push.acked) || decide (k ∈ d.push.left))

/-- The drive level of a square (R352). -/
def Dev.dlOf (d : Dev) (n : Nat) : Nat := Tab.getD d.cal.dl n 0

/-- The PRESENT frame of a square goes out (R482). -/
def Dev.sendPresent (d : Dev) (n : Nat) : Dev :=
  let s := n / 64
  let flips := d.push.acked.filter (fun k => patchSquare k == n)
  let (seq, d) := d.nextSeq n
  let pay := [BitVec.ofNat 64 (linkTime (d.nextPresNs * perNs) + d.dlOf n * 2 ^ 48), BitVec.ofNat 64 d.comp.content] ++
    mapWords (flips.map patchNum)
  let ws := frameOf { ftype := ftPresent, pos := n % 64, seq := seq } pay false
  let d := d.sendDown s ftPresent (n % 64) ws
  let d := d.putFlights n (d.flights n ++ [⟨seq, ftPresent, 0, 1, ws⟩])
  { d with push := { d.push with fmap := Tab.set d.push.fmap n flips } }

/-- PRESENT_FRAME_START (R483). -/
def execPresentFrameStart (snake pos : Nat) (s : State) : Out :=
  onUnit (decide (snake < 256) && decide (pos < 64)) s (fun d =>
    let n := 64 * snake + pos
    if d.pushing && d.push.sends && d.pushable n && (Tab.get? d.push.fmap n).isNone && d.pushesEnded n then d.sendPresent n else d)

/-! ### CADENCE frames (R419, R484) -/

/-- The square as it will be at Ne, and whether the tile is told of a change of its geometry (R484). -/
def Dev.cadenceSquare (d : Dev) (n : Nat) (t : Timing) (q : Square) : Square × Bool × Bool :=
  if d.time.turn + 1 = t.ne then (q, decide (n ∈ d.push.rezero), d.depth12)
  else match t.image.bind parseImage with
    | none => (q, false, d.depth12)
    | some im =>
      let g := d.geometry [] im
      match Tab.get? g.squares n with
      | some r => (r, tileChanged (d.geo.depth != g.depth) q r, g.depth == 12)
      | none => (q, false, d.depth12)

/-- The CADENCE frame of a square goes out. -/
def Dev.sendCadence (d : Dev) (n : Nat) (t : Timing) (q : Square) : Dev :=
  let s := n / 64
  let (r, geom, twelve) := d.cadenceSquare n t q
  let b (c : Bool) (i : Nat) : Nat := if c then 2 ^ i else 0
  let (seq, d) := d.nextSeq n
  let pay := [BitVec.ofNat 64 t.ne, BitVec.ofNat 64 (t.num / t.den % 2 ^ 32 + b geom 32),
    BitVec.ofNat 64 (r.w + r.h * 2 ^ 16 + r.orient * 2 ^ 32 + b r.mirror 34 + b twelve 35)]
  let ws := frameOf { ftype := ftCadence, pos := n % 64, seq := seq } pay false
  let d := d.sendDown s ftCadence (n % 64) ws
  d.putFlights n (d.flights n ++ [⟨seq, ftCadence, 0, 1, ws⟩])

/-- CADENCE_FRAME_START (R419): in the push windows of turns Ne − 3 to Ne − 1. -/
def execCadenceFrameStart (snake pos : Nat) (s : State) : Out :=
  onUnit (decide (snake < 256) && decide (pos < 64)) s (fun d =>
    let n := 64 * snake + pos
    match d.sched.timing, d.square? n with
    | some t, some q =>
      if d.pushing && !d.push.cut && t.announced && decide (t.ne ≤ d.time.turn + 3) && decide (d.time.turn < t.ne) && d.pushable n then
        d.sendCadence n t q
      else d
    | _, _ => d)

/-! ### Acknowledgement, NAK and repeat (R496, R497) -/

/-- A PUSH frame is given up: its patch leaves the flip map (R406, R497). -/
def Dev.giveUp (d : Dev) (n : Nat) (f : Flight) : Dev :=
  let d := (d.dropFlight n f).leaveOut f.patch
  { d with snk := { d.snk with gave := if n ∈ d.snk.gave then d.snk.gave else n :: d.snk.gave } }

/-- A frame is sent again with its own SEQ. -/
def Dev.repeatFlight (d : Dev) (n : Nat) (f : Flight) : Dev :=
  let d := d.putFlights n ((d.flights n).map (fun g => if g.seq = f.seq then { f with tries := f.tries + 1 } else g))
  (d.bump (R.SNK_REPEAT_CNT (n / 64)) 1).sendDown (n / 64) f.ftype (n % 64) f.words

/-- A frame was refused or not acknowledged (R497). -/
def Dev.notAcked (d : Dev) (n : Nat) (f : Flight) : Dev :=
  if f.ftype = ftPush then
    if !d.push.cut && d.pushing && decide (f.tries ≤ d.get (R.SNK_PUSH_RETRY (n / 64))) then d.repeatFlight n f
    else (d.giveUp n f).plFire
  else if f.ftype = ftPresent then if d.pushing then d.repeatFlight n f else d
  else d.dropFlight n f

/-- A frame is acknowledged (R497). -/
def Dev.ackFlight (d : Dev) (n : Nat) (f : Flight) : Dev :=
  let d := d.dropFlight n f
  let add (l : List Nat) (x : Nat) : List Nat := if x ∈ l then l else x :: l
  if f.ftype = ftPush then
    if d.push.cut || decide (f.patch ∈ d.push.left) then d.leaveOut f.patch
    else { d with push := { d.push with acked := add d.push.acked f.patch } }
  else if f.ftype = ftPresent then { d with push := { d.push with presAck := add d.push.presAck n } }
  else { d with push := { d.push with cadAck := add d.push.cadAck n } }

/-- ACK_RECEIVED (R472, R496): an upstream side word of a snake. -/
def execAckReceived (snake : Nat) (side : LinkWord) (s : State) : Out :=
  onUnit (decide (snake < 256)) s (fun d =>
    match upSide side with
    | none => d
    | some u =>
      if u.stype ≠ 4 || !u.owned || d.port snake == psDown || d.port snake == psLocking || decide (d.snakeSquares snake ≤ u.ublk) then d
      else
        let n := 64 * snake + u.ublk
        let d := { d with push := { d.push with holding := putMember d.push.holding n u.hold } }
        let d := ((d.flights n).filter (fun f => decide (f.seq ∈ u.seqs))).foldl (fun (d : Dev) f => d.ackFlight n f) d
        d.plFire)

/-- ACK_TIMEOUT (R497): no acknowledgement of a frame in time. -/
def execAckTimeout (snake pos seq : Nat) (s : State) : Out :=
  onUnit (decide (snake < 256) && decide (pos < 64)) s (fun d =>
    let n := 64 * snake + pos
    match (d.flights n).find? (fun f => f.seq == seq) with
    | none => d
    | some f => ((d.bump (R.SNK_ACK_TO_CNT snake) 1).snkFlagOnce snake (R.SNK_ACK_TO snake)).notAcked n f)

/-- NAK (R494, R497). A NAK of reason LATE or ORDER makes a ledger entry. -/
def execNak (snake owner : Nat) (words : List LinkWord) (s : State) : Out :=
  onUpFrame snake owner ftNak words s (fun _ pay d =>
    let n := 64 * snake + owner
    let seq := bits (payWord pay 0) 11 0
    let reason := bits (payWord pay 0) 15 12
    let d := (d.bump (R.SNK_NAK_CNT snake) 1).snkFlagOnce snake (R.SNK_NAK snake)
    let d := if reason = 3 then d.snkLedger 5 snake owner n seq 0 else if reason = 4 then d.snkLedger 4 snake owner n seq 0 else d
    match (d.flights n).find? (fun f => f.seq == seq) with
    | none => d
    | some f => d.notAcked n f)

/-! ### Echo (R432 to R436) -/

/-- The XOR of the PCRCs of a square's patches as shown (R432). In the last turn before a geometry change the patches are
those that the tile still shows. -/
def Dev.echoValue (d : Dev) (n : Nat) : Nat :=
  let moved := decide (n ∈ d.push.rezero) && !d.inQuiet
  let listed := (d.push.shown.filter (fun p => p.1 / 256 == n)).foldl (fun a p => a ^^^ p.2) 0
  if moved then listed
  else match d.square? n with
    | none => listed
    | some q => (squarePatches n q).foldl (fun a k => if (Tab.get? d.push.shown k).isSome then a else a ^^^ d.zeroPcrc k) listed

/-- The miss map of an ECHO: those patches show what they showed before, and are damaged (R434, R436). -/
def Dev.echoMiss (d : Dev) (n : Nat) (missed : List Nat) : Dev :=
  let ks := missed.map (fun p => 256 * n + p)
  let d := ks.foldl (fun (d : Dev) k =>
    match Tab.get? d.push.prev k with
    | some v => { d with push := { d.push with shown := Tab.set d.push.shown k v, prev := Tab.erase d.push.prev k } }
    | none => d) d
  let d := { d with push := { d.push with st := Tab.drop d.push.st (fun k => decide (k ∈ ks)) } }
  if ks.isEmpty then d else (d.markAll (ks.filter (fun k => decide (0 < (d.patchRect k).area)))).psnFlagOnce (n / 64) (R.PSN_MISS (n / 64))

/-- The echo of a square has come or has failed to: its patches in VERIFY return to IDLE (R397). -/
def Dev.echoOver (d : Dev) (n : Nat) : Dev :=
  { d with push := { d.push with
    st := d.push.st.filter (fun p => !(patchSquare p.1 == n && p.2 == 2)), awaits := Tab.erase d.push.awaits n } }

/-- FAULTY squares of a snake, counted. -/
def Dev.faultyReg (d : Dev) (s : Nat) : Dev := d.put (R.PSN_FAULTY_N s) ((d.push.faulty.filter (fun n => n / 64 == s)).length)

/-- An echo mismatch or timeout of a square (R434, R435). -/
def Dev.echoFail (d : Dev) (n : Nat) (cnt flag : Fld) : Dev :=
  let s := n / 64
  let d := ((d.bump cnt 1).bump (R.PSN_SNAKE_ECHO_FAILS s) 1).put (R.PSN_LAST_SQ s) n
  let d := (d.psnFlag s flag).markSquare n
  let fails := Tab.getD d.push.fails n 0 + 1
  let d := { d with push := { d.push with fails := Tab.set d.push.fails n fails } }
  if fails < d.get R.PUSH_ECHO_FAULT_N ∨ n ∈ d.push.faulty then d
  else
    let d := { d with push := { d.push with faulty := n :: d.push.faulty } }
    ((d.faultyReg s).psnFlag s (R.PSN_FAULTY s)).snkLedger 8 s (n % 64) n fails 0

/-- A square echoes what it should (R435). -/
def Dev.echoMatch (d : Dev) (n : Nat) : Dev :=
  let fails := Tab.getD d.push.fails n 0
  let d := { d with push := { d.push with fails := Tab.erase d.push.fails n } }
  if n ∈ d.push.faulty then
    let d := { d with push := { d.push with faulty := d.push.faulty.filter (· ≠ n) } }
    (d.faultyReg (n / 64)).snkLedger 9 (n / 64) (n % 64) n fails 0
  else d

/-- ECHO (R434 to R436, R490): the miss map first, then the comparison (R454). -/
def execEcho (snake owner : Nat) (words : List LinkWord) (s : State) : Out :=
  onUpFrame snake owner ftEcho words s (fun _ pay d =>
    let n := 64 * snake + owner
    if Tab.get? d.push.awaits n ≠ some (payWord pay 0) then d.upBad snake
    else
      let d := (d.echoMiss n (payMap pay 2)).echoOver n
      if bits (payWord pay 1) 31 0 = d.echoValue n then d.echoMatch n
      else d.echoFail n R.PUSH_ECHO_MIS_CNT (R.PSN_ECHO_MIS snake))

/-! ### The push deadline (R63, R408, R419) -/

/-- A square that did not acknowledge its PRESENT frame (R408). -/
def Dev.presentNack (d : Dev) (n : Nat) : Dev :=
  let d := (d.markSquare n).psnFlag (n / 64) (R.PSN_PRES_NACK (n / 64))
  let d := ((d.flights n).filter (fun f => f.ftype == ftPresent)).foldl (fun (d : Dev) f => d.dropFlight n f) d
  { d with snk := { d.snk with gave := if n ∈ d.snk.gave then d.snk.gave else n :: d.snk.gave } }

/-- Squares that acknowledged none of the CADENCE frames of a change that takes effect next (R419). -/
def Dev.cadenceNacks (d : Dev) : Dev :=
  match d.sched.timing with
  | some t =>
    if t.announced ∧ t.ne = d.time.turn + 1 then
      let d := (d.geo.squares.filter (fun p => d.served p.1 && !decide (p.1 ∈ d.push.cadAck))).foldl
        (fun (d : Dev) p => d.psnFlag (p.1 / 64) (R.PSN_CAD_NACK (p.1 / 64))) d
      { d with push := { d.push with cadAck := [] } }
    else d
  | none => d

/-- PUSH_DEADLINE (R47, R63): what is owed by now and has not come. -/
def execPushDeadline (s : State) : Out :=
  .next (s.upd fun d =>
    if !d.pushing then d
    else
      let d := { d with sched := { d.sched with phase := .pushed } }
      let nacks := (d.push.fmap.filter (fun p => !decide (p.1 ∈ d.push.presAck))).map (·.1)
      let d := nacks.foldl Dev.presentNack d
      let late := (d.push.awaits.filter (fun p => p.2 == d.time.turn)).map (·.1)
      let d := late.foldl (fun (d : Dev) n => (d.echoOver n).echoFail n R.PUSH_ECHO_TO_CNT (R.PSN_ECHO_TO (n / 64))) d
      d.cadenceNacks.sendWaiting)

/-- HOLD_TIME_EXPIRY (R443): a square has not been presented for longer than HOLD_TIME. -/
def execHoldTimeExpiry (square : Nat) (s : State) : Out :=
  onUnit (decide (square < 16384)) s (fun d =>
    if d.time.now < Tab.getD d.push.lastPres square 0 + d.holdMs * perMs then d else d.markSquare square)

end Sys2Proof.Machine
end

