-- ==== Sys2Proof/Machine/Turn.lean ====
section
/-! DEFINITION. The three instants of a turn that act on the whole board: the opening of the compose window, the compose
deadline, the present instant (R44 to R57, R60, R211 to R213, R315 to R317, R325, R394 to R397, R407, R415 to R428, R433). -/

namespace Sys2Proof.Machine

/-! ### Source frames of layers (R60, R315 to R317, R542, R560) -/

/-- A source frame: surface key, size, and which frame of the source it is. -/
structure SrcFrame where
  key : Nat
  w : Nat
  h : Nat
  frame : Nat
  deriving DecidableEq, Repr

/-- Key of frame surface j of ingest channel i of another device. -/
def remoteKey (dev i j : Nat) : Nat := remoteBase + 4 * (512 * dev + i) + j

/-- A frame in the surface under a key. -/
def Dev.srcOf (d : Dev) (key frame : Nat) : Option SrcFrame := (d.surf? key).map (fun u => ⟨key, u.w, u.h, frame⟩)

/-- The frame that an ingest channel shows: its newest ready one, or its FALLBACK while it is STALE (R542). -/
def Dev.ingestSrc (d : Dev) (i : Nat) (rec : List Byte) : Option SrcFrame :=
  let c := d.ing? i
  if c.stale && iFallback rec != 0 then d.srcOf (handleIdx (iFallback rec)) (2 ^ 32)
  else c.newest.bind (fun r => d.srcOf (frameKey i r.slot) r.serial)

/-- The frame that a clip channel shows; a frame of another clip is another frame. -/
def Dev.clipSrc (d : Dev) (i : Nat) : Option SrcFrame :=
  let c := d.clip? i
  c.cur.bind (fun x => d.srcOf x.2 (leAt c.inForce 4 4 * 2 ^ 32 + x.1))

/-- A CAPTURE layer wrote a pixel of its buffer in the content before this one (R319). -/
def Dev.captureWrote (d : Dev) (i : Nat) : Bool :=
  match Tab.get? d.comp.latched i with
  | some l => d.captures.any (fun c => c.handle == l.handle) && d.push.emitted.any (fun k => lMeets l.record (d.patchRect k))
  | none => false

/-- The buffer of the previous content of a CAPTURE layer of this device (R315). -/
def Dev.captureSrc (d : Dev) (i : Nat) (c : Chan) (old : Option Latch) (content : Nat) : Option SrcFrame :=
  let r := match Tab.get? d.comp.latched i with | some l => l.record | none => c.record
  if lKind r ≠ 2 ∨ lTargetDev r ≠ d.ownIdx then none
  else
    let seen := match old with | some l => l.frame | none => 0
    d.srcOf (captureBuffer r (content - 1)) (seen + if d.captureWrote i then 1 else 0)

/-- A frame of an ingest channel of another device. -/
def Dev.remoteSrc (d : Dev) (dev h : Nat) : Option SrcFrame :=
  match Tab.get? d.tbl.remote (dev * 2 ^ 32 + h) with
  | some r => r.newest.bind (fun x => (d.surf? (remoteKey dev (handleIdx h) x.1)).map (fun u => ⟨remoteKey dev (handleIdx h) x.1, u.w, min u.h x.2.1, x.2.2.1⟩))
  | none => none

/-- The frame that a SOURCE layer reads in a content (R60, R315). -/
def Dev.layerSrc (d : Dev) (c : Chan) (r : List Byte) (old : Option Latch) (content : Nat) : Option SrcFrame :=
  let h := lSource r
  let i := handleIdx h
  match c.home with
  | some dev => if dev = d.ownIdx then none else if handleCls h = clsIngest then d.remoteSrc dev h else none
  | none =>
    match d.handle? h with
    | none => none
    | some s =>
      if handleCls h = clsSurface then d.srcOf i 0
      else if handleCls h = clsIngest then d.ingestSrc i s.record
      else if handleCls h = clsClip then d.clipSrc i
      else if handleCls h = clsLayer then d.captureSrc i s old content
      else none

/-! ### Changes that take effect at an opening (R52, R53, R211) -/

/-- An owed change of a channel, with the channel as it was. -/
def changeOf (o : Owed) : Option (Nat × Nat × Option Chan) :=
  match o.kind with
  | .change cls idx before => some (cls, idx, before)
  | _ => none

/-- A change leaves the stakes as they were, so that no rebuild of the plan stands before it (R211). -/
def Dev.sameStake (d : Dev) (cls idx : Nat) : Option Chan → Bool
  | none => false
  | some c => match d.live? cls idx with
    | some n => n.gen == c.gen && n.stake == c.stake && n.demoted == c.demoted
    | none => false

/-- Of the changes owed, in order, those that this opening applies, and those that wait, a later change of a channel behind
an earlier one. -/
def Dev.splitChanges (d : Dev) (ready : Bool) : List Owed → List Nat → List Owed × List Owed
  | [], _ => ([], [])
  | o :: t, wait =>
    match changeOf o with
    | none => d.splitChanges ready t wait
    | some (cls, idx, before) =>
      if chanKey cls idx ∉ wait ∧ (ready || d.sameStake cls idx before) then
        let r := d.splitChanges ready t wait
        (o :: r.1, r.2)
      else
        let r := d.splitChanges ready t (chanKey cls idx :: wait)
        (r.1, o :: r.2)

/-- The damage of a layer's change, as it takes effect (R325, R395). -/
def Dev.changeDamage (d : Dev) (o : Owed) : Dev :=
  match changeOf o with
  | some (0, idx, before) =>
    let now := d.live? clsLayer idx
    match before, now with
    | some b, some n =>
      let d := if pixelFields b.record = pixelFields n.record then d else (d.markLayer b.record).markLayer n.record
      if captureFields b.record = captureFields n.record then d else d.captureDamage idx n.record
    | some b, none => d.markLayer b.record
    | none, some n => (d.markLayer n.record).captureDamage idx n.record
    | none, none => d
  | _ => d

/-- The layer that each index latches: the channel, or the channel as it was while its change waits (R211). A
create that waits latches nothing. -/
def Dev.layersNow (d : Dev) (waits : List Owed) : List (Nat × Chan) :=
  let kept := waits.filterMap (fun o => match changeOf o with
    | some (0, idx, before) => some (idx, before)
    | _ => none)
  (List.range 64).filterMap (fun i =>
    match kept.find? (fun (x : Nat × Option Chan) => x.1 == i) with
    | some x => x.2.map (fun c => (i, c))
    | none => (d.live? clsLayer i).bind (fun c => if c.offered then none else some (i, c)))

/-! ### Latching (R51, R60, R164, R168, R394 to R396) -/

/-- What a layer latches: its record, VISIBLE where an alarm shows it (R629), its source frame. -/
def Dev.latchOf (d : Dev) (i : Nat) (c : Chan) (content : Nat) : Latch :=
  let h := c.handle clsLayer i
  let r := if d.shown h then putLe c.record 5 1 (setBit (byteAt c.record 5) 0) else c.record
  let old := (Tab.get? d.comp.latched i).bind (fun l => if l.handle = h then some l else none)
  match (if lKind r = 0 then d.layerSrc c r old content else none) with
  | some s => ⟨r, h, some s.key, s.w, s.h, s.frame⟩
  | none => ⟨r, h, none, 0, 0, 0⟩

/-- The latches of a content: a demoted layer keeps its last one (R164), and in safe board only rung 0 is latched (R169). -/
def Dev.latches (d : Dev) (waits : List Owed) (content : Nat) : Tab Latch :=
  (d.layersNow waits).filterMap (fun (x : Nat × Chan) =>
    if d.adm? = admSafe ∧ x.2.rung ≠ 0 then none
    else if x.2.demoted then
      (Tab.get? d.comp.latched x.1).bind (fun l => if l.handle = x.2.handle clsLayer x.1 then some (x.1, l) else none)
    else some (x.1, d.latchOf x.1 x.2 content))

/-- The crop of a latched ingest or clip frame reaches beyond the frame (R317). -/
def Latch.cropOut (l : Latch) : Bool :=
  let cls := handleCls (lSource l.record)
  lKind l.record == 0 && l.src.isSome && (cls == clsIngest || cls == clsClip) &&
    (decide (l.fw < lCropX l.record + lCropW l.record) || decide (l.fh < lCropY l.record + lCropH l.record))

/-- A layer's registers and status at its latch (R316, R317, R342), and the damage of a frame that differs (R395). -/
def Dev.noteLatch (d : Dev) (old : Tab Latch) (x : Nat × Latch) : Dev :=
  let (i, l) := x
  let none_ := lKind l.record == 0 && l.src.isNone
  let d := (((d.put (R.LAY_LATCH_TURN i) d.time.turn).put (R.LAY_NOFRAME i) (if none_ then 1 else 0)).put (R.LAY_CROP_OUT i)
    (if l.cropOut then 1 else 0))
  let d := if none_ then (d.bump R.COMP_NOFRAME_CNT 1).flagRaiseOnce R.COMP_NOFRAME 402 else d
  let d := if l.cropOut then d.flagRaiseOnce R.COMP_CROP_OUT 403 else d
  match Tab.get? old i with
  | some o =>
    if o.handle = l.handle ∧ o.src = l.src ∧ o.frame = l.frame ∧ o.fw = l.fw ∧ o.fh = l.fh then d else d.markLayer l.record
  | none => d.markLayer l.record

/-- Ingest channels note the frame that this content latches (R543). -/
def Dev.ingestLatched (d : Dev) (now : Tab Latch) : Dev :=
  (d.chansOf clsIngest).foldl (fun (d : Dev) (p : Nat × Chan) =>
    let c := d.ing? p.1
    let named := now.any (fun (x : Nat × Latch) => lSource x.2.record == p.2.handle clsIngest p.1 && lKind x.2.record == 0)
    if !named then (if c.latched.isNone then d else d.putIng p.1 { c with latched := none })
    else
      d.putIng p.1 { c with
        latched := c.newest.map (·.slot)
        repeated := c.repeated + (if c.newest.isSome && c.taken then 1 else 0)
        taken := c.taken || c.newest.isSome }) d

/-- A LIVE layer names a channel of another device. -/
def Dev.remoteNamed (d : Dev) (dev h : Nat) : Bool :=
  (d.liveOf clsLayer).any (fun (p : Nat × Chan) => p.2.home == some dev && lKind p.2.record == 0 && lSource p.2.record == h)

/-- Frames of other devices' channels that this content latches; a channel that no layer names keeps no frames. -/
def Dev.remoteLatched (d : Dev) (now : Tab Latch) : Dev :=
  let used (k : Nat) : Option Nat := (List.range 4).find? (fun j =>
    now.any (fun (x : Nat × Latch) => x.2.src == some (remoteKey (k / 2 ^ 32) (handleIdx (k % 2 ^ 32)) j)))
  let gone := (d.tbl.remote.map (fun (p : Nat × Remote) => p.1)).filter (fun k => !d.remoteNamed (k / 2 ^ 32) (k % 2 ^ 32) && (used k).isNone)
  let d := gone.foldl (fun (d : Dev) k =>
    (List.range 4).foldl (fun (d : Dev) j => d.release (remoteKey (k / 2 ^ 32) (handleIdx (k % 2 ^ 32)) j)) d) d
  let kept := Tab.drop d.tbl.remote (fun k => decide (k ∈ gone))
  { d with tbl := { d.tbl with remote := kept.map (fun (p : Nat × Remote) => (p.1, { p.2 with latched := used p.1 })) } }

/-- Clip channels take their records and show the frame of a content (R52, R165, R560). -/
def Dev.clipsLatch (d : Dev) (waits : List Owed) (content : Nat) : Dev :=
  (d.liveOf clsClip).foldl (fun (d : Dev) (p : Nat × Chan) =>
    if p.2.demoted then d
    else
      let held := waits.findSome? (fun o => match changeOf o with
        | some (cls, idx, before) => if cls = clsClip ∧ idx = p.1 then some before else none
        | none => none)
      let d := match held with
        | some _ => d
        | none => d.clipApply p.1 p.2.record
      let (miss, d) := d.clipShow p.1 content
      if miss then (d.bump R.CLIP_MISS_CNT 1).flagRaiseOnce R.CLIP_MISS 729 else d) d

/-- Layers culled on every patch of the last content that they met (R342). -/
def Dev.cullAll (d : Dev) : Dev :=
  (List.range 64).foldl (fun (d : Dev) i =>
    if (Tab.get? d.comp.latched i).isSome then
      d.put (R.LAY_CULL_ALL i) (if 64 + i ∈ d.comp.blended ∧ i ∉ d.comp.blended then 1 else 0)
    else d) d

/-- A patch may be latched into the content: it is not held by the ladder or by a calibration load (R164, R367). -/
def Dev.patchFree (d : Dev) (k : Nat) : Bool :=
  !decide (k ∈ d.adm.held) && (match d.square? (patchSquare k) with | some q => !d.loadHolds q | none => false)

/-- Damage of capture layers: two contents after a change of one, and for two buffers the patches that the content before
this one damaged (R325). The patches that this content damages of itself are kept for the next. -/
def Dev.captureDamages (d : Dev) : Dev :=
  let own := d.push.dmg.filter d.patchFree
  let d := d.comp.capTurns.foldl (fun (d : Dev) (p : Nat × Nat) => match d.live? clsLayer p.1 with
    | some c => d.markAll (d.patchesOf c.record)
    | none => d) d
  let d := d.markAll d.comp.capNext
  let twice := d.captures.filter (fun l => lTargetB l.record != 0)
  let turns := (d.comp.capTurns.map (fun (p : Nat × Nat) => (p.1, p.2 - 1))).filter (fun p => p.2 ≠ 0)
  { d with comp := { d.comp with
    capTurns := turns
    capNext := own.filter (fun k => twice.any (fun l => lMeets l.record (d.patchRect k))) } }

/-- The latched damage map (R396). In a pace trial every tile holds its last bank (R134). -/
def Dev.damageLatch (d : Dev) : Dev :=
  let now := if d.adm? = admTrial then [] else d.push.dmg.filter d.patchFree
  let later := d.push.dmg.filter (fun k => !decide (k ∈ now))
  let d := later.foldl (fun (d : Dev) k => if d.patchFree k then d else d.captureSkip k) d
  { d with push := { d.push with
    dmg := later
    latched := sortNat now
    st := now.foldl (fun (t : Tab Nat) k => Tab.set t k 1) d.push.st
    emitted := [], abandoned := [], underrun := [], acked := [], left := []
    cut := false, fmap := [], presAck := [], fired := [], pushed := [] } }

/-! ### STATIC (R425 to R428) -/

/-- The divisor of R427. -/
def Dev.staticDiv (d : Dev) : Nat :=
  min (d.get R.PUSH_SCR_DIV) (max 1 (d.holdMs * 1000000 * d.den / (2 * d.num)))

/-- STATIC is entered or left, and whether this turn carries PRESENT frames (R425, R426, R428, R454). -/
def Dev.static (d : Dev) : Dev :=
  let empty := if d.push.latched = [] then d.push.empty + 1 else 0
  let d := { d with push := { d.push with empty := empty } }
  let may := d.on R.PUSH_SCR_EN && d.adm? != admSafe
  let d :=
    if d.on R.PUSH_STATIC then
      if d.push.latched ≠ [] ∨ !may then (d.put R.PUSH_STATIC 0).flagRaise R.PUSH_STATIC_EXIT 836 else d
    else if may && decide (d.get R.PUSH_SCR_TURNS ≤ empty) then (d.put R.PUSH_STATIC 1).flagRaise R.PUSH_STATIC_ENTER 835
    else d
  let on := d.on R.PUSH_STATIC
  let due : Bool := match d.sched.timing with
    | some t => t.ne == d.time.turn + 1
    | none => false
  let d := if on then d.bump R.PUSH_STATIC_TURNS 1 else d
  let d := (List.range 256).foldl (fun (d : Dev) s =>
    d.put (R.SNK_LPI s) (if on && d.on (R.SNK_LPI_EN s) && d.port s == psRun then 1 else 0)) d
  { d with push := { d.push with sends := !on || d.time.turn % d.staticDiv == 0 || due } }

/-! ### The compose window opens (R51) -/

/-- A timing change is announced three turns ahead (R419). -/
def Dev.announce (d : Dev) : Dev :=
  match d.sched.timing with
  | some t =>
    if !t.announced && decide (t.ne ≤ d.time.turn + 3) then
      let d := { d with
        sched := { d.sched with timing := some { t with announced := true } }
        push := { d.push with cadAck := [] } }
      (d.put R.PUSH_TCHG 2).raise 833
    else d
  | none => d

/-- The geometry of an image that takes effect at the next present instant is in force for the content latched (R422). -/
def Dev.geometryDue (d : Dev) : Dev :=
  match d.sched.timing with
  | some t => if t.ne = d.time.turn + 1 then (match t.image with | some img => d.geometryApply img | none => d) else d
  | none => d

/-- The latches of the content put in force, with all that latching them notes and damages. -/
def Dev.latchAll (d : Dev) (waits : List Owed) (content : Nat) : Dev :=
  let d := d.clipsLatch waits content
  let old := d.comp.latched
  let now := if d.adm? = admTrial then old else d.latches waits content
  let d := (d.cullAll.ingestLatched now).remoteLatched now
  let d := { d with comp := { d.comp with latched := now, content := content, blended := [], emit := [] } }
  if d.adm? = admTrial then d else now.foldl (fun (d : Dev) x => d.noteLatch old x) d

/-- The work of a content handed out: slot maps, plans, checks, the deal (R193, R211, R212, R437). -/
def Dev.handOut (d : Dev) (ready : Bool) : Dev :=
  let d := d.mapApply
  let d := if ready then d.planApply else d
  let d := if d.adm? = admTrial then d else d.checksBegin
  d.deal

/-- Layers that are demoted. -/
def Dev.demotedLayers (d : Dev) : List Nat :=
  ((d.liveOf clsLayer).filter (fun (p : Nat × Chan) => p.2.demoted)).map (fun (p : Nat × Chan) => p.2.handle clsLayer p.1)

/-- The recomputation of R161; what it demotes, the whole part demotes (R172). -/
def Dev.recomputeAll (d : Dev) : Dev :=
  let before := d.demotedLayers
  let d := d.recompute
  let new := d.demotedLayers.filter (fun h => !decide (h ∈ before))
  let turn := d.time.turn + 1
  if !d.grouped || new.isEmpty then d
  else if d.rules then d.decree (new.map (fun h => .demotion h turn))
  else new.foldl (fun (d : Dev) h => d.tellRuler (.demotion h turn)) d

/-- The compose window of this turn opens. -/
def State.windowOpen (s : State) : State :=
  let d := s.dev.advance (s.dev.sched.presNow + s.dev.sched.quiet * perUs - s.dev.time.now)
  let ready := d.pip.rebuild.isEmpty
  let (sw, d) := d.announce.geometryDue.profileApply.storeSwitch
  let s := ({ s with dev := d.recomputeAll } : State).decideWaiting
  s.upd (fun d =>
    let content := d.time.turn + 1
    let (now, waits) := d.splitChanges ready d.q.owed []
    let d := now.foldl Dev.changeDamage d
    let d := (d.latchAll waits content).storeDamage sw
    let d := d.brightness.calLoadEnds
    let d := d.captureDamages.damageLatch.static
    let d := d.handOut ready
    let d := { d with sched := { d.sched with phase := .compose } }
    let d := d.settle (fun o => decide (o ∈ now)) stOk (some content)
    (d.put R.BLT_QUIET_HOLD 0).plFire)

/-- COMPOSE_WINDOW_OPEN (R47, R51): QUIET after the present instant. -/
def execComposeWindowOpen (s : State) : Out :=
  .next (if s.dev.running && s.dev.sched.phase == .quiet then s.windowOpen else s)

/-! ### The compose deadline (R213, R407) -/

/-- A patch that no pip has emitted (R407). -/
def Dev.abandon (d : Dev) (k : Nat) : Dev :=
  let d := { d with push := { d.push with abandoned := k :: d.push.abandoned } }
  (((d.leaveOut k).bump R.PUSH_DEADLINE_CNT 1).bump R.FAB_DEADLINE_DROP 1).captureSkip k

/-- The compose deadline of this turn. -/
def Dev.windowClose (d : Dev) : Dev :=
  let d := d.pipsStop
  let late := d.push.latched.filter (fun k => !decide (k ∈ d.push.emitted))
  let d := late.foldl Dev.abandon d
  let emitted (k : Nat) : Bool := decide (k ∈ d.push.emitted) || d.comp.emit.any (fun (x : Nat × List Emitted) => x.2.any (fun e => e.patch == k))
  let short := (d.comp.checks.filter (fun (x : Nat × List Nat × Nat × Bool) => x.2.1.any (fun k => !emitted k))).map (·.1)
  let d := short.foldl (fun (d : Dev) i => d.checkSkip i) d
  let d := { d with sched := { d.sched with phase := .composed } }
  d.reapRetired.plFire

/-- COMPOSE_DEADLINE (R213). -/
def execComposeDeadline (s : State) : Out :=
  .next (s.upd fun d => if d.running && d.sched.phase == .compose then d.windowClose else d)

/-! ### The present instant (R45, R397, R415, R433) -/

/-- A patch named in a flip map flips: its PCRC is the one shown (R397, R433). -/
def Dev.flip (d : Dev) (k : Nat) : Dev :=
  match Tab.get? d.push.pushed k with
  | none => d
  | some c =>
    let before := Tab.get? d.push.shown k
    let d := { d with push := { d.push with
      st := Tab.set d.push.st k 2
      shown := Tab.set d.push.shown k c
      prev := match before with
        | some b => Tab.set d.push.prev k b
        | none => Tab.erase d.push.prev k } }
    d.bump (R.PSN_PUSH_PATCHES (snakeOf k)) 1

/-- Patches that do not flip return to IDLE with D = 1 (R397). -/
def Dev.unflipped (d : Dev) (flips : List Nat) : Dev :=
  let back := (d.push.st.filter (fun (p : Nat × Nat) => p.2 == 1 && !decide (p.1 ∈ flips))).map (·.1)
  let d := { d with push := { d.push with st := d.push.st.filter (fun (p : Nat × Nat) => !decide (p.1 ∈ back)) } }
  d.markAll back

/-- Squares that gave frames up in this turn; the third such turn running loses the square (R510). -/
def Dev.givenUpTurns (d : Dev) : Dev :=
  let gave := d.snk.gave
  let turns := gave.foldl (fun (t : Tab Nat) n => Tab.set t n (Tab.getD d.snk.gaveTurns n 0 + 1)) []
  let d := { d with snk := { d.snk with gave := [], gaveTurns := turns } }
  gave.foldl (fun (d : Dev) n => if 3 ≤ Tab.getD turns n 0 then d.loseSquare (n / 64) (n % 64) else d) d

/-- Every tile flips the patches its PRESENT frame names (R392, R397, R433). -/
def Dev.flipAll (d : Dev) : Dev :=
  let flips := d.push.fmap.flatMap (fun (p : Nat × List Nat) => p.2)
  let content := d.comp.content
  let sent := d.push.fmap.map (fun (p : Nat × List Nat) => p.1)
  let d := { d with push := { d.push with prev := [] } }
  let d := (flips.foldl Dev.flip d).unflipped flips
  let d := { d with push := { d.push with
    awaits := sent.foldl (fun (t : Tab Nat) n => Tab.set t n content) d.push.awaits
    lastPres := d.push.presAck.foldl (fun (t : Tab Nat) n => Tab.set t n d.time.now) d.push.lastPres
    latched := [], emitted := [], abandoned := [], acked := [], left := [], pushed := [], fmap := [], presAck := [], buf := [] } }
  let d := (List.range 256).foldl (fun (d : Dev) s => if d.get (R.PSN_OCC s) = 0 then d else d.put (R.PSN_OCC s) 0) d
  d.givenUpTurns

/-- PRES_TURN and the device time of the instant (R415). -/
def Dev.presRegs (d : Dev) : Dev :=
  (((d.put R.PUSH_PRES_TURN d.time.turn).put R.PUSH_PRES_NS d.nsec).put R.PUSH_PRES_SEC_LO d.sec).put R.PUSH_PRES_SEC_HI (d.sec / 2 ^ 32)

/-- A timing change takes effect (R421, R422, R643). -/
def Dev.timingTakes (d : Dev) (t : Timing) : Dev :=
  let d := { d with sched := { d.sched with timing := none, quiet := t.quiet } }
  let d := ((d.put R.PUSH_PERIOD_NUM t.num).put R.PUSH_PERIOD_DEN t.den).put R.PUSH_TCHG 0
  let d := (d.put R.PUSH_TCHG_TURN 0).flagRaise R.PUSH_TCHG_APPLIED 834
  let d := if t.src = d.src then d else d.selectSource t.src
  { d with bank := { d.bank with objs := t.refModes.foldl (fun (o : Tab (List Byte)) (m : Nat × Nat) =>
    Tab.set o ((0x5032 + m.1) * 256 + 1) (beBytes 1 m.2)) d.bank.objs } }

/-- Synthesizers with a reband pending start it; synthesizer 0 has rules of its own (R54, R57, R665). -/
def Dev.rebands (d : Dev) : Dev :=
  (List.range 84).foldl (fun (d : Dev) i =>
    let s := i + 1
    if d.on (R.SYNS_PEND s) && d.synState s == synLocked then d.startHop s 0 true else d) d

/-- REF_MODE changes that waited are hops to the same target (R663, R664). -/
def Dev.refModeHops (d : Dev) : Dev :=
  let l := d.time.refModePend
  let d := { d with time := { d.time with refModePend := [] } }
  l.foldl (fun (d : Dev) (x : Nat × Nat) => (d.put (R.SYNS_REF_MODE x.1) x.2).startHop x.1 (d.get (R.SYNS_TARGET_8 x.1)) false) d

/-- Devices that this device hears of, itself left out. -/
def Dev.heardOf (d : Dev) : List Nat := (d.tbl.epochs.map (fun (p : Nat × Nat) => p.1)).filter (fun i => i != d.ownIdx)

/-- The ruler tells every member the layers as they stand and the demotions of its part (R172, R452). -/
def Dev.tellLayers (d : Dev) : Dev :=
  d.decree ((d.liveOf clsLayer).flatMap (fun (p : Nat × Chan) =>
    let h := p.2.handle clsLayer p.1
    .layer (p.2.home.getD d.ownIdx) h p.2.owner p.2.record :: (if p.2.demoted then [.demotion h d.time.turn] else [])))

/-- A divided table is whole again at the instant chosen: the counter, the ruler and the epoch are those of the ruling part
(R452). -/
def Dev.rejoin (d : Dev) : Dev :=
  match d.sched.resync with
  | some (own, turn, moves) =>
    if d.time.turn ≠ own then d
    else
      let d := { d with time := { d.time with turn := turn }, sched := { d.sched with resync := none } }
      let d := match d.tbl.joining with
        | some (r, e) => (d.putRuler r).putEpoch e
        | none => d
      let d := { d with tbl := { d.tbl with joining := none, part := d.heardOf } }
      let d := (d.put R.PUSH_TABLE tsJoined).raise 838
      let d := if moves then d.markAll d.allPatches else d
      if d.rules then d.tellLayers else d
  | none => d

/-- The quiet tasks of R54, in order. -/
def Dev.quietTasks (d : Dev) (badLine : Option Nat) : Dev :=
  let d := match badLine with
    | some l => if d.bank.staged.isSome && !d.bank.writeProtect && !d.bank.restarting then d.retireBlock l else d
    | none => d
  (d.journalCommit.retrainStart.rebands.refModeHops).domSwitch

/-- Device time reaches the instant, and the turn counter advances; the first instant after start-up keeps the counter. -/
def Dev.presentClock (d : Dev) : Dev :=
  let first := d.get R.PUSH_PRES_TURN == 0
  let d := d.reach (d.nextPresNs * perNs)
  let turn := if first then d.time.turn else d.time.turn + 1
  let ns := d.devNs
  let now := d.time.now
  let d := { d with time := { d.time with turn := turn, stepped := false } }
  let d := { d with ev := { d.ev with once := [], viol := [] } }
  { d with sched := { d.sched with phase := .quiet, presNs := ns, presNow := now } }

/-- The timing change that takes effect at this instant. -/
def Dev.timingDue (d : Dev) : Option Timing :=
  match d.sched.timing with
  | some t => if t.ne = d.time.turn then some t else none
  | none => none

/-- What the tiles show from this instant, and the schedule that holds from it (R397, R415, R422). -/
def Dev.presentShow (d : Dev) : Dev :=
  match d.timingDue with
  | some t => ((if t.image.isSome then d.geometryShown else d).presRegs.flipAll).timingTakes t
  | none => d.presRegs.flipAll

/-- A snapshot in every turn that SNAP_AUTO divides (R742). -/
def Dev.autoSnap (d : Dev) : Dev :=
  let n := d.get R.GLB_SNAP_AUTO
  if n ≠ 0 ∧ d.time.turn % n = 0 then d.snapshot else d

/-- The present instant of the next turn. -/
def Dev.present (d : Dev) (badLine : Option Nat) : Dev :=
  ((d.presentClock.rejoin.presentShow.quietTasks badLine).applyWaitingStep.blitPresent).autoSnap.sendTurn

/-- PRESENT_INSTANT (R45): a point of the present grid; a line of the journal transaction committed in the quiet interval
may fail its verify (R811). -/
def execPresentInstant (badLine : Option Nat) (s : State) : Out :=
  .next (s.upd fun d => if d.running then d.present badLine else d)

end Sys2Proof.Machine
end

