-- ==== Sys2Proof/Machine/Table.lean ====
section
/-! DEFINITION. Messages that arrive over table links, and the states of a table (R112 to R115, R172, R384, R411, R445 to R453,
R547 to R550, R631, R643). -/

namespace Sys2Proof.Machine

/-! ### Receiving (R525, R548, R550) -/

/-- The header and the body of a message of the type wanted. -/
def readTable (typ : Nat) (b : List Byte) : Option (TableHdr × List Byte) :=
  if b.length < 32 ∨ byteAt b 0 ≠ typ ∨ !allZero (slice b 18 14) ∨ leAt b 16 2 + 32 ≠ b.length then none
  else some (⟨byteAt b 1, byteAt b 2, byteAt b 3, leAt b 4 4, leAt b 8 8⟩, b.drop 32)

/-- The port is in TABLE mode and this device has a place in the table (R447, R525). -/
def Dev.tablePort (d : Dev) (port : Nat) : Bool :=
  d.objNat 0x5021 (1 + port) 0 == 1 && decide (1 < d.geo.devices) && decide (d.ownIdx < d.geo.devices)

/-- A message of another member is taken: the epoch that its sender holds is noted. -/
def Dev.takes (d : Dev) (port : Nat) (h : TableHdr) : Bool :=
  d.tablePort port && d.table != tsAlone && decide (h.src < d.geo.devices) && h.src != d.ownIdx && decide (h.hops ≤ 7)

def Dev.noteEpoch (d : Dev) (h : TableHdr) : Dev := { d with tbl := { d.tbl with epochs := Tab.set d.tbl.epochs h.src h.epoch } }

/-- A message goes on to where it is for: toward its device, or to every other table port (R548, R550). -/
def Dev.relay (d : Dev) (port : Nat) (h : TableHdr) (mk : Nat → TableHdr → OutMsg) : Dev :=
  if h.dst = d.ownIdx ∨ 7 ≤ h.hops then d
  else
    let out := if h.dst = 0xFF then
        (d.tablePorts.filter (fun p => p.1 != port && p.2 != h.src)).map (·.1)
      else (d.portsTo h.dst).filter (· ≠ port)
    out.foldl (fun (d : Dev) p => d.sendOn h.dst (h.hops + 1) h.src h.epoch mk p) d

/-- A message is for this device. -/
def Dev.forMe (d : Dev) (h : TableHdr) : Bool := h.dst == d.ownIdx || h.dst == 0xFF

/-- A message with a body of bytes: taken, acted on where it is for this device, and passed on. -/
def onTable (port typ : Nat) (b : List Byte) (s : State) (act : TableHdr → List Byte → State → State) : Out :=
  if 8 ≤ port then .refused .noSuchUnit
  else if byteAt b 0 ≠ typ then .refused .otherRow
  else match readTable typ b with
    | none => .next s
    | some (h, body) =>
      if !s.dev.takes port h then .next s
      else
        let s := s.upd (fun d => (d.noteEpoch h).relay port h (tableBytes typ body))
        .next (if s.dev.forMe h then act h body s else s)

/-- The same for a message whose body is data. -/
def onTableData (port : Nat) (h : TableHdr) (mk : Nat → TableHdr → OutMsg) (s : State) (act : Dev → Dev) : Out :=
  onUnit (decide (port < 8)) s (fun d =>
    if !d.takes port h then d
    else
      let d := (d.noteEpoch h).relay port h mk
      if d.forMe h then act d else d)

/-! ### Parts of a table (R446 to R453) -/

/-- A pending timing change that has not been announced is dropped when links are lost (R454). -/
def Dev.dropTiming (d : Dev) : Dev :=
  match d.sched.timing with
  | some t => if t.announced then d
    else ({ d with sched := { d.sched with timing := none } }.put R.PUSH_TCHG 0).put R.PUSH_TCHG_TURN 0
  | none => d

/-- Creates that wait for other devices end BUSY, and leave no layer. -/
def Dev.dropOffers (d : Dev) : Dev :=
  let d := d.tbl.offers.foldl (fun (d : Dev) o => d.freeChan clsLayer o.idx) d
  let mine := (d.liveOf clsLayer).filter (fun p => p.2.offered)
  let d := mine.foldl (fun (d : Dev) p => d.freeChan clsLayer p.1) d
  let d := { d with tbl := { d.tbl with offers := [] } }
  let waits (o : Owed) : Bool := match o.kind with | .table _ => true | _ => false
  (d.settle waits stBusy none).stakeGone

/-- The table divides, or a part of a divided table loses a member (R449). -/
def Dev.divide (d : Dev) (lost : Nat) : Dev :=
  let had := lost != d.get R.PUSH_RULER
  let d := { d with
    tbl := { d.tbl with part := d.tbl.part.filter (· ≠ lost), epochs := Tab.erase d.tbl.epochs lost, joining := none }
    sched := { d.sched with resync := none } }
  let d := d.dropTiming.dropOffers
  let d := if d.table = tsDivided then d else (d.put R.PUSH_TABLE tsDivided).raise 837
  if had then d
  else
    let r := (d.tbl.part).foldl min d.ownIdx
    ((d.putRuler r).putEpoch (d.get R.PUSH_EPOCH + 1)).raise 839

/-- TABLE_PEER_LOST (R448, R449, R547): a peer's TURN messages have stopped; its table channels are destroyed. -/
def execTablePeerLost (peer : Nat) (s : State) : Out :=
  onUnit (decide (peer < 8)) s (fun d =>
    let gone := (d.liveOf clsTable).filter (fun p => byteAt p.2.record 1 == peer)
    let d : Dev := gone.foldl (fun (d : Dev) (p : Nat × Chan) => { d with ch := { d.ch with chans := Tab.erase d.ch.chans (chanKey clsTable p.1) } }) d
    let d : Dev := { d with tbl := { d.tbl with alarms := Tab.erase d.tbl.alarms peer } }
    if decide (peer ∈ d.tbl.part) && (d.table == tsJoined || d.table == tsResync || d.table == tsDivided) then d.divide peer
    else { d with tbl := { d.tbl with epochs := Tab.erase d.tbl.epochs peer } }.stakeGone)

/-- A table channel stands on the port (R547). -/
def Dev.tableChannel (d : Dev) (port dev : Nat) : Dev :=
  let d := if (d.chan? clsTable port).isSome then { d with ch := { d.ch with chans := Tab.erase d.ch.chans (chanKey clsTable port) } } else d
  ((d.create clsTable port { gen := 0, rung := 0, record := leBytes 1 port ++ leBytes 1 dev }).2).admRegs

/-- HELLO (R447, R547, R549, R550): a peer names itself and the geometry of its image. -/
def Dev.hello (d : Dev) (port : Nat) (h : TableHdr) (body : List Byte) : Dev :=
  if !d.tablePort port || d.table == tsAlone then d
  else if d.geo.devices ≤ h.src ∨ h.src = d.ownIdx then
    (d.raise 12).ledger ⟨false, 0x0A01, 10, 1, leBytes 1 h.src ++ leBytes 1 port, false⟩
  else if slice body 16 32 ≠ d.geo.hash then
    d.ledger ⟨false, 0x0A00, 10, 1, leBytes 1 h.src ++ leBytes 1 port, false⟩
  else
    let d := (d.noteEpoch h).tableChannel port h.src
    if d.table = tsDivided ∧ h.src ∉ d.tbl.part then d.put R.PUSH_TABLE tsResync else d

def execHello (port : Nat) (bytes : List Byte) (s : State) : Out :=
  if 8 ≤ port then .refused .noSuchUnit
  else if byteAt bytes 0 ≠ 1 then .refused .otherRow
  else match readTable 1 bytes with
    | none => .next s
    | some (h, body) => .next (if body.length = 48 then s.upd (fun d => d.hello port h body) else s)

/-- Two parts meet (R452): the one of the higher epoch rules, of equal epochs the one whose ruler has the lower index. They
join at the eighth turn from the one the ruling ruler is in. -/
def Dev.meet (d : Dev) (epoch ruler next : Nat) : Dev :=
  if d.table ≠ tsResync ∨ ruler = d.get R.PUSH_RULER ∨ d.sched.resync.isSome then d
  else
    let mine := d.get R.PUSH_EPOCH
    let theirs := decide (mine < epoch) || (mine == epoch && decide (ruler < d.get R.PUSH_RULER))
    if theirs then
      { d with
        sched := { d.sched with resync := some (d.time.turn + 8, next + 7, true) }
        tbl := { d.tbl with joining := some (ruler, epoch) } }
    else
      { d with
        sched := { d.sched with resync := some (d.time.turn + 8, d.time.turn + 8, false) }
        tbl := { d.tbl with joining := some (d.get R.PUSH_RULER, mine) } }

/-- TURN_MESSAGE (R448, R549): the ruler of a part gives its next turn and that turn's present instant. -/
def Dev.turnTold (d : Dev) (h : TableHdr) (body : List Byte) : Dev :=
  let next := leAt body 0 8
  let ns := leAt body 8 4 + leAt body 12 6 * 1000000000
  let ruler := byteAt body 18
  if ruler = d.get R.PUSH_RULER then
    let d := { d with tbl := { d.tbl with told := some (next, ns) } }
    if d.rules then d else d.putEpoch h.epoch
  else d.meet h.epoch ruler next

def execTurnMessage (port : Nat) (bytes : List Byte) (s : State) : Out :=
  onTable port 2 bytes s (fun h body s => if body.length = 32 then s.upd (fun d => d.turnTold h body) else s)

/-! ### Layers of a table (R114, R115, R172, R411) -/

/-- A demotion that another device has made (R172). The device whose descriptor asked for the layer reports it. -/
def Dev.demotedBy (d : Dev) (h : Nat) : Dev :=
  match d.handleOf? clsLayer h with
  | none => d
  | some c =>
    let i := handleIdx h
    if c.demoted then d
    else if c.home.isNone then (d.demote clsLayer i c).admRegs
    else
      let d := (d.modChan clsLayer i (fun c => { c with demoted := true })).reheld.planDirty
      ((d.put (R.LAY_DEMOTED i) 1).markLayer c.record).admRegs

/-- The home of a layer as this device keeps it: none for its own. -/
def Dev.homeOf (d : Dev) (dev : Nat) : Option Nat := if dev = d.ownIdx then none else some dev

/-- A layer stands under the handle and CSEQ that the ruler gave it. -/
def Dev.placeLayer (d : Dev) (h cseq : Nat) (c : Chan) (r : List Byte) : Dev :=
  let i := handleIdx h
  let r := putLe (withHandle r h) 96 8 cseq
  let c := { c with gen := handleGen h, cseq := cseq, record := r, stake := r }
  let d := { d with ch := { d.ch with
    gens := Tab.set d.ch.gens (chanKey clsLayer i) (handleGen h), nextCseq := max d.ch.nextCseq (cseq + 1) } }
  ((d.putChan clsLayer i c).layerRegs i h r).captureDamage i r

/-- An offered layer: this device admits its share, or answers that it cannot (R115). -/
def Dev.offerTaken (d : Dev) (dev h cseq owner : Nat) (priv : Bool) (r : List Byte) : Dev :=
  let say (d : Dev) (ok : Bool) : Dev := d.tellRuler (.share d.ownIdx h ok)
  if (d.handleOf? clsLayer h).isSome then d
  else
    let i := handleIdx h
    let c : Chan := d.withCharges ⟨0, false, owner, cseq, lRung r, false, 0, 0, 0, r, r, 0, 0, 0, 0, 0, d.homeOf dev, true⟩ r
    let req : Request := ⟨clsLayer, i, c, none, h, priv⟩
    let (st, _, d) := d.admitStake req (d.layerCycle none r) ((d.chan? clsLayer i).isSome || d.captureFull none r)
    if st ≠ stOk then say d false else say ((d.placeLayer h cseq c r).admPass req h) true

/-- An offer ends on every device (R115). -/
def Dev.offerSettled (d : Dev) (h : Nat) (ok : Bool) : Dev :=
  match d.handleOf? clsLayer h with
  | none => d
  | some c =>
    if !c.offered then d
    else if ok then (d.modChan clsLayer (handleIdx h) (fun c => { c with offered := false })).markLayer c.record
    else (d.freeChan clsLayer (handleIdx h)).stakeGone

/-- An entry of this device that waits for its ruler has its answer: it completes, or its change is applied at the next
opening. -/
def Dev.asked (d : Dev) (q tag status h : Nat) : Dev :=
  let mine (o : Owed) : Bool := o.queue == q && o.tag == tag && (match o.kind with | .table _ => true | _ => false)
  match d.q.owed.find? mine with
  | none => d
  | some o =>
    let rest := d.q.owed.eraseP mine
    if status ≠ stOk then
      let d := { d with q := { d.q with owed := rest } }
      d.complete o.queue o.tag (if o.handle = 0 then h else o.handle) status 0 none
    else
      let o := { o with handle := h, kind := .change clsLayer (handleIdx h) (d.chan? clsLayer (handleIdx h)) }
      { d with q := { d.q with owed := rest ++ [o] } }

/-- The ruler answers a request for a layer, here or on the device that asked. -/
def Dev.answerTo (d : Dev) (dev q tag status h : Nat) : Dev :=
  if dev = d.ownIdx then d.asked q tag status h
  else d.sendTable dev (fun p hd => .tableState p hd [.answer dev q tag status h])

/-- An offer of this ruler has all its answers, or one that it cannot be. -/
def Dev.offerEnds (d : Dev) (o : Offer) (ok : Bool) : Dev :=
  let d := { d with tbl := { d.tbl with offers := d.tbl.offers.filter (fun x => x.handle != o.handle) } }
  let d := (d.offerSettled o.handle ok).decree [.settled o.handle ok]
  d.answerTo o.dev o.queue o.tag (if ok then stOk else stRefused) (if ok then o.handle else 0)

/-- A member has admitted its share of an offer, or has not. -/
def Dev.shareTold (d : Dev) (dev h : Nat) (ok : Bool) : Dev :=
  match d.tbl.offers.find? (fun o => o.handle == h) with
  | none => d
  | some o =>
    let waits := o.waits.filter (· ≠ dev)
    if !ok then d.offerEnds o false
    else if waits.isEmpty then d.offerEnds o true
    else { d with tbl := { d.tbl with offers := d.tbl.offers.map (fun x => if x.handle = h then { x with waits := waits } else x) } }

/-- A create that a member asks for (R114). -/
def Dev.createFor (d : Dev) (dev q tag owner : Nat) (priv : Bool) (r : List Byte) : Dev :=
  if d.table = tsDivided ∨ d.adm? = admShedding then d.answerTo dev q tag stBusy 0
  else
    let a : Asked := ⟨owner, priv, q, tag, d.homeOf dev⟩
    let ans := d.layerMake a r
    if ans.status ≠ stOk then ans.dev.answerTo dev q tag ans.status 0 else ans.dev.layerOffer a dev ans none

/-- An update that a member asks for. -/
def Dev.updateFor (d : Dev) (dev q tag h : Nat) (r : List Byte) : Dev :=
  match d.handleOf? clsLayer h with
  | none => d.answerTo dev q tag stBadHandle h
  | some c =>
    let i := handleIdx h
    let ans := d.layerChange ⟨c.owner, rung0Queue q, c.queue, c.tag, d.homeOf dev⟩ i c r
    if ans.status ≠ stOk then ans.dev.answerTo dev q tag ans.status h
    else match ans.dev.chan? clsLayer i with
      | some n => (ans.dev.decree [.layer (n.home.getD d.ownIdx) h n.owner n.record]).answerTo dev q tag stOk h
      | none => ans.dev

/-- A destroy that a member asks for (R114). -/
def Dev.destroyFor (d : Dev) (dev q tag h : Nat) : Dev :=
  if d.table = tsDivided then d.answerTo dev q tag stBusy h
  else match d.handleOf? clsLayer h with
    | none => d.answerTo dev q tag stBadHandle h
    | some c => ((d.layerRetire (handleIdx h) c).decree [.gone h]).answerTo dev q tag stOk h

/-! ### Requests and decisions (R549) -/

/-- The alarm states of another member, or of the whole part as its ruler gives them (R631). -/
def Dev.alarmsTold (d : Dev) (dev : Nat) (on0 on1 : Bool) : Dev :=
  let before (k : Nat) : Bool := d.alarmOn k
  let d := { d with tbl := { d.tbl with alarms := Tab.set d.tbl.alarms dev ((if on0 then 1 else 0) + if on1 then 2 else 0) } }
  d.alarmRegs.shownDamage before

/-- A request of a member, taken by the ruler of the part. -/
def Dev.requested (d : Dev) : TableReq → Dev
  | .imageLoad img => (d.offerImage img none).2
  | .layerCreate dev q tag owner priv r => d.createFor dev q tag owner priv r
  | .layerUpdate dev q tag h r => d.updateFor dev q tag h r
  | .layerDestroy dev q tag h => d.destroyFor dev q tag h
  | .share dev h ok => d.shareTold dev h ok
  | .demotion h turn => (d.demotedBy h).decree [.demotion h turn]
  | .layerOff h => (d.layerOff h).decree [.layerOff h]
  | .timing num den quiet src => if d.timingBusy then d else d.askTiming { d.timingNow with num := num, den := den, quiet := quiet, src := src }
  | .alarms dev on0 on1 => (d.alarmsTold dev on0 on1).alarmShare

/-- FORWARD (R549): a request on its way to the ruler of the part. -/
def execForward (port : Nat) (hdr : TableHdr) (req : TableReq) (s : State) : Out :=
  onTableData port hdr (fun p h => .tableReq p h req) s (fun d => if d.rules then d.requested req else d)

/-- A layer as the ruler says it stands. -/
def Dev.layerTold (d : Dev) (dev h owner : Nat) (r : List Byte) : Dev :=
  match d.handleOf? clsLayer h with
  | some c => (d.layerPut (handleIdx h) c r).modChan clsLayer (handleIdx h) (fun c => d.withCharges { c with rung := lRung r } r)
  | none =>
    let i := handleIdx h
    let d := match d.chan? clsLayer i with
      | some c => (d.markLayer c.record).freeChan clsLayer i
      | none => d
    let c : Chan := d.withCharges ⟨0, false, owner, lCseq r, lRung r, false, 0, 0, 0, r, r, 0, 0, 0, 0, 0, d.homeOf dev, false⟩ r
    ((d.placeLayer h (lCseq r) c r).markLayer r).stakeGone

/-- A decision of the ruler, on a member. -/
def Dev.decided (d : Dev) : TableDecision → Dev
  | .offer dev h cseq owner priv r => d.offerTaken dev h cseq owner priv r
  | .settled h ok => d.offerSettled h ok
  | .layer dev h owner r => d.layerTold dev h owner r
  | .gone h => match d.handleOf? clsLayer h with
    | some c => d.layerRetire (handleIdx h) c
    | none => d
  | .answer dev q tag status h => if dev = d.ownIdx then d.asked q tag status h else d
  | .bright b => { d with cal := { d.cal with bRuler := some b } }
  | .demotion h _ => d.demotedBy h
  | .layerOff h => d.layerOff h
  | .alarms on0 on1 => d.alarmsTold (d.get R.PUSH_RULER) on0 on1
  | .image img turn => match parseImage img with
    | some im => if turn ≤ d.time.turn then d else d.acceptImageAt img im none turn
    | none => d
  | .timing ne num den quiet src =>
    if ne ≤ d.time.turn then d else d.scheduleAt ne { d.timingNow with num := num, den := den, quiet := quiet, src := src }

/-- STATE (R549): decisions of the ruler of the part. -/
def execState (port : Nat) (hdr : TableHdr) (decisions : List TableDecision) (s : State) : Out :=
  onTableData port hdr (fun p h => .tableState p h decisions) s (fun d =>
    if d.grouped && !d.rules && hdr.src == d.get R.PUSH_RULER then decisions.foldl Dev.decided d else d)

/-! ### Frames and ambient light (R381, R384, R549, R550) -/

/-- Rows of a frame that the layers here read, from the first to one past the last of any. -/
def Dev.rowsWanted (d : Dev) (dev h : Nat) : List (Nat × Nat) :=
  ((d.liveOf clsLayer).filter (fun p => p.2.home == some dev && lKind p.2.record == 0 && lSource p.2.record == h)).map
    (fun p => (lCropY p.2.record, lCropY p.2.record + lCropH p.2.record))

/-- The frame being received becomes the newest ready one. -/
def Remote.finish (r : Remote) (height : Nat) : Remote :=
  match r.newest with
  | some (_, _, serial, ts) => if ts = r.ts then r else { r with newest := some (r.slot, height, serial + 1, r.ts) }
  | none => { r with newest := some (r.slot, height, 1, r.ts) }

/-- A frame begins: the frame before it is ready with what has come of it, and a surface is taken that neither the newest
nor the latched frame lies in. -/
def Remote.begin (r : Remote) (ts : Nat) : Remote :=
  let r := if r.rows.isEmpty then r else r.finish (r.rows.foldl max 0 + 1)
  let busy (j : Nat) : Bool := r.latched == some j || (match r.newest with | some x => x.1 == j | none => false)
  { r with ts := ts, slot := (firstIdx (fun j => !busy j) 4 0).getD 0, rows := [] }

/-- The surface of a frame being received, of the width its rows have and the height that layers here read. -/
def Dev.remoteSurf (d : Dev) (key w h : Nat) : Option (Surf × Dev) :=
  match d.surf? key with
  | some u =>
    if u.w = w ∧ u.h = h then some (u, d)
    else ((d.release key).allocate key 0x11 false w h (ceilDiv (w * 4) 64 * 64) 0).bind (fun e => (e.surf? key).map (fun u => (u, e)))
  | none => (d.allocate key 0x11 false w h (ceilDiv (w * 4) 64 * 64) 0).bind (fun e => (e.surf? key).map (fun u => (u, e)))

/-- Rows of a source frame arrive (R549, R550). -/
def State.remoteRows (s : State) (dev : Nat) (body : List Byte) : State :=
  let h := leAt body 0 4
  let ts := leAt body 4 4
  let first := leAt body 8 2
  let count := leAt body 10 2
  let want := s.dev.rowsWanted dev h
  let len := (body.length - 16) / count
  let key := dev * 2 ^ 32 + h
  if want.isEmpty ∨ count = 0 ∨ body.length ≠ 16 + len * count ∨ len % 4 ≠ 0 ∨ len = 0 ∨ handleCls h ≠ clsIngest ∨ 512 ≤ handleIdx h then s
  else
    let height := (want.map (·.2)).foldl max 0
    let r0 : Remote := (Tab.get? s.dev.tbl.remote key).getD ⟨ts, 0, [], none, none⟩
    if r0.ts ≠ ts ∧ !tsAfter ts r0.ts then s
    else
      let r := if r0.ts = ts then r0 else r0.begin ts
      match s.dev.remoteSurf (remoteKey dev (handleIdx h) r.slot) (len / 4) height with
      | none => s
      | some (u, d) =>
        let s : State := { s with dev := d }
        let s := (List.range count).foldl (fun (s : State) j =>
          if first + j < u.h then (s.surfPut u false ((first + j) * u.pitch) (slice body (16 + j * len) len)).2 else s) s
        let rows := (List.range count).foldl (fun (l : List Nat) j => if first + j ∈ l then l else (first + j) :: l) r.rows
        let r := { r with rows := rows }
        let whole := want.all (fun (w : Nat × Nat) => (List.range (w.2 - w.1)).all (fun j => decide (w.1 + j ∈ rows)))
        let r := if whole then r.finish height else r
        s.upd (fun d => { d with tbl := { d.tbl with remote := Tab.set d.tbl.remote key r } })

/-- FRAME. -/
def execFrame (port : Nat) (bytes : List Byte) (s : State) : Out :=
  onTable port 5 bytes s (fun h body s => if 16 ≤ body.length then s.remoteRows h.src body else s)

/-- AMBIENT (R384): the fresh readings of another member. -/
def execAmbient (port : Nat) (hdr : TableHdr) (lux : List Nat) (s : State) : Out :=
  onTableData port hdr (fun p h => .tableAmbient p h lux) s (fun d =>
    { d with cal := { d.cal with ambPeers := Tab.set d.cal.ambPeers hdr.src (lux, d.time.now) } })

end Sys2Proof.Machine
end

