-- ==== Sys2Proof/Machine/Power.lean ====
section
/-! DEFINITION. Power and resets: the pace loop, trips, power-fail, the reset levels and start-up (R834 to R852, R804,
R814, R819, R839 to R843). -/

namespace Sys2Proof.Machine

/-! ### The VCORE pace loop (R835 to R837) -/

/-- The loop's target put, with the VOUT_COMMAND that a change writes. -/
def Dev.putTarget (d : Dev) (mv : Nat) : Dev :=
  if d.get R.PWR_VC_TARGET_MV = mv then d else (d.put R.PWR_VC_TARGET_MV mv).send (.vout mv)

/-- Cups with an active pip. -/
def Dev.pacedCups (d : Dev) : List Nat := (List.range 32).filter (fun c => (List.range 8).any (fun i => d.pipActive (8 * c + i)))

/-- A cup is short of its quarter's PA with 1/64 to spare. -/
def Dev.cupShort (d : Dev) (c : Nat) : Bool := decide (d.get (R.CUP_PACE_NOW c) * 64 < d.get (R.ADM_PA (c / 8)) * 65)

/-- A cup has 1/16 of PA to spare. -/
def Dev.cupSpare (d : Dev) (c : Nat) : Bool := decide (d.get (R.ADM_PA (c / 8)) * 17 ≤ d.get (R.CUP_PACE_NOW c) * 16)

/-- A step up of 5 mV, no higher than VADM. -/
def Dev.stepUp (d : Dev) : Dev :=
  let t := min (d.get R.PWR_VC_TARGET_MV + 5) (d.get R.ADM_VADM_MV)
  if t = d.get R.PWR_VC_TARGET_MV then d else ((d.putTarget t).bump R.PWR_VC_RAISE_CNT 1).raise 68

/-- A step down of 5 mV, no lower than VCORE_MIN. -/
def Dev.stepDown (d : Dev) : Dev :=
  let t := max (d.get R.PWR_VC_TARGET_MV - 5) (d.get R.PWR_VCORE_MIN_MV)
  if t = d.get R.PWR_VC_TARGET_MV then d
  else
    let d := ((d.putTarget t).bump R.PWR_VC_LOWER_CNT 1).raiseOnce 933
    { d with pwr := { d.pwr with lastDown := some d.time.now } }

/-- An instant lies at least 1 ms back. -/
def Dev.msAgo (d : Dev) (t : Nat) : Bool := decide (t + perMs ≤ d.time.now)

/-- One pass of the loop (R835). -/
def Dev.paceLoop (d : Dev) : Dev :=
  let cups := d.pacedCups
  let spare := cups.all d.cupSpare
  let since := if spare then some (d.pwr.spareSince.getD d.time.now) else none
  let d := { d with pwr := { d.pwr with spareSince := since } }
  if d.adm? = admTrial ∨ d.pwr.trialDone = false then d.putTarget (d.get R.ADM_VADM_MV)
  else if cups.any d.cupShort then (if d.on R.PWR_VC_LIMITED then d else d.stepUp)
  else if (match since with | some t => d.msAgo t | none => false) &&
      (match d.pwr.lastDown with | some t => d.msAgo t | none => true) then d.stepDown
  else d

/-- PACE_LOOP_TICK (R835): every 20 µs. -/
def execPaceLoopTick (s : State) : Out := .next (s.upd Dev.paceLoop)

/-- VCORE_POWER_SAMPLE (R836): READ_VOUT and READ_IOUT, every 100 µs. A reading that arrives ends a PMBus limit. -/
def execVcorePowerSample (mv milliAmp : Nat) (s : State) : Out :=
  .next (s.upd fun d =>
    let d := (d.put R.PWR_VCORE_MV mv).put R.PWR_VC_PWR (mv * milliAmp * 16 / 1000000)
    let d := { d with pwr := { d.pwr with
      limPower := decide (d.get R.PWR_VC_PMAX_W * 1000000 ≤ mv * milliAmp)
      limPmb := false } }
    d.limitRegs)

/-- PMB_ERR (R837): a PMBus transaction has failed three times in a row. -/
def execPmbErr (s : State) : Out :=
  .next (s.upd fun d => (({ d with pwr := { d.pwr with limPmb := true } }).flagRaise R.PWR_PMB_ERR 935).limitRegs)

/-- PMBUS_TIMEOUT (R837): no PMBus transaction has succeeded for 10 ms. -/
def execPmbusTimeout (s : State) : Out := .next (s.upd fun d => d.deviceFault suFaulted)

/-! ### Thermal trip (R800, R849) -/

/-- The switched domains that a thermal trip leaves on (R849). -/
def thermalKeeps (j : Nat) : Bool := j == 127 || j == 131 || j == 132 || j == 135

/-- Every switched domain but those of R849 goes off. -/
def Dev.thermalOff (d : Dev) : Dev :=
  (List.range 136).foldl (fun (d : Dev) j => if thermalKeeps j || !d.domOn j then d else d.domDown j) d

/-- DIE_TEMP_READ (R800, R836, R849): the 64 die sensors, in 1/16 °C. -/
def execDieTempRead (temps : List Int) (s : State) : Out :=
  .next (s.upd fun d =>
    let hot := maxInt temps
    let d : Dev := (temps.zipIdx).foldl (fun (d : Dev) p => d.dieSensor p.2 p.1) d
    let d : Dev := { d with
      bank := { d.bank with
        hottest := hot
        hottestEver := max hot d.bank.hottestEver }
      pwr := { d.pwr with
        dieTemps := temps
        limTemp := decide (((d.get R.PWR_TJ_LIMIT * 16 : Nat) : Int) ≤ hot)
        hotRuns := if 1840 ≤ hot then d.pwr.hotRuns + 1 else 0 } }
    let d := d.limitRegs
    if d.pwr.hotRuns = 3 then
      let d := { d with pwr := { d.pwr with thermal := true } }
      let d := d.flagRaise R.PWR_THERM_TRIP 4
      (d.deviceFault suFaulted).thermalOff
    else d)

/-! ### What a reset keeps (R838) -/

/-- Registers that a power-on reset keeps, because MRAM holds what they show: band tables, ledger numbers, MRAM wear. -/
def porKeeps (k : Nat) : Bool :=
  let a := k / 64
  (decide (0xF01000 ≤ a ∧ a < 0xF04000) && decide (0x20 ≤ (a - 0xF01000) % 0x80) && decide ((a - 0xF01000) % 0x80 < 0x30)) ||
    a == R.ST_LEDGER_SEQ.addr || a == R.ST_LEDGER_PSEQ.addr || a == R.ST_RETIRED_BLOCKS.addr || a == R.ST_WORST_WRITES_K.addr

/-- Registers that a warm reset keeps: those of the always-on set, the band tables, the PCIe link (R829, R838). -/
def warmKeeps (k : Nat) : Bool :=
  let a := k / 64
  alwaysOn (a / 0x100000) || porKeeps k || decide (0xF01000 ≤ a ∧ a < 0xF01080) ||
    decide (0xF01000 + 0x80 * 84 ≤ a ∧ a < 0xF01000 + 0x80 * 85) || a == R.QB_LINK_UP.addr

/-- The banker as a power-on reset leaves it: what MRAM and the fuses hold. -/
def bankKept (b : BankSt) : BankSt :=
  { general := b.general, protect := b.protect, objs := b.store, store := b.store, storedImage := b.storedImage,
    blown := b.blown, slots := b.slots, selector := b.selector, retiredSlots := b.retiredSlots, wearWarned := b.wearWarned,
    epoch := b.epoch }

/-- The clip store as a reset finds it on the drives: a store that was being built is lost. -/
def Dev.clipKept (d : Dev) : IngSt × Nat :=
  if d.store = storeReady ∨ d.store = storeFailed then ({ packs := d.ing.packs, members := d.ing.members }, d.store)
  else ({}, storeNone)

/-- A power-on reset (R838). -/
def Dev.porReset (d : Dev) : Dev :=
  let (ing, store) := d.clipKept
  let e : Dev := {
    regs := Tab.drop d.regs (fun k => !porKeeps k)
    bank := bankKept d.bank
    ing := ing
    free := d.free
    out := d.out }
  e.put R.CLIP_STORE store

/-- What a warm reset keeps of the state outside the always-on set (R838): generations, CSEQ and calibration holds. -/
def Dev.warmReset (d : Dev) : Dev :=
  let (ing, store) := d.clipKept
  let d := (List.range 32).foldl (fun (d : Dev) f => d.killFunction f true) d
  let e : Dev := { d with
    regs := Tab.drop d.regs (fun k => !warmKeeps k)
    acc := { d.acc with
      posted := Tab.drop d.acc.posted (fun b => !alwaysOn b)
      shadow := Tab.drop d.acc.shadow (fun k => !alwaysOn (k % 32)) }
    time := { d.time with turn := 1, refModePend := [], hops := [], delayTx := [] }
    q := {}
    ch := { d.ch with chans := [] }
    pwr := { d.pwr with
      hotRuns := 0
      thermal := false
      startupFail := false
      lastDown := none
      spareSince := none
      trialDone := false
      failed := [] }
    geo := {}
    sched := {}
    adm := {}
    pip := {}
    mem := { poison := d.mem.poison }
    comp := {}
    cal := { held := d.cal.held }
    push := {}
    snk := {}
    ing := ing
    blt := {}
    sns := {}
    tbl := {} }
  (e.put R.CLIP_STORE store).journalIdle

/-! ### Start-up steps (R840) -/

/-- R843: a start-up step fails. -/
def Dev.startFails (d : Dev) : Dev :=
  let d := d.deviceFault suFaulted
  ({ d with pwr := { d.pwr with startupFail := true } }).raise 9

/-- A synthesizer locks from its stored entry, or by the search whose result is given (R661). -/
def Dev.synUp (d : Dev) (bands : List (Nat × Nat × Nat)) (s : Nat) : Dev :=
  let d := if d.on (R.SYNS_VALID s 0) then d.putBand s (d.get (R.SYNS_BAND_20 s 0)) (d.get (R.SYNS_CW_20 s 0))
    else
      let b := bands.getD s (0, 0, 0)
      ((d.putBand s b.1 b.2.1).putEntry s 0 b.1 b.2.1 b.2.2).synFlag s (R.SYNS_SEARCH s)
  (d.putSyn s synLocked).synFlag s (R.SYNS_LOCK s)

/-- Step 1, the boot ROM (R819, R820): the slot that runs, none where both are invalid. A trial that a reset ended is
reverted (R821). -/
def Dev.bootSlot (d : Dev) (env : StartEnv) (wasTrial : Bool) : Option Nat × Dev :=
  let valid (i : Nat) : Bool := if i = 0 then env.slotAValid else env.slotBValid
  let sel := d.bank.selector
  let d := if wasTrial then
      (d.raise 981).ledger ⟨true, 0x0503, 0x1F, 1, slotEntry sel (d.slotImage sel) 0, false⟩
    else d
  let run (i : Nat) (d : Dev) : Option Nat × Dev :=
    (some i, (d.put R.ST_ACTIVE_SLOT i).ledger ⟨true, 0x0500, 0x1F, 1, slotEntry i (d.slotImage i) 0, false⟩)
  if valid sel then run sel d
  else
    let d := (d.raise 977).ledger ⟨true, 0x0501, 0x1F, 1, slotEntry sel (d.slotImage sel) 1, false⟩
    if valid (1 - sel) then run (1 - sel) d else (none, d)

/-- Step 2, journal replay (R814): a transaction staged and not committed is discarded. -/
def Dev.replayJournal (d : Dev) (staged : Bool) : Dev :=
  if staged then ((d.flag R.ST_REPLAY).raiseD 973 16).ledger ⟨false, 0x0602, 0x1F, 1, leBytes 1 0 ++ leBytes 2 1, false⟩ else d

/-- The image in force, or no image (R95). -/
def Dev.loadImage (d : Dev) : Dev :=
  match d.bank.storedImage with
  | none => { d with sched := { d.sched with quiet := 20 } }
  | some img =>
    match parseImage img with
    | none => { d with sched := { d.sched with quiet := 20 } }
    | some im =>
      let (num, den) := periodOf im.cadence
      let d := { d with geo := d.geometry img im, sched := { d.sched with quiet := im.quiet } }
      (d.put R.PUSH_PERIOD_NUM num).put R.PUSH_PERIOD_DEN den

/-- Step 3: switched domains on, but for those requested off; the first of its answers tells a vital one that fails. -/
def Dev.domainsUp (d : Dev) (bad : List Nat) : Bool × Dev :=
  (List.range 136).foldl (fun (p : Bool × Dev) j =>
    if !p.2.domWanted j then p
    else if j ∉ bad then (p.1, p.2.putDom j true)
    else if domVital j then (true, (p.2.flag R.PWR_DOM_ERR).raiseLedger 937 64 16)
    else (p.1, p.2.domFails j)) (false, d)

/-- Step 4: synthesizers 1 to 83 of domains that are on. -/
def Dev.synsUp (d : Dev) (bands : List (Nat × Nat × Nat)) : Dev :=
  (List.range 136).foldl (fun (d : Dev) j =>
    match domSyn j with
    | some s => if d.domOn j then d.synUp bands s else d
    | none => d) d

/-- Slots of a cup that are neither retired nor failing, in ascending order (R804). -/
def Dev.goodSlots (d : Dev) (bad : List Nat) (c : Nat) : List Nat :=
  (List.range 9).filter (fun i => !decide ((9 * c + i) ∈ bad) && !decide ((9 * c + i) ∈ d.bank.retiredSlots))

/-- A cup's SLOT_MAP and its reserve, in force from the start (R804). -/
def Dev.cupUp (d : Dev) (slots : List Nat) (c : Nat) : Dev :=
  let map := (List.range 8).foldl (fun m i => m + slots.getD i 15 * 16 ^ i) 0
  let n := min 8 slots.length
  let d := (List.range 8).foldl (fun (d : Dev) i => d.put (R.PIP_SLOT (8 * c + i)) (slots.getD i 15)) d
  let d := ((d.put (R.CUP_SLOT_MAP c) map).put (R.CUP_ACTIVE c) (2 ^ n - 1)).put (R.CUP_RES_AVAIL c) (if n = 8 ∧ 8 < slots.length then 1 else 0)
  { d with pip := { d.pip with
    map := Tab.set d.pip.map c map
    reserve := Tab.set d.pip.reserve c (slots.getD 8 15) } }

/-- Step 4, slot self-test (R804): a cup of a failed hub has no slot, a cup with no good slot loses its pips (R843). -/
def Dev.slotsUp (d : Dev) (env : StartEnv) : Dev :=
  let d := (List.range 32).foldl (fun (d : Dev) c =>
    let quarter := decide ((32 + c / 8) ∈ env.badDomains)
    let out := quarter || decide (c ∈ env.badDomains)
    let slots := if out then [] else d.goodSlots env.badSlots c
    let d := d.cupUp slots c
    if out then d.cupOut c (if quarter then 3 else 2) else d) d
  let d := (List.range 4).foldl (fun (d : Dev) q => (d.put (R.FAB_ACTIVE q) (d.activePips q).length).reserveRegs q) d
  (List.range 32).foldl (fun (d : Dev) c =>
    if (List.range 8).any (fun i => d.pipActive (8 * c + i)) then d else d.pipLoss (c / 8)) d

/-- Step 5: the stacks train; the first of its answers tells one that fails (R238, R246). -/
def Dev.stacksUp (d : Dev) (env : StartEnv) : Bool × Dev :=
  (List.range 8).foldl (fun (p : Bool × Dev) k =>
    let t := unsigned 8 (env.stackTemps.getD k 0)
    let d := p.2.put (R.STK_TEMP k) t
    if k ∈ env.badStacks then (true, ((d.put (R.STK_STATE k) stkDead).stkFlag k (R.STK_FATAL k)).raise 7)
    else (p.1, d.stackTrained k t)) (false, d)

/-- Step 6: the pace trial at VADM (R126 to R129). -/
def Dev.trialUp (d : Dev) (env : StartEnv) : Dev :=
  let d := d.putTarget (d.get R.ADM_VADM_MV)
  (d.put R.ADM_STATE admTrial).trialResult env.trialPaces

/-- Step 7, table links: the members this device sees, and what it forms with them (R445 to R447). -/
def Dev.tableUp (d : Dev) (env : StartEnv) : Dev :=
  let n := d.geo.devices
  let d := d.put R.PUSH_EPOCH d.bank.epoch
  if n ≤ 1 then d.put R.PUSH_TABLE tsAlone
  else if n ≤ d.ownIdx then (d.put R.PUSH_TABLE tsAlone).indexError
  else
    let peers := env.peers.filter (fun (p : Nat × Nat × Nat) => decide (p.1 < n) && p.1 != d.ownIdx)
    let part := (peers.map (fun (p : Nat × Nat × Nat) => p.1)).eraseDups
    let d := peers.foldl (fun (d : Dev) (p : Nat × Nat × Nat) =>
      if p.2.2 < 8 ∧ d.tablePort p.2.2 then (d.sendHello p.2.2).tableChannel p.2.2 p.1 else d) d
    let d := { d with tbl := { d.tbl with
      part := part
      epochs := peers.foldl (fun (t : Tab Nat) (p : Nat × Nat × Nat) => Tab.set t p.1 p.2.1) [] } }
    let top := peers.foldl (fun e (p : Nat × Nat × Nat) => max e p.2.1) d.bank.epoch
    let d := ((d.putRuler (part.foldl min d.ownIdx)).putEpoch (top + 1)).raise 839
    if part.length + 1 = n then d.put R.PUSH_TABLE tsJoined else (d.put R.PUSH_TABLE tsDivided).raise 837

/-- Step 7: snakes with squares lock, and the drives of the clip store are found. -/
def Dev.portsUp (d : Dev) (env : StartEnv) : Dev :=
  let d := if d.store = storeReady then
      let sizes := env.drives.filterMap (fun i => if Tab.get? d.ing.members i.port = some i.serial then some i.sizeBytes else none)
      (d.put R.CLIP_CAP_BYTES (managed sizes)).clipRegs
    else d
  let d := d.rescan (env.drives.filter (fun i => d.domOn (128 + i.port / 4)))
  (List.range 256).foldl (fun (d : Dev) s => if d.domOn (55 + s / 4) then d.portUp s else d) d

/-- Step 8: the device runs; its first present instant is the next point of the grid (R840, R841). -/
def Dev.runUp (d : Dev) (env : StartEnv) : Dev :=
  let d := d.advance (env.suMs * perMs)
  let d := (d.put R.PWR_SU_STATE suRun).put R.PWR_SU_MS env.suMs
  let d := { d with sched := { d.sched with
    phase := .pushed
    presNs := d.devNs
    presNow := d.time.now } }
  ((d.raise 8).markAll d.allPatches).flowRegs.admRegs

/-- Steps 5 to 8. -/
def Dev.startLate (d : Dev) (env : StartEnv) : Dev :=
  let (bad, d) := d.stacksUp env
  if bad then d.startFails
  else (((d.trialUp env).tableUp env).portsUp env).runUp env

/-- Steps 3 to 8: the image is in force already, so that what a domain is held by is known (R831). -/
def Dev.startMain (d : Dev) (env : StartEnv) (level : Nat) : Dev :=
  let d := d.ledger ⟨false, 0x0600, 0x1F, 1, leBytes 1 level, false⟩
  let d := d.loadImage
  let (bad, d) := d.domainsUp env.badDomains
  if bad then d.startFails else ((d.synsUp env.bands).slotsUp env).startLate env

/-- A power-on reset and the start-up after it. -/
def Dev.powerOn (d : Dev) (env : StartEnv) : Dev :=
  let staged := d.bank.staged.isSome
  let wasTrial := d.get R.ST_UPD_STATE = 3
  let d := (d.porReset.put R.PUSH_DEV_INDEX env.devIndex)
  let d := (d.synUp env.bands 0).synUp env.bands 84
  let d := (d.putDom 135 (decide (135 ∉ env.badDomains))).putDom 127 (decide (127 ∉ env.badDomains))
  if 135 ∈ env.badDomains then ((d.flag R.PWR_DOM_ERR).raiseLedger 937 64 16).startFails
  else
    let (slot, d) := d.bootSlot env wasTrial
    match slot with
    | none => d.put R.PWR_SU_STATE suRecovery
    | some _ => ((d.replayJournal staged).viewsApply 0 0x1300000).startMain env 0

/-- POWER_ON_RESET (R838, R839): RESET_N low or VAUX low, and start-up from BOOT. No byte of HBM is kept. -/
def execPowerOnReset (env : StartEnv) (s : State) : Out :=
  .next { s with dev := s.dev.powerOn env, hbm := [] }

/-! ### Warm resets (R838, R851) -/

/-- A warm reset with its cause: start-up from step 3. A device in RECOVERY has no banker that could go on from there. -/
def Dev.warmStart (d : Dev) (cause : Nat) (env : StartEnv) : Dev :=
  let recovery := d.get R.PWR_SU_STATE = suRecovery
  let d := ((d.put R.PWR_SU_STATE 2).put R.PWR_RESET_CAUSE cause).bump R.PWR_WARM_CNT 1
  let d := d.warmReset
  let d := ((d.put R.PUSH_DEV_INDEX env.devIndex).viewsApply 0x200000 0xE00000).viewsApply 0xF01080 0xF03A00
  let d := (d.putSyn 0 (d.synState 0)).putSyn 84 (d.synState 84)
  if recovery then d.put R.PWR_SU_STATE suRecovery else d.startMain env 1

/-- RST_CMD of WARM: discarded while PFAIL (R851, R852). -/
def Dev.warmCmd (d : Dev) (env : StartEnv) : Dev :=
  if d.get R.PWR_SU_STATE = suPfail then d.wrange 0x1000010 else d.warmStart 1 env

/-- WARM (R851): RST_CMD WARM by a requester. -/
def execWarm (req : Nat) (env : StartEnv) (s : State) : Out :=
  onUnit (decide (req < 33)) s (fun d => if fullAccess req then d.warmCmd env else d)

/-- Automatic warm resets in the last 600 s. -/
def Dev.recentWarms (d : Dev) : List Nat := d.pwr.warms.filter (fun t => decide (d.time.now < t + 600 * perSec))

/-- An automatic warm reset is due: what R851 asks of the fault. -/
def Dev.autoWarmDue (d : Dev) : Bool :=
  d.on R.PWR_AUTO_WARM && d.get R.PWR_SU_STATE == suFaulted && !d.pwr.startupFail &&
    (!d.pwr.thermal || d.pwr.dieTemps.all (fun t => decide (t < 1520)))

/-- AUTO_WARM_TIMEOUT (R851): 100 ms after a device-level fault, or after a thermal trip with every die reading below
95 °C. -/
def execAutoWarmTimeout (env : StartEnv) (s : State) : Out :=
  .next (s.upd fun d =>
    if !d.autoWarmDue then d
    else if 3 ≤ d.recentWarms.length then d.flagRaise R.PWR_WARM_LIMIT 10
    else ({ d with pwr := { d.pwr with warms := d.time.now :: d.recentWarms } }).warmStart 2 env)

/-! ### Power-fail (R844 to R846, R813) -/

/-- The journal at power-fail: the transaction in progress commits, those that wait are lost without an answer, and then
MRAM takes no more writes (R813, R845). -/
def Dev.journalStop (d : Dev) : Dev :=
  let lost := d.bank.waiting.length
  let d := match d.bank.staged with
    | some t => if d.bank.restarting then d else d.commitTxn t
    | none => d
  let d := ({ d with bank := { d.bank with staged := none, waiting := [] } }).journalRegs
  let d := d.ledger ⟨false, 0x0601, 0x1F, 1, leBytes 1 3 ++ leBytes 2 lost, false⟩
  { d with bank := { d.bank with writeProtect := true } }

/-- Power-fail is declared. -/
def Dev.powerFail (d : Dev) : Dev :=
  let d := ((d.put R.PWR_PFAIL_LVL 1).bump R.PWR_PFAIL_CNT 1).flagRaise R.PWR_PFAIL 3
  if d.get R.PWR_SU_STATE = suFaulted ∨ d.get R.PWR_SU_STATE = suPfail then d.ledgerEvent 0 0 16
  else
    let asks (o : Owed) : Bool := match o.kind with | .admission _ => true | .table _ => true | _ => false
    ((d.settle asks stBusy none).deviceStop suPfail).journalStop

/-- PFAIL (R844): PFAIL_N has been low for 2 µs. -/
def execPfail (s : State) : Out := .next (s.upd Dev.powerFail)

/-- PFAIL_CLEAR (R846): PFAIL_N has been high for 100 ms with the rails in their windows. -/
def execPfailClear (env : StartEnv) (s : State) : Out :=
  .next (s.upd fun d =>
    let d := d.put R.PWR_PFAIL_LVL 0
    if d.get R.PWR_SU_STATE ≠ suPfail then d
    else ({ d with bank := { d.bank with writeProtect := false } }.warmStart 3 env).raise 11)

/-! ### A banker restart ends (R799, R819) -/

/-- BANKER_RESTART_DONE (R799). A device that was in RECOVERY and now has a slot to run goes on with its start-up (R819). -/
def execBankerRestartDone (s : State) : Out :=
  .next (s.upd fun d =>
    let rescued := d.bank.restarting && d.bank.boot == 1 && d.get R.PWR_SU_STATE == suRecovery
    let d := d.bankerUp
    if rescued then
      let env := Config.startEnv d.free
      let d := { d with free := d.free + 1 }
      ((d.put R.PUSH_DEV_INDEX env.devIndex).viewsApply 0 0x1300000).startMain env 0
    else d)

end Sys2Proof.Machine
end

