-- ==== Sys2Proof/Machine/Dict.lean ====
section
/-! DEFINITION. Writes of dictionary objects: what each changes, fuses, refusals, ledger entries, updates (R764 to R781, R808,
R817 to R822, R824). -/

namespace Sys2Proof.Machine

/-! ### Banker images (R817, R818) -/

/-- The SHA-256 of the update public key, as the fuses hold it (R815). -/
def updateHash : List Byte := (List.range 32).map (fun i => BitVec.ofNat 8 (fuseBits (768 + 8 * i + 7) (768 + 8 * i)))

/-- Header and signature of a banker image: what MALFORMED answers for (R818, R820). -/
def slotSigned (img : List Byte) : Bool :=
  decide (128 ≤ img.length ∧ img.length ≤ 0x4000000) && leAt img 0 4 == 0x4B4E4142 && leAt img 4 2 == 1 && allZero (slice img 6 2) &&
    allZero (slice img 56 8) && leAt img 16 8 == img.length && sha256 (slice img 24 32) == updateHash &&
    edVerify (slice img 24 32) (slice img 64 64) (slice img 0 64 ++ img.drop 128)

/-! ### Update commands (R820 to R822) -/

/-- VERIFY: its status, and STAGED where it is OK. -/
def Dev.updVerify (d : Dev) : Nat × Dev :=
  let img := d.slotImage d.spareSlot
  if !slotSigned img then (stMalformed, d)
  else if leAt img 12 4 < d.objNat 0x7040 1 0 then (stRange, d)
  else (stOk, d.putUpd 2 d.spareSlot (some 978))

/-- ACTIVATE: the restart follows 100 ms after the response. -/
def Dev.updActivate (d : Dev) : Dev := { d with bank := { d.bank with activating := true } }

/-- CONFIRM: the slot on trial becomes the active one. -/
def Dev.updConfirm (d : Dev) : Dev :=
  let slot := d.spareSlot
  let d := d.putUpd 0 slot (some 980)
  { d.put R.ST_ACTIVE_SLOT slot with bank := { d.bank with selector := slot } }

/-- ABORT: what is being received, or is staged, is given up. -/
def Dev.updAbort (d : Dev) : Dev :=
  let d := d.putUpd 0 d.spareSlot none
  { d with bank := { d.bank with
    activating := false
    activateDue := false
    segs := d.bank.segs.filter (fun s => s.index ≠ 0x9000) } }

/-- A command of 0x9000:02. -/
def Dev.updCommand (d : Dev) (cmd : Nat) : Nat × Dev :=
  if cmd = 1 then d.updVerify
  else if cmd = 2 then (stOk, d.updActivate)
  else if cmd = 3 then (stOk, d.updConfirm)
  else (stOk, d.updAbort)

/-- The inactive slot put to an image, or erased by an empty one: RECEIVING (R820). -/
def Dev.updReceive (d : Dev) (img : List Byte) : Dev :=
  let d := d.putUpd 1 d.spareSlot none
  { d with bank := { d.bank with slots := Tab.set d.bank.slots d.spareSlot img } }

/-! ### Maintenance (R824) -/

/-- 0xA000:03: a logical pip fails, with its ledger entry. -/
def Dev.failByCommand (d : Dev) (r : Req) (pip : Nat) : Dev :=
  let c := cupOf pip
  let m := d.get (R.CUP_SLOT_MAP c)
  let slot := bits m (4 * (pip % 8) + 3) (4 * (pip % 8))
  (d.ledger ⟨false, 0x0104, 0x1F, 1, slotData c pip slot slot m ++ leBytes 1 r.role ++ leBytes 1 r.transport, false⟩).pipFails pip false

/-! ### Effects -/

/-- A value of an RW object, held until the banker resets (R764). -/
def Dev.putRw (d : Dev) (idx sub : Nat) (raw : List Byte) : Dev :=
  { d with bank := { d.bank with rw := Tab.set d.bank.rw (objKey idx sub) raw } }

/-- The timing change that a write of an object asks for (R417, R643). -/
def Dev.timingOf (d : Dev) (idx : Nat) (raw : List Byte) : Timing :=
  let now := { d.timingNow with ne := 0 }
  if idx = 0x5001 then
    let (num, den) := periodOf (beOf raw)
    { now with num := num, den := den }
  else if idx = 0x5030 then { now with src := beOf raw }
  else { now with refModes := [(idx - 0x5032, beOf raw)] }

/-- An object of class RWP or RWL that acts beside its value. -/
def Dev.settingWrite (d : Dev) (idx sub : Nat) (raw : List Byte) : Dev :=
  if idx = 0x5010 ∧ sub = 1 then
    let hold := d.holdMs
    let d := d.setValue idx sub raw
    if d.holdMs = hold then d else d.reconfigAll
  else if d.isTiming idx sub then
    let t := d.timingOf idx raw
    (if idx = 0x5030 then d.setValue idx sub raw else d).askTiming t
  else if 0x5040 ≤ idx ∧ idx < 0x5095 ∧ sub = 3 then
    let d := d.setValue idx sub raw
    if idx = 0x5040 then (if beOf raw = d.get (R.SYNS_REF_MODE 0) then d else d.synReject)
    else { d with time := { d.time with refModePend := Tab.set d.time.refModePend (idx - 0x5040) (beOf raw) } }
  else if idx = 0x5021 then
    let d := d.setValue idx sub raw
    if beOf raw = 1 ∧ d.on (R.IPORT_LINK_UP (sub - 1)) then d.sendHello (sub - 1) else d
  else d.setValue idx sub raw

/-- An object of class RW or WO written: its status, since some check their own value. -/
def Dev.actWrite (d : Dev) (r : Req) (env : StartEnv) (idx sub : Nat) (raw : List Byte) : Nat × Dev :=
  let v := beOf raw
  if idx = 0x3000 then (stOk, { d with bank := { d.bank with mirror := Tab.set d.bank.mirror r.key v } })
  else if idx = 0x5001 then
    let t := d.timingOf idx raw
    if !d.fitsPeriod t.num t.den then (stRefused, d) else (stOk, (d.putRw idx sub raw).askTiming t)
  else if idx = 0x6200 ∨ idx = 0x6201 then (stOk, d.bindTo r.role r.transport (idx - 0x6200) (sub - 4) v)
  else if idx = 0x7002 then (stOk, { d with bank := { d.bank with dictLock := true } })
  else if idx = 0x8001 then
    let c := d.cursorOf r.key
    (stOk, { d with bank := { d.bank with cursor := Tab.set d.bank.cursor r.key (if sub = 1 then (v, c.2) else (c.1, v)) } })
  else if idx = 0x8002 then (stOk, d.verifyChain ((d.cursorOf r.key).2 == 1) v)
  else if idx = 0x9000 then if sub = 1 then (stOk, d.updReceive raw) else d.updCommand v
  else if sub = 2 then (stOk, d.bankerRestart false)
  else if sub = 3 then (stOk, d.failByCommand r v)
  else if sub = 4 then if d.get R.PWR_SU_STATE = suPfail then (stBusy, d) else (stOk, d.warmStart 1 env)
  else (stOk, d.putRw idx sub raw)

/-! ### Fuses (R776, R816) -/

/-- Fuses of a count are blown until one verifies: true where one did, false where none was left. -/
def Dev.consume (d : Dev) (lo hi : Nat) : Nat → Bool × Dev
  | 0 => (false, d)
  | n + 1 =>
    match d.nextFuse lo hi with
    | none => (false, d)
    | some b =>
      let d := d.blowFuse b
      if Config.fuseFails b then
        (((d.flag R.ST_FUSE_FAIL).raiseD 976 64).ledger ⟨true, 0x0505, 0x1F, 1, leBytes 4 b, false⟩).consume lo hi n
      else (true, d)

/-- The count of an RWW object is taken for a change; COUNT_ZERO where none remains (R797). -/
def Dev.takeCount (d : Dev) (key : Nat) : Bool × Dev :=
  match countFuses key with
  | none => (true, d)
  | some (lo, hi) =>
    let left := d.fusesLeft lo hi
    let (ok, d) := d.consume lo hi left
    (ok, if 0 < left && d.fusesLeft lo hi == 0 then d.raise 963 else d)

/-! ### Records (R770, R778) -/

/-- A value as a ledger entry carries it, numbers little-endian, long values and keys by their digests (R778, R806). -/
def ledgerVal (idx typ : Nat) (v : List Byte) : List Byte :=
  if idx = 0x7030 then (if v.isEmpty then [] else (sha256 v).take 8)
  else
    let v := if typ = tStr ∨ typ = tBlob then v else v.reverse
    if 32 < v.length then sha256 v else v

/-- The value that an entry gives as the old one: none for a WO object, a key as it is held. -/
def Dev.oldValue (d : Dev) (r : Req) (idx sub : Nat) : List Byte :=
  if idx = 0x7030 ∧ sub ≤ 4 then (Tab.get? d.bank.objs (objKey idx sub)).getD [] else (d.objRead r.key idx sub).2.2

/-- The entry of R778. The index is that of the request. -/
def writeEntry (r : Req) (idx sub st : Nat) (old new : List Byte) : LedReq :=
  ⟨true, if st = stOk then 0x0300 else 0x0301, 0x1F, 1,
    leBytes 1 r.role ++ leBytes 1 r.transport ++ leBytes 4 r.client ++ leBytes 2 idx ++ leBytes 1 sub ++ leBytes 1 st ++
      leBytes 1 old.length ++ leBytes 1 new.length ++ old ++ new, false⟩

/-- An object whose one line is changed in place, without the journal (R812). -/
def Dev.putLine (d : Dev) (key : Nat) (raw : List Byte) : Dev :=
  { d with bank := { d.bank with objs := Tab.set d.bank.objs key raw, store := Tab.set d.bank.store key raw } }

/-- A refusal with LOCKED or LIMIT_EXHAUSTED (R770). -/
def Dev.refusedWrite (d : Dev) : Dev :=
  let n := d.objNat 0x7002 3 0
  ((d.putLine 0x700202 (beBytes 1 1)).putLine 0x700203 (beBytes 8 (min (n + 1) (2 ^ 64 - 1)))).raise 1011

/-- The entries that a write makes (R770, R778). -/
def writeEntries (r : Req) (idx sub st : Nat) (old new : List Byte) : List LedReq :=
  if st = stLocked ∨ st = stLimit ∨ (0x7000 ≤ idx ∧ idx < 0x8000) then [writeEntry r idx sub st old new] else []

/-! ### A write -/

/-- A write as a request makes it. `answer` gives its response for a status and a remaining count, none where nothing
asks for one. -/
structure ObjWrite where
  r : Req
  env : StartEnv
  idx : Nat
  sub : Nat
  typ : Nat
  raw : List Byte
  answer : Nat → Nat → Option Reply

/-- The object's index as it is held. -/
def ObjWrite.inner (w : ObjWrite) : Nat := innerIdx w.idx w.sub w.typ

/-- REMAIN of a response (R785). -/
def Dev.remainOf (d : Dev) (w : ObjWrite) : Nat := d.remaining (objKey w.idx w.sub)

/-- The entries of a write that ends with a status, its old value taken in `before`. -/
def Dev.entriesOf (before : Dev) (w : ObjWrite) (st : Nat) : List LedReq :=
  writeEntries w.r w.idx w.sub st (ledgerVal w.idx w.typ (before.oldValue w.r w.inner w.sub)) (ledgerVal w.idx w.typ w.raw)

/-- A write ends at once with a status: what R770 asks for, its entries, its response. -/
def Dev.endWrite (d before : Dev) (w : ObjWrite) (st : Nat) : Dev :=
  let d := if st = stLocked ∨ st = stLimit then d.refusedWrite else d
  let d : Dev := (before.entriesOf w st).foldl (fun (d : Dev) e => d.ledger e) d
  let d := if st = stOk ∧ 0x7000 ≤ w.idx ∧ w.idx < 0x8000 then d.raise 965 else d
  d.reply? (w.answer st (d.remainOf w))

/-- An object of a control port changes when the response has left (R783). -/
def lateObj (idx sub : Nat) : Bool := idx == 0x7050 || idx == 0x17051 || (idx == 0x7051 && decide (3 ≤ sub))

/-- A journaled write takes effect: the value is in force, and its transaction carries its entries and its response. -/
def Dev.commitWrite (d before : Dev) (w : ObjWrite) : Dev :=
  let idx := w.inner
  let key := objKey idx w.sub
  let late := lateObj idx w.sub
  let d := if late then d else d.settingWrite idx w.sub w.raw
  let d := if idx = 0x7010 then { d with cal := { d.cal with ceilPend := d.cal.ceilPend + 1 } } else d
  let d := if idx = 0x7030 then d.raise 962 else d
  let d := if 0x7000 ≤ w.idx ∧ w.idx < 0x8000 then d.raise 965 else d
  let t : Txn := {
    objs := [(key, w.raw)]
    entries := before.entriesOf w stOk
    answer := w.answer stOk (d.remainOf w)
    late := if late then [(key, w.raw)] else [] }
  d.journal t

/-- A write of a write-limited object that passes R766: of the value in force it changes nothing, else it takes a count
(R776, R816). -/
def Dev.limitedWrite (d : Dev) (w : ObjWrite) : Dev :=
  let key := objKey w.idx w.sub
  let now := match Tab.get? d.bank.objs key with
    | some v => some v
    | none => if w.idx = 0x7030 then none else (objDef? w.idx w.sub).map ObjDef.dfltBytes
  if now = some w.raw then d.endWrite d w stOk
  else
    let (ok, e) := d.takeCount key
    if ok then e.commitWrite d w else e.endWrite d w stLimit

/-- A write of an image (R92, R96): its status is kept whatever refuses it. -/
def Dev.imageWrite (d : Dev) (w : ObjWrite) : Dev :=
  let (st, e) := d.offerImage w.raw (w.answer stOk 0xFFFF)
  if st = stOk then e else e.endWrite d w st

/-- A write of an object (R764 to R778). Once MRAM takes no more writes, one that would need it is lost (R813). -/
def Dev.objWrite (d : Dev) (w : ObjWrite) : Dev :=
  let st := d.writeStatus w.r.role w.inner w.sub w.typ w.raw
  if st ≠ stOk then
    let d := if w.idx = 0x2001 then { d with bank := { d.bank with imageStatus := st } } else d
    d.endWrite d w st
  else if w.idx = 0x2001 then (if d.bank.writeProtect then d else d.imageWrite w)
  else match objDef? w.inner w.sub with
    | none => d
    | some o =>
      if o.acc.journaled then
        if d.bank.writeProtect then d
        else if o.acc = .rww then d.limitedWrite w
        else d.commitWrite d w
      else
        let (st, e) := d.actWrite w.r w.env w.inner w.sub w.raw
        e.endWrite d w st

/-! ### Rows that are one write of function 0 through the mailbox -/

/-- A write with no response of its own. -/
def writeOf (role : Nat) (env : StartEnv) (idx sub typ : Nat) (raw : List Byte) : ObjWrite :=
  { r := reqOf role, env := env, idx := idx, sub := sub, typ := typ, raw := raw, answer := fun _ _ => none }

/-- The dictionary service serves no object while the banker restarts; in RECOVERY it serves 0x9000 alone, to the
integrator and factory roles (R799, R819). -/
def Dev.serves (d : Dev) (role idx : Nat) : Bool :=
  !d.bank.restarting && (d.get R.PWR_SU_STATE != suRecovery || (idx == 0x9000 && (role == 2 || role == 4)))

/-- A write by one of the five roles. -/
def directWrite (role idx sub typ : Nat) (raw : List Byte) (s : State) : Out :=
  onUnit (decide (role < 5)) s (fun d => if d.serves role idx then d.objWrite (writeOf role default idx sub typ raw) else d)

/-- IMAGE_LOAD (R92): a write to 0x2001:00. -/
def execImageLoad (role : Nat) (image : List Byte) (s : State) : Out := directWrite role 0x2001 0 tBlob image s

/-- DICT_LOCK_SET (R769): a write of 1 to 0x7002:01. -/
def execDictLockSet (role : Nat) (s : State) : Out := directWrite role 0x7002 1 tBool [1] s

/-- VERIFY (R820). -/
def execVerify (role : Nat) (s : State) : Out := directWrite role 0x9000 2 tU8 [1] s

/-- ACTIVATE (R821). -/
def execActivate (role : Nat) (s : State) : Out := directWrite role 0x9000 2 tU8 [2] s

/-- CONFIRM (R820). -/
def execConfirm (role : Nat) (s : State) : Out := directWrite role 0x9000 2 tU8 [3] s

/-- ABORT (R820). -/
def execAbort (role : Nat) (s : State) : Out := directWrite role 0x9000 2 tU8 [4] s

/-- BANKER_RESTART_CMD (R824): a write of 1 to 0xA000:02. -/
def execBankerRestartCmd (role : Nat) (s : State) : Out := directWrite role 0xA000 2 tBool [1] s

/-- PIP_FAIL_CMD (R824): a write to 0xA000:03. -/
def execPipFailCmd (role pip : Nat) (s : State) : Out :=
  if 256 ≤ pip then .refused .noSuchUnit else directWrite role 0xA000 3 tU8 (beBytes 1 pip) s

/-- WARM_RESET_CMD (R851): a write to 0xA000:04. -/
def execWarmResetCmd (role value : Nat) (env : StartEnv) (s : State) : Out :=
  if 256 ≤ value then .refused .noSuchUnit
  else onUnit (decide (role < 5)) s (fun d =>
    if d.serves role 0xA000 then d.objWrite (writeOf role env 0xA000 4 tBool (beBytes 1 value)) else d)

/-- CHAIN_VERIFY (R808): a write to 0x8002:01. -/
def execChainVerify (role seq : Nat) (s : State) : Out :=
  if 2 ^ 64 ≤ seq then .refused .noSuchUnit else directWrite role 0x8002 1 tU64 (beBytes 8 seq) s

end Sys2Proof.Machine
end

