-- ==== Sys2Proof/Machine/Shovin.lean ====
section
/-! DEFINITION. Shovin: messages, authentication, freshness and replay, the operations, the mailbox, frames of the control
ports (R782 to R792). -/

namespace Sys2Proof.Machine

/-! ### Requests (R784) -/

/-- A request message read. -/
structure ShMsg where
  op : Nat
  role : Nat
  status : Nat
  len : Nat
  client : Nat
  seq : Nat
  /-- its TIME in ns, and its reserved bytes -/
  timeNs : Nat
  rsv : List Byte
  body : List Byte
  /-- what the HMAC covers, and the HMAC -/
  signed : List Byte
  mac : List Byte
  deriving DecidableEq, Repr

/-- A message without trailer: TIME under ROLE 0xFF (R784). -/
def plainTime (role op : Nat) : Bool := role == 0xFF && op == 5

/-- A request read: none where it is no request of this protocol, or its length is not that of its LEN (R786). -/
def readMsg (m : List Byte) : Option ShMsg :=
  let op := byteAt m 3
  let role := byteAt m 4
  let len := beAt m 6 2
  let tail := if plainTime role op then 0 else 32
  if m.length ≠ 32 + len + tail ∨ beAt m 0 2 ≠ 0x5356 ∨ byteAt m 2 ≠ 1 ∨ 128 ≤ op ∨ (4 < role ∧ !plainTime role op) then none
  else some {
    op := op
    role := role
    status := byteAt m 5
    len := len
    client := beAt m 8 4
    seq := beAt m 12 4
    timeNs := beAt m 16 6 * 1000000000 + beAt m 22 4
    rsv := slice m 26 6
    body := slice m 32 len
    signed := m.take (32 + len)
    mac := m.drop (32 + len) }

/-- Where a request came from: its transport, the mailbox request that it is, and where its response goes. -/
structure Via where
  transport : Nat
  tok : Nat
  dest : Option (Nat × Nat × Nat)
  deriving DecidableEq, Repr

/-- The key that authenticates a request: that of its role, or 32 zero bytes for a WRITE of the role's own unset key
through the mailbox (R780). -/
def Dev.keyFor (d : Dev) (v : Via) (m : ShMsg) : Option (List Byte) :=
  match d.roleKey m.role with
  | some k => some k
  | none =>
    if v.transport = 2 ∧ m.op = 2 ∧ beAt m.body 0 2 = 0x7030 ∧ d.ownUnset m.role 0x7030 (byteAt m.body 2) then
      some (List.replicate 32 0)
    else none

/-! ### What a discarded request leaves (R786, R787, R791) -/

/-- A mailbox request that is discarded completes with no response. -/
def Dev.discard (d : Dev) (v : Via) (auth : Bool) : Dev :=
  if v.transport = 2 then
    (d.bump (if auth then R.MBX_MBX_AUTH_CNT else R.MBX_MBX_STALE_CNT) 1).mbxDone [] auth (!auth)
  else d

/-- A request that fails R786. -/
def Dev.authFails (d : Dev) (v : Via) : Dev :=
  (({ d with bank := { d.bank with authFailed := d.bank.authFailed + 1 } }).raiseOnce 960).discard v true

/-- A request that fails R787. -/
def Dev.staleFails (d : Dev) (v : Via) : Dev :=
  (({ d with bank := { d.bank with stale := d.bank.stale + 1 } }).raiseOnce 961).discard v false

/-! ### The operations (R785, R789, R790) -/

/-- Bytes padded with zeros to a multiple of 4. -/
def pad4 (v : List Byte) : List Byte := v ++ List.replicate (4 * ceilDiv v.length 4 - v.length) 0

/-- One entry of a READ response (R785). -/
def Dev.readEntry (d : Dev) (rk idx sub : Nat) : List Byte :=
  let (st, typ, v) := d.objRead rk idx sub
  let st := if st = stOk ∧ 1016 < v.length then stRange else st
  let v := if st = stOk then v else []
  beBytes 2 idx ++ beBytes 1 sub ++ beBytes 1 typ ++ beBytes 1 st ++ [0] ++ beBytes 2 v.length ++ pad4 v

/-- READ: status and body. -/
def Dev.opRead (d : Dev) (rk : Nat) (b : List Byte) : Nat × List Byte :=
  let n := byteAt b 0
  if b.length < 4 ∨ !allZero (slice b 1 3) ∨ b.length ≠ 4 + 4 * n ∨ (List.range n).any (fun i => byteAt b (7 + 4 * i) != 0) then
    (stMalformed, [])
  else if n = 0 ∨ 64 < n then (stRange, [])
  else
    let out := (List.range n).flatMap (fun i => d.readEntry rk (beAt b (4 + 4 * i) 2) (byteAt b (6 + 4 * i)))
    if 1024 < out.length then (stRange, []) else (stOk, out)

/-- Body of a WRITE response. -/
def writeBody (idx sub remain : Nat) : List Byte := beBytes 2 idx ++ beBytes 1 sub ++ [0] ++ beBytes 2 remain ++ [0, 0]

/-- SEG_READ: status and body. -/
def Dev.opSegRead (d : Dev) (rk : Nat) (b : List Byte) : Nat × List Byte :=
  if b.length ≠ 12 ∨ byteAt b 3 ≠ 0 ∨ !allZero (slice b 10 2) then (stMalformed, [])
  else
    let off := beAt b 4 4
    let (st, _, v) := d.objRead rk (beAt b 0 2) (byteAt b 2)
    if st ≠ stOk then (st, [])
    else if 1004 < beAt b 8 2 ∨ v.length < off then (stRange, [])
    else
      let piece := slice v off (min (beAt b 8 2) (v.length - off))
      (stOk, beBytes 4 v.length ++ beBytes 2 piece.length ++ [0, 0] ++ pad4 piece)

/-- The largest value of an object: what a TOTAL may not exceed (R789). -/
def ObjDef.maxLen (o : ObjDef) : Nat := if typeSize o.typ = 0 then o.size else typeSize o.typ

/-- The segmented transfer under a key. -/
def Seg.is (s : Seg) (role client idx sub : Nat) : Bool := s.role == role && s.client == client && s.index == idx && s.sub == sub

/-- A transfer closes. -/
def Dev.segClose (d : Dev) (role client idx sub : Nat) : Dev :=
  { d with bank := { d.bank with segs := d.bank.segs.filter (fun s => !s.is role client idx sub) } }

/-- A first segment of a banker image: it erases the inactive slot, or is BUSY in TRIAL (R820). A role that may not
write the image erases nothing. -/
def Dev.segOpens (d : Dev) (role idx sub : Nat) : Nat × Dev :=
  if idx ≠ 0x9000 ∨ sub ≠ 1 ∨ !roleIn roIF role then (stOk, d)
  else if d.get R.ST_UPD_STATE = 3 then (stBusy, d)
  else (stOk, d.updReceive [])

/-- A SEG_WRITE request as its body reads. -/
structure SegReq where
  idx : Nat
  sub : Nat
  typ : Nat
  off : Nat
  total : Nat
  data : List Byte
  deriving DecidableEq, Repr

/-- The body of a SEG_WRITE read, none where it does not match its OP. -/
def readSeg (b : List Byte) : Option SegReq :=
  let n := beAt b 12 2
  if b.length < 16 ∨ !allZero (slice b 14 2) ∨ b.length ≠ 16 + 4 * ceilDiv n 4 ∨ !allZero (b.drop (16 + n)) then none
  else some ⟨beAt b 0 2, byteAt b 2, byteAt b 3, beAt b 4 4, beAt b 8 4, slice b 16 n⟩

/-- The transfer that a segment goes on with, opened by a first one (R789, R790): a status where there is none. -/
def Dev.segTake (d : Dev) (role client : Nat) (q : SegReq) : Nat × Option Seg × Dev :=
  if q.off = 0 then
    let d := d.segClose role client q.idx q.sub
    match objDef? q.idx q.sub with
    | none => (stMalformed, none, d)
    | some o =>
      if o.maxLen < q.total ∨ q.total < q.data.length then (stRange, none, d)
      else if 4 ≤ d.bank.segs.length then (stNoCapacity, none, d)
      else
        let (st, d) := d.segOpens role q.idx q.sub
        if st = stOk then (stOk, some ⟨role, client, q.idx, q.sub, q.total, q.data⟩, d) else (st, none, d)
  else match d.bank.segs.find? (fun s => s.is role client q.idx q.sub) with
    | none => (stRange, none, d)
    | some s =>
      if q.off ≠ s.data.length ∨ q.total ≠ s.total ∨ s.total < s.data.length + q.data.length then (stRange, none, d)
      else (stOk, some { s with data := s.data ++ q.data }, d)

/-- SEG_WRITE: a segment is staged, and the last one is applied as one WRITE. -/
def Dev.opSegWrite (d : Dev) (r : Req) (b : List Byte) (mk : Nat → List Byte → Reply) : Dev :=
  match readSeg b with
  | none => d.reply (mk stMalformed [])
  | some q =>
    let (st, seg, d) := d.segTake r.role r.client q
    match seg with
    | none => d.reply (mk st (writeBody q.idx q.sub 0xFFFF))
    | some s =>
      let d := d.segClose r.role r.client q.idx q.sub
      if s.data.length < s.total then
        ({ d with bank := { d.bank with segs := d.bank.segs ++ [s] } }).reply (mk stOk (writeBody q.idx q.sub 0xFFFF))
      else
        let env := Config.startEnv d.free
        ({ d with free := d.free + 1 }).objWrite {
          r := r
          env := env
          idx := q.idx
          sub := q.sub
          typ := q.typ
          raw := s.data
          answer := fun st remain => some (mk st (writeBody q.idx q.sub remain)) }

/-- WRITE. -/
def Dev.opWrite (d : Dev) (r : Req) (b : List Byte) (mk : Nat → List Byte → Reply) : Dev :=
  let n := beAt b 4 2
  if b.length < 8 ∨ !allZero (slice b 6 2) ∨ b.length ≠ 8 + 4 * ceilDiv n 4 ∨ !allZero (b.drop (8 + n)) then
    d.reply (mk stMalformed [])
  else
    let idx := beAt b 0 2
    let sub := byteAt b 2
    let env := Config.startEnv d.free
    ({ d with free := d.free + 1 }).objWrite {
      r := r
      env := env
      idx := idx
      sub := sub
      typ := byteAt b 3
      raw := slice b 8 n
      answer := fun st remain => some (mk st (writeBody idx sub remain)) }

/-- The index that a request names, 0x9000 alone being served in RECOVERY: every index of a READ. -/
def ShMsg.servedBy (m : ShMsg) (d : Dev) : Bool :=
  if m.op = 5 then true
  else if m.op = 1 then (List.range (byteAt m.body 0)).all (fun i => d.serves m.role (beAt m.body (4 + 4 * i) 2))
  else d.serves m.role (beAt m.body 0 2)

/-- A request that has been accepted is carried out and answered (R785). -/
def Dev.carryOut (d : Dev) (v : Via) (m : ShMsg) (key : Option (List Byte)) : Dev :=
  let r := mkReq m.role v.transport m.client
  let mk (st : Nat) (body : List Byte) : Reply := ⟨v.transport, v.tok, v.dest, key, m.op, m.role, st, m.client, m.seq, body⟩
  if m.status ≠ 0 ∨ !allZero m.rsv ∨ m.len % 4 ≠ 0 ∨ 1024 < m.len then d.reply (mk stMalformed [])
  else if !m.servedBy d then d.reply (mk stBusy [])
  else if m.op = 1 then
    let (st, body) := d.opRead r.key m.body
    d.reply (mk st body)
  else if m.op = 2 then d.opWrite r m.body mk
  else if m.op = 3 then d.opSegWrite r m.body mk
  else if m.op = 4 then
    let (st, body) := d.opSegRead r.key m.body
    d.reply (mk st body)
  else if m.op = 5 then
    if m.body.isEmpty then d.reply (mk stOk (d.time80Be ++ List.replicate 6 0 ++ deviceId)) else d.reply (mk stMalformed [])
  else d.reply (mk stMalformed [])

/-! ### Taking a request (R786, R787) -/

/-- A request's TIME is within FRESH_MS of device time. -/
def Dev.fresh? (d : Dev) (t : Nat) : Bool :=
  let w := d.objNat 0x7051 1 2000 * 1000000
  decide (t ≤ d.devNs + w ∧ d.devNs ≤ t + w)

/-- Records that have not run out. -/
def Dev.purge (d : Dev) : Dev :=
  { d with bank := { d.bank with replays := d.bank.replays.filter (fun p => decide (d.devNs ≤ p.expires)) } }

/-- A copy of a recorded request gets the recorded response on its own transport, when there is one. -/
def Dev.repeatReply (d : Dev) (v : Via) (p : Replay) : Dev :=
  match p.response with
  | some b => d.respond v.transport v.tok v.dest b
  | none =>
    let wait (x : Replay) : Replay := if x = p then { x with waits := x.waits ++ [(v.transport, v.tok, v.dest)] } else x
    { d with bank := { d.bank with replays := d.bank.replays.map wait } }

/-- An authenticated request: fresh, new, and recorded before it is acted on. -/
def Dev.accept (d : Dev) (v : Via) (m : ShMsg) (key bytes : List Byte) : Dev :=
  let d := d.purge
  if !d.fresh? m.timeNs then d.staleFails v
  else match d.bank.replays.find? (fun p => p.role == m.role && p.client == m.client && p.seq == m.seq) with
    | some p => if p.request = bytes then d.repeatReply v p else d.staleFails v
    | none =>
      if 4096 ≤ d.bank.replays.length then d.staleFails v
      else
        let p : Replay := ⟨m.role, m.client, m.seq, m.timeNs + d.objNat 0x7051 1 2000 * 1000000, bytes, none, []⟩
        ({ d with bank := { d.bank with replays := d.bank.replays ++ [p] } }).carryOut v m (some key)

/-- A request arrives at the dictionary service. While the banker restarts nothing is taken (R799). -/
def Dev.request (d : Dev) (v : Via) (bytes : List Byte) : Dev :=
  if d.bank.restarting then d
  else match readMsg bytes with
    | none => d.authFails v
    | some m =>
      if m.role = 0xFF then d.carryOut v m none
      else match d.keyFor v m with
        | none => d.authFails v
        | some key => if hmacSha256 key m.signed = m.mac then d.accept v m key bytes else d.authFails v

/-! ### The mailbox (R791, R792) -/

/-- A request that the mailbox does not take. -/
def Dev.mbxReject (d : Dev) : Dev := d.flagRaise R.MBX_REJ 967

/-- SEND of a message. -/
def Dev.mbxTake (d : Dev) (bytes : List Byte) : Dev :=
  if d.bank.restarting || d.get R.MBX_MBX_STATE == 1 || !d.on R.MBX_EN then d.mbxReject
  else
    let d := { d with bank := { d.bank with mbxTok := d.bank.mbxTok + 1 } }
    let d := ((d.put R.MBX_MBX_STATE 1).put R.MBX_RESP_LEN 0).bump R.MBX_MBX_REQ_CNT 1
    d.request ⟨2, d.bank.mbxTok, none⟩ bytes

/-- The first n bytes of REQ. -/
def Dev.mbxReq (d : Dev) (n : Nat) : List Byte :=
  ((List.range 512).flatMap (fun k => leBytes 4 (d.get (R.MBX_REQ k)))).take n

/-- `MBX_CMD` with SEND and a length. -/
def Dev.mbxSend (d : Dev) (len : Nat) : Dev :=
  if len < 32 ∨ 1088 < len then d.wrange 0x1100010 else d.mbxTake (d.mbxReq len)

/-- `MBX_CMD` with ABORT: IDLE, and the response of a request under way is discarded. -/
def Dev.mbxAbort (d : Dev) : Dev :=
  ({ d with bank := { d.bank with mbxTok := d.bank.mbxTok + 1 } }).put R.MBX_MBX_STATE 0

/-- SEND (R792). -/
def execSend (len : Nat) (s : State) : Out := .next (s.upd (fun d => d.mbxSend len))

/-- MBX_ABORT (R792). -/
def execMbxAbort (s : State) : Out := .next (s.upd Dev.mbxAbort)

/-! ### Rows of one operation -/

/-- A message of an operation over a transport: 0 and 1 the control ports, 2 the mailbox. -/
def opMessage (op transport : Nat) (msg : List Byte) (s : State) : Out :=
  if 3 ≤ transport then .refused .noSuchUnit
  else if byteAt msg 3 % 128 ≠ op then .refused .otherRow
  else .next (s.upd (fun d => if transport = 2 then d.mbxTake msg else d.request ⟨transport, 0, none⟩ msg))

/-- READ (R785). -/
def execRead (transport : Nat) (msg : List Byte) (s : State) : Out := opMessage 1 transport msg s

/-- WRITE (R766, R785). -/
def execWrite (transport : Nat) (msg : List Byte) (s : State) : Out := opMessage 2 transport msg s

/-- SEG_WRITE (R789). -/
def execSegWrite (transport : Nat) (msg : List Byte) (s : State) : Out := opMessage 3 transport msg s

/-- SEG_READ (R785). -/
def execSegRead (transport : Nat) (msg : List Byte) (s : State) : Out := opMessage 4 transport msg s

/-- TIME (R785). -/
def execTime (transport : Nat) (msg : List Byte) (s : State) : Out := opMessage 5 transport msg s

/-- SEG_IDLE_TIMEOUT (R790): a transfer has had no segment for SEG_IDLE_S. -/
def execSegIdleTimeout (role client index sub : Nat) (s : State) : Out :=
  .next (s.upd fun d =>
    if d.bank.segs.any (fun x => x.is role client index sub) then (d.segClose role client index sub).raise 966 else d)

/-! ### Frames of the control ports (R782) -/

/-- The address settings of control port k: IP_ADDR, NETMASK, GATEWAY, VLAN, UDP_PORT (R783). -/
def Dev.netmask (d : Dev) (k : Nat) : Nat := d.objNat (if k = 0 then 0x7050 else 0x17051) 2 0xFFFFFF00
def Dev.gateway (d : Dev) (k : Nat) : Nat := d.objNat (0x7050 + k) 3 0
def Dev.vlan (d : Dev) (k : Nat) : Nat := d.objNat (0x7050 + k) 4 0
def Dev.udpPort (d : Dev) (k : Nat) : Nat := d.objNat (0x7050 + k) 5 47200

/-- The tag of a frame and what follows it: none where the port does not take the tag. -/
def Dev.untag (d : Dev) (k : Nat) (f : List Byte) : Option (List Byte × List Byte) :=
  if beAt f 12 2 = 0x8100 then
    if tbit (d.vlan k) 12 && beAt f 14 2 % 4096 == d.vlan k % 4096 then some (slice f 12 4, f.drop 16) else none
  else some ([], f.drop 12)

/-- An ARP request for the port's address (RFC 826), answered in the form that it came in. -/
def Dev.arpAnswer (d : Dev) (k : Nat) (tag p : List Byte) : Dev :=
  if p.length < 30 ∨ beAt p 2 2 ≠ 1 ∨ beAt p 4 2 ≠ 0x0800 ∨ beAt p 6 2 ≠ 0x0604 ∨ beAt p 8 2 ≠ 1 ∨ beAt p 26 4 ≠ d.ipAddr k then d
  else
    let mac := macOf k
    let sha := slice p 10 6
    d.send (.ctrlFrame k (sha ++ mac ++ tag ++ beBytes 2 0x0806 ++ slice p 2 6 ++ beBytes 2 2 ++ mac ++ beBytes 4 (d.ipAddr k) ++
      sha ++ slice p 16 4))

/-- The ones' complement sum of a header's words is all ones (RFC 791). -/
def ipSumOk (h : List Byte) : Bool :=
  let sum := (List.range (h.length / 2)).foldl (fun a i => a + beAt h (2 * i) 2) 0
  let fold := sum % 65536 + sum / 65536
  fold % 65536 + fold / 65536 == 65535

/-- The UDP datagram of an IPv4 packet for the port: source address, source and destination port, payload. -/
def Dev.datagram (d : Dev) (k : Nat) (p : List Byte) : Option (Nat × Nat × Nat × List Byte) :=
  let ip := p.drop 2
  let udp := slice ip 20 (beAt ip 2 2 - 20)
  if ip.length < 28 ∨ byteAt ip 0 ≠ 0x45 ∨ beAt ip 6 2 % 16384 ≠ 0 ∨ byteAt ip 9 ≠ 17 ∨ beAt ip 16 4 ≠ d.ipAddr k ∨
      ip.length < beAt ip 2 2 ∨ !ipSumOk (ip.take 20) ∨ beAt udp 4 2 < 8 ∨ udp.length < beAt udp 4 2 then none
  else some (beAt ip 12 4, beAt udp 0 2, beAt udp 2 2, slice udp 8 (beAt udp 4 2 - 8))

/-- Where a response to an address goes: straight to it within the subnet, else to the gateway; next hop 0 for none. -/
def Dev.route (d : Dev) (k src port : Nat) : Nat × Nat × Nat :=
  (if Nat.land src (d.netmask k) = Nat.land (d.ipAddr k) (d.netmask k) then src else d.gateway k, src, port)

/-- A frame that a control port receives: ARP is answered, Shovin is taken; what PTP carries comes by its own row, and
every other frame is dropped. -/
def Dev.ctrlFrame (d : Dev) (k : Nat) (f : List Byte) : Dev :=
  if d.ipAddr k = 0 ∨ !d.domOn (131 + k) then d
  else match d.untag k f with
    | none => d
    | some (tag, p) =>
      if beAt p 0 2 = 0x0806 then d.arpAnswer k tag p
      else if beAt p 0 2 = 0x0800 then
        match d.datagram k p with
        | none => d
        | some (src, sport, dport, bytes) =>
          if dport = d.udpPort k then d.request ⟨k, 0, some (d.route k src sport)⟩ bytes else d
      else d

/-- CTRL_FRAME_RECEIVE (R782). -/
def execCtrlFrameReceive (port : Nat) (bytes : List Byte) (s : State) : Out :=
  onUnit (decide (port < 2)) s (fun d => d.ctrlFrame port bytes)

end Sys2Proof.Machine
end

