-- ==== Sys2Proof/Machine/RegWrite.lean ====
section
/-! DEFINITION. Register writes: form, gates of posted blocks, locks, ranges, command registers (R678, R713, R718, R725 to
R733, R877). -/

namespace Sys2Proof.Machine

/-! ### Plain registers -/

/-- A field lies in the 32-bit word of a register that begins at bit sh. -/
def FieldDef.inWord (x : FieldDef) (sh : Nat) : Bool := decide (x.lo < sh + 32) && decide (sh ≤ x.hi)

/-- The value that a 32-bit write of a word gives a field: a 64-bit field keeps its other half. -/
def FieldDef.written (x : FieldDef) (old v sh : Nat) : Nat :=
  if 32 ≤ x.hi - x.lo then (if sh = 0 then old - old % 2 ^ 32 + v else old % 2 ^ 32 + v * 2 ^ 32)
  else bits v (x.hi - sh) (x.lo - sh)

/-- A value within a field's range. -/
def FieldDef.allows (x : FieldDef) (v : Nat) : Bool := decide (x.min ≤ v ∧ v ≤ x.max) && (v - x.min) % x.step == 0

/-- One field of a register written (R14): RO, RC and WO fields keep what they hold. -/
def Dev.writeField (d : Dev) (base : Nat) (idx : List Nat) (sh v : Nat) (x : FieldDef) : Dev :=
  let old := d.fieldAt base idx x
  let new := x.written old v sh
  let put (n : Nat) : Dev := { d with regs := Tab.set d.regs (base * 64 + x.lo) n }
  match x.acc with
  | .rw => put new
  | .rwl => put new
  | .w1s => put ((BitVec.ofNat 64 old ||| BitVec.ofNat 64 new).toNat)
  | .w1c => put ((BitVec.ofNat 64 old &&& ~~~(BitVec.ofNat 64 new)).toNat)
  | _ => d

/-- The LOCK of an address is 1. -/
def Dev.locked (d : Dev) (a : Nat) : Bool := d.on (lockFld a)

/-- A 32-bit word written to a register that only holds its value: lock, then range, then the write (R733). -/
def Dev.plainWrite (d : Dev) (req a v : Nat) : Dev :=
  match findReg a with
  | none => d
  | some f =>
    let sh := 8 * f.off
    let base := f.base a
    let xs := f.row.fields.filter (fun x => x.inWord sh)
    let held (x : FieldDef) : Bool := x.acc == .rw || x.acc == .rwl
    if xs.any (fun x => x.acc == .rwl) && d.locked a then d.lockViol req a v
    else if xs.any (fun x => held x && !x.allows (x.written (d.fieldAt base f.idx x) v sh)) then d.wrange a
    else xs.foldl (fun (d : Dev) x => d.writeField base f.idx sh v x) d

/-- A plain write that took effect leads on: nothing follows one that was discarded. -/
def Dev.thenOn (d : Dev) (req a v : Nat) (f : Fld) (k : Dev → Dev → Dev) : Dev :=
  let e := d.plainWrite req a v
  if d.get f = e.get f then e else k d e

/-! ### Registers that act -/

/-- A command field with its code: nothing on 0, the command where the code has one, else WRANGE (R877). -/
def Dev.command (d : Dev) (a code : Nat) (acts : List (Nat × (Dev → Dev))) : Dev :=
  if code = 0 then d
  else match acts.find? (fun (x : Nat × (Dev → Dev)) => x.1 == code) with
    | some x => x.2 d
    | none => d.wrange a

/-- A write of `SYN_CTL` of synthesizer s (R658, R663, R664, R670). A change of REF_MODE waits for a quiet interval. -/
def Dev.synCtl (d : Dev) (req s v : Nat) : Dev :=
  let a := 0xF01000 + 0x80 * s
  let win := bits v 6 0
  let n := bits v 19 8
  let mode := bits v 21 20
  if d.on R.SYN_LOCK then d.lockViol req a v
  else if win < 5 ∨ 100 < win ∨ n < 16 ∨ 2 < mode ∨ !lockNFits s mode n then d.wrange a
  else if s = 0 ∧ mode ≠ d.get (R.SYNS_REF_MODE 0) then d.synReject
  else
    let d := ((d.put (R.SYNS_LOCK_WIN s) win).put (R.SYNS_LOCK_N s) n).put (R.SYNS_HOP_LIVE s) (if s = 0 then 0 else bit v 22)
    if mode = d.refModeOf s then d else { d with time := { d.time with refModePend := Tab.set d.time.refModePend s mode } }

/-- A write of `CAL_CTL` (R346): it names loaded slots. -/
def Dev.calCtl (d : Dev) (req a v : Nat) : Dev :=
  if d.locked a then d.lockViol req a v
  else if !tbit (d.get R.COMP_MX_VALID) (bits v 5 0) || !tbit (d.get R.COMP_TABLE_VALID) (bits v 10 6) then d.wrange a
  else d.plainWrite req a v

/-- A write of `SNK_CTL` of snake s: EN brings the port up or down (R507, R508). -/
def Dev.snkCtl (d : Dev) (req a s v : Nat) : Dev :=
  d.thenOn req a v (R.SNK_EN_8 s) (fun _ e => if e.on (R.SNK_EN_8 s) then e.portUp s else e.portDown s)

/-- A write of `SNS_CTL`: with EN at 0 no square is sensed (R615). -/
def Dev.snsCtl (d : Dev) (req a v : Nat) : Dev :=
  d.thenOn req a v R.SNS_EN (fun _ e => if e.on R.SNS_EN then e else e.senseOff)

/-- RST_CMD of WARM, with what start-up then meets. -/
def Dev.warmByWrite (d : Dev) : Dev :=
  let env := Config.startEnv d.free
  ({ d with free := d.free + 1 }).warmCmd env

/-- Words of the queue block (R713). -/
def Dev.queueBlockWrite (d : Dev) (req a v : Nat) : Dev :=
  if 0x210000 ≤ a ∧ a < 0x218000 then d.queueConfig req ((a - 0x210000) / 0x20) (a % 0x20) v
  else if 0x218000 ≤ a ∧ a < 0x21A000 then d.ringConfig ((a - 0x218000) / 0x20) (a % 0x20) v
  else if 0x21A000 ≤ a ∧ a < 0x21A100 then d.queueConfig req (1024 + (a - 0x21A000) / 0x20) (a % 0x20) v
  else d.plainWrite req a v

/-- Words of a snake port: o is the offset in the port's registers. -/
def Dev.snakeWrite (d : Dev) (req a s o v : Nat) : Dev :=
  if o = 8 then d.snkCtl req a s v
  else if o = 0xC then d.snkSense req s v
  else if o = 0x10 then
    d.command a (bits v 3 0) [(1, fun d => d.restart s (bits v 9 4)), (2, fun d => d.measure s), (3, fun d => d.maintSend s)]
  else if o = 0x40 ∨ o = 0x44 then d.fiCtl req s o v
  else d.plainWrite req a v

/-- Words of the mailbox block (R792, R794). -/
def Dev.mailboxWrite (d : Dev) (req a v : Nat) : Dev :=
  if a = 0x1100010 then
    d.command a (bits v 1 0) [(1, fun d => d.mbxSend (bits v 26 16)), (2, fun d => d.mbxAbort)]
  else if 0x1101000 ≤ a ∧ a < 0x1101800 ∧ d.get R.MBX_MBX_STATE = 1 then d.mbxReject
  else d.plainWrite req a v

/-- Command registers and others that act, by address; none for a plain one. -/
def Dev.actingWrite (d : Dev) (req a v : Nat) : Option Dev :=
  if a = 0x10 then some (if tbit v 0 then d.snapshot else d)
  else if 0x100400 ≤ a ∧ a < 0x100800 then some (d.eringConfig ((a - 0x100400) / 0x20) (a % 0x20) v)
  else if a = 0x30000C then some (d.command a (bits v 3 0) [(1, Dev.trialCmd), (2, Dev.resumeCmd)])
  else if a = 0x70000C then some (d.calCtl req a v)
  else if a = 0x700014 then some (d.command a (bits v 3 0) [(1, fun d => d.commitProfile (bits v 15 8))])
  else if 0x800200 ≤ a ∧ a < 0x800240 then some (d.plainWrite req a v).plFire
  else if a = 0xB0000C then
    some (d.command a (bits v 3 0) [(1, Dev.format), (2, fun d => d.rescan (d.ing.drives.map (fun (p : Nat × DriveInfo) => p.2)))])
  else if a = 0xC00824 then some (d.directGo v)
  else if a = 0xD00008 then some (d.snsCtl req a v)
  else if a = 0xD00014 then some (d.alarmClear v)
  else if a = 0xE0002C then
    some (d.command a (bits v 1 0) [(1, Dev.stepCmd), (2, Dev.slewCmd), (3, Dev.atSecondCmd)])
  else if a = 0x1000010 then some (d.command a (bits v 3 0) [(1, Dev.warmByWrite)])
  else if 0x1000060 ≤ a ∧ a < 0x1000074 then some (d.offReqWrite ((a - 0x1000060) / 4) v)
  else none

/-- A 32-bit word applied at a canonical address whose domain is on. -/
def Dev.applyWord (d : Dev) (req a v : Nat) : Dev :=
  if a = (lockFld a).addr then (if tbit v 0 then d.put (lockFld a) 1 else d)
  else match d.actingWrite req a v with
    | some e => e
    | none =>
      let b := a / 0x100000
      if b = 2 then d.queueBlockWrite req a v
      else if b = 9 then d.snakeWrite req a ((a - 0x900000) / 0x1000) (a % 0x1000) v
      else if b = 15 ∧ 0xF01000 ≤ a ∧ a < 0xF03A80 ∧ a % 0x80 = 0 then d.synCtl req ((a - 0xF01000) / 0x80) v
      else if b = 15 ∧ 0xF01000 ≤ a ∧ a < 0xF03A80 ∧ a % 0x80 = 4 then
        d.command a (bits v 3 0) [(1, fun d => d.hopCmd ((a - 0xF01000) / 0x80) (bits v 5 4))]
      else if b = 17 then d.mailboxWrite req a v
      else d.plainWrite req a v

/-- One or two 32-bit words, low word first (R718). -/
def Dev.applyWords (d : Dev) (req a v bytes : Nat) : Dev :=
  let d := d.applyWord req a (v % 2 ^ 32)
  if bytes = 8 then d.applyWord req (a + 4) (v / 2 ^ 32 % 2 ^ 32) else d

/-! ### Posted blocks (R725 to R727) -/

/-- Gate bits of a posted block, and the event of WDROP where its chapter gives one. -/
def gateOf : Nat → Option (Fld × Fld × Option Nat)
  | 4 => some (R.FAB_BUSY, R.FAB_WDROP, none)
  | 6 => some (R.COMP_BUSY, R.COMP_WDROP, some 406)
  | 7 => some (R.CAL_BUSY, R.CAL_WDROP, some 420)
  | 8 => some (R.PUSH_BUSY, R.PUSH_WDROP, some 842)
  | 12 => some (R.BLT_BUSY, R.BLT_WDROP, some 742)
  | _ => none

/-- A write to a posted block: held behind the gate, or dropped while another is (R726). -/
def Dev.postWrite (d : Dev) (g : Fld × Fld × Option Nat) (p : Posted) : Dev :=
  if d.on g.1 then
    let d := d.flag g.2.1
    match g.2.2 with
    | some e => d.raiseD e (2 ^ g.2.1.lo)
    | none => d
  else { d.put g.1 1 with acc := { d.acc with posted := Tab.set d.acc.posted (p.addr / 0x100000) p } }

/-- POSTED_WRITE_APPLY (R726, R727): the write that a posted block holds is applied. -/
def Dev.applyPosted (d : Dev) (b : Nat) : Dev :=
  match gateOf b, Tab.get? d.acc.posted b with
  | some g, some p =>
    let d := { d.put g.1 0 with acc := { d.acc with posted := Tab.erase d.acc.posted b } }
    d.applyWords p.req p.addr p.value p.bytes
  | _, _ => d

/-! ### Any write (R678, R718) -/

/-- A write in one of the two forms of R718, at a canonical address. -/
def Dev.formedWrite (d : Dev) (req a v bytes : Nat) : Dev :=
  if d.regOff a then d.offWrite
  else match gateOf (a / 0x100000) with
    | some g => d.postWrite g ⟨req, a, v, bytes⟩
    | none => d.applyWords req a v bytes

/-- A register write of a requester: a virtual function writes its own queues and rings alone (R678). -/
def Dev.regWrite (d : Dev) (req offset v bytes : Nat) : Dev :=
  match reqCanon req offset with
  | none => d
  | some a =>
    if !((bytes == 4 || bytes == 8) && offset % bytes == 0) then d.accErr req a v
    else if !fullAccess req && a / 0x100000 != 2 then d
    else d.formedWrite req a v bytes

/-- REGISTER_WRITE (R718): a write of any width and alignment. -/
def execRegisterWrite (req offset value bytes : Nat) (s : State) : Out :=
  onUnit (decide (req < 33) && decide (bytes ≤ 8) && decide (value < 256 ^ bytes)) s (fun d => d.regWrite req offset value bytes)

/-- LOCK_SET (R731): a write of 1 to the LOCK of a block, at the offset of one of its images. -/
def execLockSet (req offset : Nat) (s : State) : Out :=
  onUnit (decide (req < 33)) s (fun d =>
    match reqCanon req offset with
    | none => d
    | some a => if a = (lockFld a).addr then d.regWrite req offset 1 4 else d)

/-- POSTED_WRITE_APPLY. -/
def execPostedWriteApply (block : Nat) (s : State) : Out :=
  onUnit (gateOf block).isSome s (fun d => d.applyPosted block)

/-- REF_MODE_WRITE (R663): a write of `SYN_CTL` by function 0. -/
def execRefModeWrite (syn : Nat) (value : BitVec 32) (s : State) : Out :=
  onUnit (decide (syn < 85)) s (fun d => d.synCtl 0 syn value.toNat)

end Sys2Proof.Machine
end

