-- ==== Sys2Proof/Machine/Dispatch.lean ====
section
/-! DEFINITION. What each command does: one arm per constructor, one direct call of its meaning. -/

namespace Sys2Proof.Machine

def exec (i : Instr) (s : State) : Host.Outcome State Fault Refusal :=
  match i with
  | .presentInstant badLine => Sys2Proof.Machine.execPresentInstant badLine s
  | .rebandDone syn band cw tj => Sys2Proof.Machine.execRebandDone syn band cw tj s
  | .retrainDone stack ok => Sys2Proof.Machine.execRetrainDone stack ok s
  | .composeWindowOpen => Sys2Proof.Machine.execComposeWindowOpen s
  | .reserveSelftestDone cup ok => Sys2Proof.Machine.execReserveSelftestDone cup ok s
  | .composeDeadline => Sys2Proof.Machine.execComposeDeadline s
  | .pushCutoff => Sys2Proof.Machine.execPushCutoff s
  | .pushDeadline => Sys2Proof.Machine.execPushDeadline s
  | .patchComposed pip corrected => Sys2Proof.Machine.execPatchComposed pip corrected s
  | .patchCalibrate quarter => Sys2Proof.Machine.execPatchCalibrate quarter s
  | .stealAttempt pip => Sys2Proof.Machine.execStealAttempt pip s
  | .pipFail pip cause => Sys2Proof.Machine.execPipFail pip cause s
  | .handshakeTimeout link => Sys2Proof.Machine.execHandshakeTimeout link s
  | .paceSample counts => Sys2Proof.Machine.execPaceSample counts s
  | .shortfall quarter => Sys2Proof.Machine.execShortfall quarter s
  | .planRebuildDone quarter => Sys2Proof.Machine.execPlanRebuildDone quarter s
  | .trial req => Sys2Proof.Machine.execTrial req s
  | .trialDone paces => Sys2Proof.Machine.execTrialDone paces s
  | .resume req => Sys2Proof.Machine.execResume req s
  | .hbmTempRead temps => Sys2Proof.Machine.execHbmTempRead temps s
  | .hbmReadReturn addr ecc reader => Sys2Proof.Machine.execHbmReadReturn addr ecc reader s
  | .hbmUnlockTimeout stack => Sys2Proof.Machine.execHbmUnlockTimeout stack s
  | .scrubDone => Sys2Proof.Machine.execScrubDone s
  | .surfaceZeroFillDone => Sys2Proof.Machine.execSurfaceZeroFillDone s
  | .commit profile => Sys2Proof.Machine.execCommit profile s
  | .ageReading unit => Sys2Proof.Machine.execAgeReading unit s
  | .calLoadBodyRead unit body => Sys2Proof.Machine.execCalLoadBodyRead unit body s
  | .calLoadWriteDone unit => Sys2Proof.Machine.execCalLoadWriteDone unit s
  | .pushFrameStart snake => Sys2Proof.Machine.execPushFrameStart snake s
  | .underrun snake => Sys2Proof.Machine.execUnderrun snake s
  | .presentFrameStart snake pos => Sys2Proof.Machine.execPresentFrameStart snake pos s
  | .cadenceFrameStart snake pos => Sys2Proof.Machine.execCadenceFrameStart snake pos s
  | .ackReceived snake side => Sys2Proof.Machine.execAckReceived snake side s
  | .ackTimeout snake pos seq => Sys2Proof.Machine.execAckTimeout snake pos seq s
  | .nak snake owner words => Sys2Proof.Machine.execNak snake owner words s
  | .echo snake owner words => Sys2Proof.Machine.execEcho snake owner words s
  | .holdTimeExpiry square => Sys2Proof.Machine.execHoldTimeExpiry square s
  | .codewordLock snake => Sys2Proof.Machine.execCodewordLock snake s
  | .codewordLockLost snake => Sys2Proof.Machine.execCodewordLockLost snake s
  | .releaseWaitDone snake => Sys2Proof.Machine.execReleaseWaitDone snake s
  | .enumReply snake owner words => Sys2Proof.Machine.execEnumReply snake owner words s
  | .enumReplyTimeout snake => Sys2Proof.Machine.execEnumReplyTimeout snake s
  | .rttMeasureDone snake sum64 => Sys2Proof.Machine.execRttMeasureDone snake sum64 s
  | .sqLost snake pos => Sys2Proof.Machine.execSqLost snake pos s
  | .restart snake pos => Sys2Proof.Machine.execRestart snake pos s
  | .measure snake => Sys2Proof.Machine.execMeasure snake s
  | .maintSend snake => Sys2Proof.Machine.execMaintSend snake s
  | .maintReply snake owner words => Sys2Proof.Machine.execMaintReply snake owner words s
  | .maintTimeout snake => Sys2Proof.Machine.execMaintTimeout snake s
  | .snakeSynthTimeout quad => Sys2Proof.Machine.execSnakeSynthTimeout quad s
  | .fiCtlWrite snake offset value => Sys2Proof.Machine.execFiCtlWrite snake offset value s
  | .snkSenseWrite snake value => Sys2Proof.Machine.execSnkSenseWrite snake value s
  | .turnMessage port bytes => Sys2Proof.Machine.execTurnMessage port bytes s
  | .tablePeerLost peer => Sys2Proof.Machine.execTablePeerLost peer s
  | .hello port bytes => Sys2Proof.Machine.execHello port bytes s
  | .forward port hdr req => Sys2Proof.Machine.execForward port hdr req s
  | .state port hdr decisions => Sys2Proof.Machine.execState port hdr decisions s
  | .frame port bytes => Sys2Proof.Machine.execFrame port bytes s
  | .ambient port hdr lux => Sys2Proof.Machine.execAmbient port hdr lux s
  | .ingestFrameReceive port bytes => Sys2Proof.Machine.execIngestFrameReceive port bytes s
  | .frameReady chan => Sys2Proof.Machine.execFrameReady chan s
  | .xsSliceDecoded chan result => Sys2Proof.Machine.execXsSliceDecoded chan result s
  | .policeWindowEnd => Sys2Proof.Machine.execPoliceWindowEnd s
  | .legLost chan leg => Sys2Proof.Machine.execLegLost chan leg s
  | .stale chan => Sys2Proof.Machine.execStale chan s
  | .ingestLinkChange port up => Sys2Proof.Machine.execIngestLinkChange port up s
  | .format => Sys2Proof.Machine.execFormat s
  | .rescan drives => Sys2Proof.Machine.execRescan drives s
  | .formatDone => Sys2Proof.Machine.execFormatDone s
  | .driveTimeout port => Sys2Proof.Machine.execDriveTimeout port s
  | .driveLinkLoss port => Sys2Proof.Machine.execDriveLinkLoss port s
  | .clipFrameRead chan data => Sys2Proof.Machine.execClipFrameRead chan data s
  | .clipWriteDone poisoned => Sys2Proof.Machine.execClipWriteDone poisoned s
  | .dGo value => Sys2Proof.Machine.execDGo value s
  | .directDone => Sys2Proof.Machine.execDirectDone s
  | .nop chan cmd => Sys2Proof.Machine.execNop chan cmd s
  | .copy chan cmd => Sys2Proof.Machine.execCopy chan cmd s
  | .fill chan cmd => Sys2Proof.Machine.execFill chan cmd s
  | .rop chan cmd => Sys2Proof.Machine.execRop chan cmd s
  | .waitPl chan cmd => Sys2Proof.Machine.execWaitPl chan cmd s
  | .waitTurn chan cmd => Sys2Proof.Machine.execWaitTurn chan cmd s
  | .blitOpDone => Sys2Proof.Machine.execBlitOpDone s
  | .blitOwnPoll chan own => Sys2Proof.Machine.execBlitOwnPoll chan own s
  | .blitWaitTimeout chan => Sys2Proof.Machine.execBlitWaitTimeout chan s
  | .blitFault => Sys2Proof.Machine.execBlitFault s
  | .senseFrameReceive snake owner words => Sys2Proof.Machine.execSenseFrameReceive snake owner words s
  | .senseStale square => Sys2Proof.Machine.execSenseStale square s
  | .healthFrameReceive snake owner words => Sys2Proof.Machine.execHealthFrameReceive snake owner words s
  | .teleStale square => Sys2Proof.Machine.execTeleStale square s
  | .alarmSample level0 level1 => Sys2Proof.Machine.execAlarmSample level0 level1 s
  | .clear value => Sys2Proof.Machine.execClear value s
  | .ptpMessage port msg => Sys2Proof.Machine.execPtpMessage port msg s
  | .ptpFail => Sys2Proof.Machine.execPtpFail s
  | .refInEdge input errorNs widthNs => Sys2Proof.Machine.execRefInEdge input errorNs widthNs s
  | .refWindowEnd input cycles => Sys2Proof.Machine.execRefWindowEnd input cycles s
  | .refEdgeMissing input => Sys2Proof.Machine.execRefEdgeMissing input s
  | .step req => Sys2Proof.Machine.execStep req s
  | .slew req => Sys2Proof.Machine.execSlew req s
  | .atSecond req => Sys2Proof.Machine.execAtSecond req s
  | .secondBoundary => Sys2Proof.Machine.execSecondBoundary s
  | .slewDone => Sys2Proof.Machine.execSlewDone s
  | .lock syn => Sys2Proof.Machine.execLock syn s
  | .refLost syn => Sys2Proof.Machine.execRefLost syn s
  | .unlock syn => Sys2Proof.Machine.execUnlock syn s
  | .range90 syn cw => Sys2Proof.Machine.execRange90 syn cw s
  | .hop syn target => Sys2Proof.Machine.execHop syn target s
  | .hopDone syn band cw tj => Sys2Proof.Machine.execHopDone syn band cw tj s
  | .refModeWrite syn value => Sys2Proof.Machine.execRefModeWrite syn value s
  | .snap req => Sys2Proof.Machine.execSnap req s
  | .snapDone => Sys2Proof.Machine.execSnapDone s
  | .registerWrite req offset value bytes => Sys2Proof.Machine.execRegisterWrite req offset value bytes s
  | .lockSet req offset => Sys2Proof.Machine.execLockSet req offset s
  | .rcRead req offset bytes => Sys2Proof.Machine.execRcRead req offset bytes s
  | .lowWordRead req offset => Sys2Proof.Machine.execLowWordRead req offset s
  | .timeNsRead req nextPres => Sys2Proof.Machine.execTimeNsRead req nextPres s
  | .postedWriteApply block => Sys2Proof.Machine.execPostedWriteApply block s
  | .tmrScrub upsets => Sys2Proof.Machine.execTmrScrub upsets s
  | .pendClear req word value => Sys2Proof.Machine.execPendClear req word value s
  | .eventHoldoffEnd event => Sys2Proof.Machine.execEventHoldoffEnd event s
  | .eventRingHeadWrite req ring value => Sys2Proof.Machine.execEventRingHeadWrite req ring value s
  | .eventRingConfigWrite req ring offset value => Sys2Proof.Machine.execEventRingConfigWrite req ring offset value s
  | .coalTimeout ring => Sys2Proof.Machine.execCoalTimeout ring s
  | .sqDoorbell fn queue value bytes => Sys2Proof.Machine.execSqDoorbell fn queue value bytes s
  | .pqPiWrite queue value => Sys2Proof.Machine.execPqPiWrite queue value s
  | .cqHeadDoorbell fn ring value bytes => Sys2Proof.Machine.execCqHeadDoorbell fn ring value bytes s
  | .blitDoorbell fn index value bytes => Sys2Proof.Machine.execBlitDoorbell fn index value bytes s
  | .senseDoorbell fn index value bytes => Sys2Proof.Machine.execSenseDoorbell fn index value bytes s
  | .sqCfgWrite req queue offset value => Sys2Proof.Machine.execSqCfgWrite req queue offset value s
  | .cqCfgWrite req ring offset value => Sys2Proof.Machine.execCqCfgWrite req ring offset value s
  | .ownPoll queue own waited1ms => Sys2Proof.Machine.execOwnPoll queue own waited1ms s
  | .fetchErr queue => Sys2Proof.Machine.execFetchErr queue s
  | .fence queue entry => Sys2Proof.Machine.execFence queue entry s
  | .destroy queue entry => Sys2Proof.Machine.execDestroy queue entry s
  | .readmit queue entry => Sys2Proof.Machine.execReadmit queue entry s
  | .layerCreate queue entry => Sys2Proof.Machine.execLayerCreate queue entry s
  | .layerUpdate queue entry => Sys2Proof.Machine.execLayerUpdate queue entry s
  | .ingestCreate queue entry => Sys2Proof.Machine.execIngestCreate queue entry s
  | .clipCreate queue entry => Sys2Proof.Machine.execClipCreate queue entry s
  | .clipUpdate queue entry => Sys2Proof.Machine.execClipUpdate queue entry s
  | .blitCreate queue entry => Sys2Proof.Machine.execBlitCreate queue entry s
  | .senseCreate queue entry => Sys2Proof.Machine.execSenseCreate queue entry s
  | .surfaceCreate queue entry => Sys2Proof.Machine.execSurfaceCreate queue entry s
  | .checkCreate queue entry => Sys2Proof.Machine.execCheckCreate queue entry s
  | .storeLoad queue entry body => Sys2Proof.Machine.execStoreLoad queue entry body s
  | .calLoad queue entry => Sys2Proof.Machine.execCalLoad queue entry s
  | .clipWrite queue entry pack => Sys2Proof.Machine.execClipWrite queue entry pack s
  | .clipDelete queue entry => Sys2Proof.Machine.execClipDelete queue entry s
  | .surfaceWrite queue entry => Sys2Proof.Machine.execSurfaceWrite queue entry s
  | .surfaceRead queue entry => Sys2Proof.Machine.execSurfaceRead queue entry s
  | .flr fn => Sys2Proof.Machine.execFlr fn s
  | .pcieLinkLoss => Sys2Proof.Machine.execPcieLinkLoss s
  | .pcieLinkUp speed width => Sys2Proof.Machine.execPcieLinkUp speed width s
  | .pciePerst => Sys2Proof.Machine.execPciePerst s
  | .ctrlFrameReceive port bytes => Sys2Proof.Machine.execCtrlFrameReceive port bytes s
  | .read transport msg => Sys2Proof.Machine.execRead transport msg s
  | .write transport msg => Sys2Proof.Machine.execWrite transport msg s
  | .segWrite transport msg => Sys2Proof.Machine.execSegWrite transport msg s
  | .segRead transport msg => Sys2Proof.Machine.execSegRead transport msg s
  | .time transport msg => Sys2Proof.Machine.execTime transport msg s
  | .imageLoad role image => Sys2Proof.Machine.execImageLoad role image s
  | .dictLockSet role => Sys2Proof.Machine.execDictLockSet role s
  | .verify role => Sys2Proof.Machine.execVerify role s
  | .activate role => Sys2Proof.Machine.execActivate role s
  | .confirm role => Sys2Proof.Machine.execConfirm role s
  | .abort role => Sys2Proof.Machine.execAbort role s
  | .bankerRestartCmd role => Sys2Proof.Machine.execBankerRestartCmd role s
  | .pipFailCmd role pip => Sys2Proof.Machine.execPipFailCmd role pip s
  | .warmResetCmd role value env => Sys2Proof.Machine.execWarmResetCmd role value env s
  | .chainVerify role seq => Sys2Proof.Machine.execChainVerify role seq s
  | .send len => Sys2Proof.Machine.execSend len s
  | .mbxAbort => Sys2Proof.Machine.execMbxAbort s
  | .segIdleTimeout role client index sub => Sys2Proof.Machine.execSegIdleTimeout role client index sub s
  | .bankerWatchdog => Sys2Proof.Machine.execBankerWatchdog s
  | .bankerRestartDone => Sys2Proof.Machine.execBankerRestartDone s
  | .substitution pip => Sys2Proof.Machine.execSubstitution pip s
  | .hubOut cup quarterHub xbarHalf => Sys2Proof.Machine.execHubOut cup quarterHub xbarHalf s
  | .dieTempRead temps => Sys2Proof.Machine.execDieTempRead temps s
  | .voltageRead mv => Sys2Proof.Machine.execVoltageRead mv s
  | .wearMove => Sys2Proof.Machine.execWearMove s
  | .mramScrub corrected badLine => Sys2Proof.Machine.execMramScrub corrected badLine s
  | .ledgerSecondEnd => Sys2Proof.Machine.execLedgerSecondEnd s
  | .trialConfirmTimeout => Sys2Proof.Machine.execTrialConfirmTimeout s
  | .activateRestart => Sys2Proof.Machine.execActivateRestart s
  | .powerOnReset env => Sys2Proof.Machine.execPowerOnReset env s
  | .warm req env => Sys2Proof.Machine.execWarm req env s
  | .pfail => Sys2Proof.Machine.execPfail s
  | .pfailClear env => Sys2Proof.Machine.execPfailClear env s
  | .autoWarmTimeout env => Sys2Proof.Machine.execAutoWarmTimeout env s
  | .paceLoopTick => Sys2Proof.Machine.execPaceLoopTick s
  | .vcorePowerSample mv milliAmp => Sys2Proof.Machine.execVcorePowerSample mv milliAmp s
  | .pmbErr => Sys2Proof.Machine.execPmbErr s
  | .pmbusTimeout => Sys2Proof.Machine.execPmbusTimeout s
  | .domErr domain => Sys2Proof.Machine.execDomErr domain s
  | .domOffReqWrite req word value => Sys2Proof.Machine.execDomOffReqWrite req word value s
  | .hold60s => Sys2Proof.Machine.execHold60s s
  | .fullSearch syn band cw tj => Sys2Proof.Machine.execFullSearch syn band cw tj s
  | .delayReq port => Sys2Proof.Machine.execDelayReq port s
  | .aerError uncorrectable => Sys2Proof.Machine.execAerError uncorrectable s
  | .configurationSpaceWrite w => Sys2Proof.Machine.execConfigurationSpaceWrite w s
  | .driveLinkUp drive => Sys2Proof.Machine.execDriveLinkUp drive s
  | .surfaceTransferDone xfer data => Sys2Proof.Machine.execSurfaceTransferDone xfer data s

end Sys2Proof.Machine
end

