-- ==== Sys2Proof/WellFormed.lean ====
section
/-! DEFINITION. The well-formed commands: those the outside world can send, which name units that the part has and
whose operands are of their own row. -/

namespace Sys2Proof

open Machine

/-- The queue entry is one of its row: it spells the row's opcode, NOP, or an opcode that R693 does not list. -/
def entryOk (queue op : Nat) (entry : List Byte) : Bool :=
  decide (queue < 1032) && (entryOp entry == op || !decide (entryOp entry ∈ listedOps))

/-- The upstream frame is one of its row: of the row's type, or one that no square sends good (R478, R512). -/
def upFrameOk (snake owner ftype : Nat) (words : List LinkWord) : Bool :=
  decide (snake < 256) && decide (owner < 64) &&
    (match readFrame words with
    | none => true
    | some (h, _) => h.ftype == ftype || !decide (h.ftype ∈ upTypes))

/-- The blit command is one of its row: of its OP, or of an OP that R582 does not list. -/
def blitOk (chan op : Nat) (cmd : List Byte) : Bool :=
  decide (chan < 4096) && (bOp cmd == op || decide (5 < bOp cmd))

/-- The message is one of its row (R785), on a control port or in the mailbox. -/
def messageOk (transport op : Nat) (msg : List Byte) : Bool :=
  decide (transport < 3) && byteAt msg 3 % 128 == op

/-- One of the 32 functions or the banker, which is requester 32. -/
def reqOk (req : Nat) : Bool := decide (req < 33)

/-- The link of a handshake timeout is one of the fabric's. -/
def linkOk : FabLink → Bool
  | .pip p => decide (p < 256)
  | .cupHub c => decide (c < 32)
  | .quarterHub q => decide (q < 4)
  | .xbar half => decide (half < 2)

/-- The configuration space that the write goes to exists. -/
def cfgOk : CfgWrite → Bool
  | .numVfs _ => true
  | .vfEnable _ => true
  | .msixEnable fn _ => decide (fn < 32)
  | .msixFunctionMask fn _ => decide (fn < 32)
  | .busMaster fn _ => decide (fn < 32)
  | .msixVectorMask fn vec _ => decide (fn < 32) && decide (vec < 2048)
  | .other fn => decide (fn < 32)

/-- The ring that coalesces exists. -/
def coalOk : CoalRing → Bool
  | .completion c => decide (c < 256)
  | .event r => decide (r < 32)

/-- A command that the outside world can send. -/
def Instr.wf : Instr → Bool
  | .presentInstant _ => true
  | .rebandDone syn _ _ _ => decide (syn < 85)
  | .retrainDone stack _ => decide (stack < 8)
  | .composeWindowOpen => true
  | .reserveSelftestDone cup _ => decide (cup < 32)
  | .composeDeadline => true
  | .pushCutoff => true
  | .pushDeadline => true
  | .patchComposed pip _ => decide (pip < 256)
  | .patchCalibrate quarter => decide (quarter < 4)
  | .stealAttempt pip => decide (pip < 256)
  | .pipFail pip _ => decide (pip < 256)
  | .handshakeTimeout link => linkOk link
  | .paceSample _ => true
  | .shortfall quarter => decide (quarter < 4)
  | .planRebuildDone quarter => decide (quarter < 4)
  | .trial req => reqOk req
  | .trialDone _ => true
  | .resume req => reqOk req
  | .hbmTempRead _ => true
  | .hbmReadReturn addr _ reader => readerOk reader && decide (addr < hbmBytes)
  | .hbmUnlockTimeout stack => decide (stack < 8)
  | .scrubDone => true
  | .surfaceZeroFillDone => true
  | .commit profile => decide (profile < 256)
  | .ageReading unit => decide (unit < 4)
  | .calLoadBodyRead unit _ => decide (unit < 4)
  | .calLoadWriteDone unit => decide (unit < 4)
  | .pushFrameStart snake => decide (snake < 256)
  | .underrun snake => decide (snake < 256)
  | .presentFrameStart snake pos => decide (snake < 256) && decide (pos < 64)
  | .cadenceFrameStart snake pos => decide (snake < 256) && decide (pos < 64)
  | .ackReceived snake _ => decide (snake < 256)
  | .ackTimeout snake pos _ => decide (snake < 256) && decide (pos < 64)
  | .nak snake owner words => upFrameOk snake owner ftNak words
  | .echo snake owner words => upFrameOk snake owner ftEcho words
  | .holdTimeExpiry square => decide (square < 16384)
  | .codewordLock snake => decide (snake < 256)
  | .codewordLockLost snake => decide (snake < 256)
  | .releaseWaitDone snake => decide (snake < 256)
  | .enumReply snake owner words => upFrameOk snake owner ftEnum words
  | .enumReplyTimeout snake => decide (snake < 256)
  | .rttMeasureDone snake _ => decide (snake < 256)
  | .sqLost snake pos => decide (snake < 256) && decide (pos < 64)
  | .restart snake _ => decide (snake < 256)
  | .measure snake => decide (snake < 256)
  | .maintSend snake => decide (snake < 256)
  | .maintReply snake owner words => upFrameOk snake owner ftMaint words
  | .maintTimeout snake => decide (snake < 256)
  | .snakeSynthTimeout quad => decide (quad < 64)
  | .fiCtlWrite snake offset _ => decide (snake < 256) && (offset == 0x40 || offset == 0x44)
  | .snkSenseWrite snake _ => decide (snake < 256)
  | .turnMessage port bytes => decide (port < 8) && byteAt bytes 0 == 2
  | .tablePeerLost peer => decide (peer < 8)
  | .hello port bytes => decide (port < 8) && byteAt bytes 0 == 1
  | .forward port _ _ => decide (port < 8)
  | .state port _ _ => decide (port < 8)
  | .frame port bytes => decide (port < 8) && byteAt bytes 0 == 5
  | .ambient port _ _ => decide (port < 8)
  | .ingestFrameReceive port _ => decide (port < 8)
  | .frameReady chan => decide (chan < 512)
  | .xsSliceDecoded chan _ => decide (chan < 512)
  | .policeWindowEnd => true
  | .legLost chan leg => decide (chan < 512) && decide (leg < 2)
  | .stale chan => decide (chan < 512)
  | .ingestLinkChange port _ => decide (port < 8)
  | .format => true
  | .rescan _ => true
  | .formatDone => true
  | .driveTimeout port => decide (port < 8)
  | .driveLinkLoss port => decide (port < 8)
  | .clipFrameRead chan _ => decide (chan < 128)
  | .clipWriteDone _ => true
  | .dGo _ => true
  | .directDone => true
  | .nop chan cmd => blitOk chan 0 cmd
  | .copy chan cmd => blitOk chan 1 cmd
  | .fill chan cmd => blitOk chan 2 cmd
  | .rop chan cmd => blitOk chan 3 cmd
  | .waitPl chan cmd => blitOk chan 4 cmd
  | .waitTurn chan cmd => blitOk chan 5 cmd
  | .blitOpDone => true
  | .blitOwnPoll chan _ => decide (chan < 4096)
  | .blitWaitTimeout chan => decide (chan < 4096)
  | .blitFault => true
  | .senseFrameReceive snake owner words => upFrameOk snake owner ftSense words
  | .senseStale square => decide (square < 16384)
  | .healthFrameReceive snake owner words => upFrameOk snake owner ftHealth words
  | .teleStale square => decide (square < 16384)
  | .alarmSample _ _ => true
  | .clear _ => true
  | .ptpMessage port _ => decide (port < 10)
  | .ptpFail => true
  | .refInEdge input _ _ => decide (input < 2)
  | .refWindowEnd input _ => decide (input < 2)
  | .refEdgeMissing input => decide (input < 2)
  | .step req => reqOk req
  | .slew req => reqOk req
  | .atSecond req => reqOk req
  | .secondBoundary => true
  | .slewDone => true
  | .lock syn => decide (syn < 85)
  | .refLost syn => decide (syn < 85)
  | .unlock syn => decide (syn < 85)
  | .range90 syn _ => decide (syn < 85)
  | .hop syn target => decide (syn < 85) && decide (target < 4)
  | .hopDone syn _ _ _ => decide (syn < 85)
  | .refModeWrite syn _ => decide (syn < 85)
  | .snap req => reqOk req
  | .snapDone => true
  | .registerWrite req _ value bytes => reqOk req && decide (bytes ≤ 8) && decide (value < 256 ^ bytes)
  | .lockSet req _ => reqOk req
  | .rcRead req _ bytes => reqOk req && decide (bytes ≤ 8)
  | .lowWordRead req _ => reqOk req
  | .timeNsRead req _ => reqOk req
  | .postedWriteApply block => (gateOf block).isSome
  | .tmrScrub _ => true
  | .pendClear req word _ => reqOk req && decide (word < 32)
  | .eventHoldoffEnd event => decide (event < 1024)
  | .eventRingHeadWrite req ring _ => reqOk req && decide (ring < 32)
  | .eventRingConfigWrite req ring _ _ => reqOk req && decide (ring < 32)
  | .coalTimeout ring => coalOk ring
  | .sqDoorbell fn queue _ _ => decide (fn < 32) && decide (queue / 32 = fn)
  | .pqPiWrite queue _ => decide (queue < 8)
  | .cqHeadDoorbell fn ring _ _ => decide (fn < 32) && decide (ring / 8 = fn)
  | .blitDoorbell fn index _ _ => decide (fn < 32) && decide (index < 4096)
  | .senseDoorbell fn index _ _ => decide (fn < 32) && decide (index < 256)
  | .sqCfgWrite req queue _ _ => reqOk req && decide (queue < 1032)
  | .cqCfgWrite req ring _ _ => reqOk req && decide (ring < 256)
  | .ownPoll queue _ _ => decide (queue < 1024)
  | .fetchErr queue => decide (queue < 1032)
  | .fence queue entry => entryOk queue 0x01 entry
  | .destroy queue entry => entryOk queue 0x02 entry
  | .readmit queue entry => entryOk queue 0x03 entry
  | .layerCreate queue entry => entryOk queue 0x10 entry
  | .layerUpdate queue entry => entryOk queue 0x11 entry
  | .ingestCreate queue entry => entryOk queue 0x12 entry
  | .clipCreate queue entry => entryOk queue 0x13 entry
  | .clipUpdate queue entry => entryOk queue 0x14 entry
  | .blitCreate queue entry => entryOk queue 0x15 entry
  | .senseCreate queue entry => entryOk queue 0x16 entry
  | .surfaceCreate queue entry => entryOk queue 0x17 entry
  | .checkCreate queue entry => entryOk queue 0x18 entry
  | .storeLoad queue entry _ => entryOk queue 0x20 entry
  | .calLoad queue entry => entryOk queue 0x21 entry
  | .clipWrite queue entry _ => entryOk queue 0x22 entry
  | .clipDelete queue entry => entryOk queue 0x23 entry
  | .surfaceWrite queue entry => entryOk queue 0x24 entry
  | .surfaceRead queue entry => entryOk queue 0x25 entry
  | .flr fn => decide (fn < 32)
  | .pcieLinkLoss => true
  | .pcieLinkUp speed width => decide (1 ≤ speed) && decide (speed ≤ 6) && decide (1 ≤ width) && decide (width ≤ 16)
  | .pciePerst => true
  | .ctrlFrameReceive port _ => decide (port < 2)
  | .read transport msg => messageOk transport 1 msg
  | .write transport msg => messageOk transport 2 msg
  | .segWrite transport msg => messageOk transport 3 msg
  | .segRead transport msg => messageOk transport 4 msg
  | .time transport msg => messageOk transport 5 msg
  | .imageLoad role _ => decide (role < 5)
  | .dictLockSet role => decide (role < 5)
  | .verify role => decide (role < 5)
  | .activate role => decide (role < 5)
  | .confirm role => decide (role < 5)
  | .abort role => decide (role < 5)
  | .bankerRestartCmd role => decide (role < 5)
  | .pipFailCmd role pip => decide (role < 5) && decide (pip < 256)
  | .warmResetCmd role value _ => decide (role < 5) && decide (value < 256)
  | .chainVerify role seq => decide (role < 5) && decide (seq < 2 ^ 64)
  | .send _ => true
  | .mbxAbort => true
  | .segIdleTimeout _ _ _ _ => true
  | .bankerWatchdog => true
  | .bankerRestartDone => true
  | .substitution pip => decide (pip < 256)
  | .hubOut cup _ _ => decide (cup < 32)
  | .dieTempRead _ => true
  | .voltageRead _ => true
  | .wearMove => true
  | .mramScrub _ _ => true
  | .ledgerSecondEnd => true
  | .trialConfirmTimeout => true
  | .activateRestart => true
  | .powerOnReset _ => true
  | .warm req _ => reqOk req
  | .pfail => true
  | .pfailClear _ => true
  | .autoWarmTimeout _ => true
  | .paceLoopTick => true
  | .vcorePowerSample _ _ => true
  | .pmbErr => true
  | .pmbusTimeout => true
  | .domErr domain => decide (domain < 136)
  | .domOffReqWrite req word _ => reqOk req && decide (word < 5)
  | .hold60s => true
  | .fullSearch syn _ _ _ => decide (syn < 85)
  | .delayReq port => decide (port < 10)
  | .aerError _ => true
  | .configurationSpaceWrite w => cfgOk w
  | .driveLinkUp drive => decide (drive.port < 8)
  | .surfaceTransferDone _ _ => true

end Sys2Proof
end

