-- ==== Sys2Proof/Safety.lean ====
section
/-! DEFINITION. What a sound state is, and which commands the outside world can send in it. -/

namespace Sys2Proof

open Machine

/-- HBM is in its canonical form: addresses strictly rising, no entry that an unlisted byte would read as. -/
def Machine.State.canonical (s : State) : Prop := Memory.wf s.hbm = true

/-! ### What a command leaves alone -/

/-- The events without what raising one changes. -/
def Machine.EvSt.still (v : EvSt) : EvSt := { v with holds := [], loss := [], since := [], bank := [], once := [], pba := [] }

/-- The banker's state without what a ledger entry changes. -/
def Machine.BankSt.still (b : BankSt) : BankSt :=
  { b with general := [], protect := [], second := 0, inSecond := 0, droppedSecond := 0, dropped := 0, ledWait := [] }

/-- The parts of the state beside registers, HBM and queue: of the events their configuration and the whole, of the
banker's state what it holds beside the ledger and the whole. -/
inductive Part where
  | acc | time | evCfg | events | q | ch | bank | ledger | pwr | geo | sched | adm | pip | mem | comp | cal | push | snk | ing | blt | sns | tbl | free | out
  deriving DecidableEq, Repr

/-- A part is the same in two states. -/
def Part.same : Part → Dev → Dev → Prop
  | .acc, d, e => e.acc = d.acc
  | .time, d, e => e.time = d.time
  | .evCfg, d, e => e.ev.still = d.ev.still
  | .events, d, e => e.ev = d.ev
  | .q, d, e => e.q = d.q
  | .ch, d, e => e.ch = d.ch
  | .bank, d, e => e.bank.still = d.bank.still
  | .ledger, d, e => e.bank = d.bank
  | .pwr, d, e => e.pwr = d.pwr
  | .geo, d, e => e.geo = d.geo
  | .sched, d, e => e.sched = d.sched
  | .adm, d, e => e.adm = d.adm
  | .pip, d, e => e.pip = d.pip
  | .mem, d, e => e.mem = d.mem
  | .comp, d, e => e.comp = d.comp
  | .cal, d, e => e.cal = d.cal
  | .push, d, e => e.push = d.push
  | .snk, d, e => e.snk = d.snk
  | .ing, d, e => e.ing = d.ing
  | .blt, d, e => e.blt = d.blt
  | .sns, d, e => e.sns = d.sns
  | .tbl, d, e => e.tbl = d.tbl
  | .free, d, e => e.free = d.free
  | .out, d, e => e.out = d.out

/-- The fields of a list, by where each is kept. -/
def regsOf (l : List Fld) (k : Nat) : Bool := l.any (fun f => f.key == k)

/-- The fields of the event controller and of the persistent store: raising an event and making a ledger entry change
these alone. -/
def noteBlock (k : Nat) : Bool := k / 0x4000000 == 1 || k / 0x4000000 == 18

/-- What raising an event and making a ledger entry change beside registers: the events, the ledger, what is sent out. -/
def notes : List Part := [.events, .ledger, .out]

/-- Of block d, nothing but the fields that `regs` holds of and the listed parts is changed in e. -/
def Machine.Dev.Only (regs : Nat → Bool) (parts : List Part) (d e : Dev) : Prop :=
  (∀ f : Fld, regs f.key = false → e.get f = d.get f) ∧ ∀ p : Part, p ∉ parts → p.same d e

/-- From s to t nothing but the fields of l and the listed parts is changed: no byte of HBM, no
command of the queue. -/
def Machine.State.Only (l : List Fld) (parts : List Part) (s t : State) : Prop :=
  s.dev.Only (regsOf l) parts t.dev ∧ t.hbm = s.hbm ∧ t.pending = s.pending

/-- The same for a command that raises events or makes ledger entries beside. -/
def Machine.State.Noting (l : List Fld) (parts : List Part) (s t : State) : Prop :=
  s.dev.Only (fun a => noteBlock a || regsOf l a) (notes ++ parts) t.dev ∧ t.hbm = s.hbm ∧ t.pending = s.pending

/-- What a lock violation records beside the block's own flag (R733, R745). -/
def violationFields : List Fld :=
  [R.GLB_LOCKVIOL_CNT, R.GLB_OFFSET, R.GLB_BLOCK_18, R.GLB_REQ, R.GLB_LAST_REG_VAL, R.GLB_LAST_REG_KIND]

/-- What the end of a function's queues and completion rings changes (R709, R710). -/
def functionFields (f : Nat) : List Fld :=
  (queuesOf f).flatMap (fun q => [qEN q, qOUT q, qSTATE q]) ++
    (ringsOf f).flatMap (fun c => [R.CQ_EN c, R.CQ_HELD c, R.CQ_RESV c, R.CQ_DROPPED c])

/-- From s to t no register outside the listed blocks (BAR0 offset shifted right by 20) and outside those of events and
the ledger is changed, no part outside the listed ones and outside those that are told, and no command of the queue. -/
def Machine.State.Within (blocks : List Nat) (parts : List Part) (s t : State) : Prop :=
  s.dev.Only (fun k => noteBlock k || decide (k / 0x4000000 ∈ blocks)) (notes ++ parts) t.dev ∧ t.pending = s.pending

/-- The head entry of queue q starts (R683 to R689, R702): nothing holds the queue, its OWN bit is set where the queue is
an ordinary one, it can be framed and lies below the producer index, and its completion ring has room. -/
def Machine.Dev.headStarts (d : Dev) (q : Nat) (e : List Byte) (slots : Nat) (admission : Bool) : Bool :=
  let size := 2 ^ d.get (qSIZE q)
  let ci := d.get (qCI q)
  let c := d.queueRing q
  !d.entryHeld q (entryHandle e) admission && (isPq q || tbit (byteAt e 0) 7) &&
    decide (1 ≤ entryLen e) && decide (entryLen e ≤ 16) && decide (ci + entryLen e ≤ size) &&
    decide (entryLen e ≤ (d.get (qPI q) + size - ci) % size) &&
    decide (d.get (R.CQ_RESV c) + d.get (R.CQ_HELD c) + slots ≤ d.ringFree c)

/-- The block with the head entry of queue q started. -/
def Machine.Dev.begun (d : Dev) (q : Nat) (e : List Byte) (slots : Nat) : Dev :=
  d.beginEntry q slots ((d.get (qCI q) + entryLen e) % 2 ^ d.get (qSIZE q)) (byteAt e 0)

/-- What starting and completing an entry of queue q changes. -/
def Machine.Dev.queueFields (d : Dev) (q : Nat) : List Fld :=
  let c := d.queueRing q
  [qCI q, qSTATE q, qOUT q, R.QB_ENTRIES, R.CQ_RESV c, R.CQ_TAIL c, R.CQ_PHASE c, R.CQ_DROPPED c,
    R.QB_MALFORMED_CNT, R.QB_ABORT_CNT, R.QB_FLUSH_CNT]

/-- From d to e an entry of queue q has completed with a handle, a status and a reason: its completion entry lies at the
tail of its ring, and the tail has moved on (R697 to R699). -/
def Machine.Dev.answered (d e : Dev) (q : Nat) (entry : List Byte) (handle status reason : Nat) : Prop :=
  let c := d.queueRing q
  let size := 2 ^ d.get (R.CQ_SIZE_LOG2 c)
  let base := d.get (R.CQ_BASE_LO c) + d.get (R.CQ_BASE_HI c) * 2 ^ 32
  let done : Compl :=
    if d.get (qCTIME q) = 1 then ⟨entryTag entry, status, true, false, handle, d.nsec, q, reason⟩
    else ⟨entryTag entry, status, false, false, handle, d.time.turn % 2 ^ 32, q, reason⟩
  d.get (R.CQ_EN c) = 1 →
    OutMsg.hostWrite (ringFn c) (base + 16 * d.get (R.CQ_TAIL c)) (done.bytes (d.get (R.CQ_PHASE c))) ∈ e.out ∧
      e.get (R.CQ_TAIL c) = (d.get (R.CQ_TAIL c) + 1) % size % 2 ^ 16

/-- From d to e an entry of queue q has started and its completion stays owed. -/
def Machine.Dev.owes (d e : Dev) (q : Nat) (o : Owed) : Prop :=
  e.q.owed = d.q.owed ++ [o] ∧ e.get (qOUT q) = (d.get (qOUT q) + 1) % 2 ^ 8

/-- From d to e the channel of a class at an index has been created for queue q's function: LIVE, with the index's next
generation, that owner and the next creation sequence number (R104 to R106). -/
def Machine.Dev.creates (d e : Dev) (cls i q : Nat) : Prop :=
  (∃ c, e.live? cls i = some c ∧ c.gen = d.issueGen cls i ∧ c.owner = queueFn q ∧ c.cseq = d.ch.nextCseq) ∧
    e.ch.nextCseq = d.ch.nextCseq + 1

/-- From d to e a stake is admitted: the next sequence number, and ADM_LAST tells of it (R144, R181). -/
def Machine.Dev.admits (d e : Dev) (rung handle : Nat) : Prop :=
  e.get R.ADM_ASEQ = (d.get R.ADM_ASEQ + 1) % 2 ^ 64 ∧ e.get R.ADM_ADMIT_CNT = (d.get R.ADM_ADMIT_CNT + 1) % 2 ^ 64 ∧
    e.get R.ADM_STATUS = stOk ∧ e.get R.ADM_RUNG = rung % 8 ∧ e.get R.ADM_LAST_HANDLE = handle % 2 ^ 32

/-- The registers that show the admission ledger (R181, R567), and ADM_LAST. -/
def ledgerFields : List Fld :=
  (List.range 4).map R.ADM_LOAD_Q ++ (List.range 8).map R.ADM_LOAD_S ++ (List.range 8).map R.ADM_STAKES ++
    (List.range 8).map R.ADM_DEMOTED_N ++ (List.range 8).map R.XSD_CHANNELS ++ (List.range 8).map R.XSD_LOAD ++
    [R.ADM_STATUS, R.ADM_REASON, R.ADM_QMASK, R.ADM_SMASK, R.ADM_RUNG, R.ADM_VALID, R.ADM_LAST_HANDLE, R.ADM_ASEQ,
      R.ADM_ADMIT_CNT, R.ADM_REFUSE_CNT]

/-- No fault is injected on snake s and no frame is held back (R516, R517): what is sent down it leaves as it is. -/
def Machine.Dev.plainLane (d : Dev) (s : Nat) : Prop := d.get (R.SNK_EN_40 s) = 0 ∧ Tab.get? d.snk.swap s = none

/-- The words are a good frame of a type from the square at a position of snake s, which takes it (R477, R512). -/
def Machine.Dev.hears (d : Dev) (s owner ftype : Nat) (ws : List LinkWord) (h : Header) (pay : List LinkWord) : Prop :=
  s < 256 ∧ owner < 64 ∧ d.port s ≠ psDown ∧ d.port s ≠ psLocking ∧ d.get (R.SNK_EN_40 s) = 0 ∧
    readFrame ws = some (h, pay) ∧ h.pos = owner ∧ h.ftype = ftype ∧ ftype ∈ upTypes ∧ owner < d.snakeSquares s

/-- Command c completes in state s, and P holds of the state that it leaves. -/
def Instr.gives (c : Instr) (s : State) (P : State → Prop) : Prop := ∃ t, exec c s = .next t ∧ P t

/-- Event e is pending (R747). -/
def Machine.Dev.pends (d : Dev) (e : Nat) : Bool := d.mapBit R.EV_PEND e

/-! ### Block operations -/

/-- Where byte k of the pixel at (x, y) of an operation's rectangle lies in HBM, on an uncompressed destination. -/
def Machine.BlitJob.cellAt (j : BlitJob) (x y k : Nat) : Nat :=
  j.dst.addr ((j.dy + y) * j.dst.pitch + (j.dx + x) * bppOf j.dst.fmt + k)

/-- Byte k of the pixel at (x, y) belongs to the operation's rectangle. -/
def Machine.BlitJob.covers (j : BlitJob) (x y k : Nat) : Prop := x < j.w ∧ y < j.h ∧ k < bppOf j.dst.fmt

/-- Different bytes of the rectangle lie at different addresses. -/
def Machine.BlitJob.spread (j : BlitJob) : Prop :=
  ∀ x y k x' y' k', j.covers x y k → j.covers x' y' k' → j.cellAt x y k = j.cellAt x' y' k' → x = x' ∧ y = y' ∧ k = k'

/-- The source, an uncompressed one, shares no byte with the rectangle. -/
def Machine.BlitJob.clearOf (j : BlitJob) : Prop :=
  ∀ u, j.src = some u → u.kamius = false ∧
    ∀ x y k x' y' k', x < j.w → y < j.h → k < bppOf u.fmt → j.covers x' y' k' →
      u.addr ((j.sy + y) * u.pitch + (j.sx + x) * bppOf u.fmt + k) ≠ j.cellAt x' y' k'

/-- No byte of HBM outside the written pixels of the rectangle is changed from s to t. -/
def Machine.BlitJob.keepsOutside (j : BlitJob) (s t : State) : Prop :=
  ∀ a, (∀ x y k, j.covers x y k → j.writes x y = true → j.cellAt x y k ≠ a) → Memory.get t.hbm a = Memory.get s.hbm a

/-- From s to t the operation has been carried out (R571, R576): each written pixel takes the result word of its code, of FILL, and of
the source and destination pixels as they were, and no other byte is changed. -/
def Machine.BlitJob.carried (j : BlitJob) (s t : State) : Prop :=
  (∀ x y, x < j.w → y < j.h → j.writes x y = true →
    t.surfGet j.dst ((j.dy + y) * j.dst.pitch + (j.dx + x) * bppOf j.dst.fmt) (bppOf j.dst.fmt) =
      leBytes (bppOf j.dst.fmt) (ropWord j.code (8 * bppOf j.dst.fmt) j.fill
        (match j.src with | some u => s.word u (j.sx + x) (j.sy + y) | none => 0) (s.word j.dst (j.dx + x) (j.dy + y)))) ∧
    j.keepsOutside s t

/-! ### Shovin requests -/

/-- The block with a request recorded against replay (R787). -/
def Machine.Dev.recorded (d : Dev) (m : ShMsg) (bytes : List Byte) : Dev :=
  let e := d.purge
  { e with bank := { e.bank with replays := e.bank.replays ++
      [⟨m.role, m.client, m.seq, m.timeNs + d.objNat 0x7051 1 2000 * 1000000, bytes, none, []⟩] } }

/-- The bytes are a request of a role that is authentic, fresh and new, and served in this state (R786, R787). -/
def Machine.Dev.takesRequest (d : Dev) (v : Via) (bytes : List Byte) (m : ShMsg) (key : List Byte) : Prop :=
  d.bank.restarting = false ∧ readMsg bytes = some m ∧ m.role ≠ 0xFF ∧ d.keyFor v m = some key ∧
    hmacSha256 key m.signed = m.mac ∧ d.fresh? m.timeNs = true ∧
    (∀ p ∈ d.bank.replays, p.role = m.role → p.client = m.client → p.seq ≠ m.seq) ∧ d.bank.replays.length < 4096 ∧
    m.status = 0 ∧ allZero m.rsv = true ∧ m.len % 4 = 0 ∧ m.len ≤ 1024 ∧ m.servedBy d = true

/-- The response to a request with a status and a body. -/
def Machine.ShMsg.answer (m : ShMsg) (v : Via) (key : Option (List Byte)) (status : Nat) (body : List Byte) : Reply :=
  ⟨v.transport, v.tok, v.dest, key, m.op, m.role, status, m.client, m.seq, body⟩

/-- The block once the mailbox has taken a request (R792). -/
def Machine.Dev.mbxBusy (d : Dev) : Dev :=
  let d := { d with bank := { d.bank with mbxTok := d.bank.mbxTok + 1 } }
  ((d.put R.MBX_MBX_STATE 1).put R.MBX_RESP_LEN 0).bump R.MBX_MBX_REQ_CNT 1

/-- Command c brings a request to the dictionary service over a control port, along v: the message as it stands, or the frame
that carries it to the port's address and UDP port, with a way back (R782, R785). -/
def Instr.brings (c : Instr) (d : Dev) (v : Via) (m : ShMsg) (bytes : List Byte) : Prop :=
  (v.transport < 2 ∧ v.tok = 0 ∧ v.dest = none ∧ byteAt bytes 3 % 128 = m.op ∧
    ((m.op = 1 ∧ c = .read v.transport bytes) ∨ (m.op = 2 ∧ c = .write v.transport bytes) ∨
      (m.op = 3 ∧ c = .segWrite v.transport bytes) ∨ (m.op = 4 ∧ c = .segRead v.transport bytes) ∨
      (m.op = 5 ∧ c = .time v.transport bytes))) ∨
  ∃ k f tag p src sport, k < 2 ∧ c = .ctrlFrameReceive k f ∧ d.ipAddr k ≠ 0 ∧ d.domOn (131 + k) = true ∧
    d.untag k f = some (tag, p) ∧ beAt p 0 2 = 0x0800 ∧ d.datagram k p = some (src, sport, d.udpPort k, bytes) ∧
    (d.route k src sport).1 ≠ 0 ∧ v = ⟨k, 0, some (d.route k src sport)⟩

/-! ### Which commands the outside world can send -/

/-- The OP of a blit row. -/
def blitRowOp : Instr → Option (Nat × Nat)
  | .nop chan _ => some (0, chan)
  | .copy chan _ => some (1, chan)
  | .fill chan _ => some (2, chan)
  | .rop chan _ => some (3, chan)
  | .waitPl chan _ => some (4, chan)
  | .waitTurn chan _ => some (5, chan)
  | _ => none

/-- What a ONESHOT blit channel runs is the command of its create descriptor (R583): a row that runs it is of that
command's OP, where R582 lists it. Every other command may come in every state. -/
def fitsHead (c : Instr) (s : State) : Bool :=
  match blitRowOp c with
  | none => true
  | some (op, chan) =>
    match s.dev.live? clsBlit chan, Tab.get? s.dev.blt.chans chan with
    | some ch, some b => !bkOneshot ch.record || bOp (b.head.getD []) == op || decide (5 < bOp (b.head.getD []))
    | _, _ => true

/-- The outside world can send command c in state s. -/
def sendable (c : Instr) (s : State) : Bool := c.wf && fitsHead c s

/-- The commands that may change a byte of HBM: composed patches with a capture, the two units that write it, the block engine,
what a port, a table link or a drive brings in, the opening of a compose window, which clears lookahead surfaces, and a power-on reset. -/
def memoryCommand : Instr → Bool
  | .patchComposed _ _ => true
  | .ageReading _ => true
  | .calLoadBodyRead _ _ => true
  | .surfaceZeroFillDone => true
  | .surfaceTransferDone _ _ => true
  | .hbmReadReturn _ _ _ => true
  | .blitOpDone => true
  | .directDone => true
  | .blitFault => true
  | .ingestFrameReceive _ _ => true
  | .xsSliceDecoded _ _ => true
  | .frame _ _ => true
  | .clipUpdate _ _ => true
  | .clipFrameRead _ _ => true
  | .composeWindowOpen => true
  | .powerOnReset _ => true
  | _ => false

end Sys2Proof
end

