-- ==== Sys2Proof/Certificates/Slice0/Obligations.lean ====
section
/-! DEFINITION. The statements about the model, each a proposition for the provers. -/

open Sys2Proof Sys2Proof.Machine


/-! ### The synthesizers -/

/-- LOCK (R658, R667, R673): a synthesizer that is neither OFF nor LOCKED becomes LOCKED, its output runs, its bit of the map of
locked synthesizers and its flag are set, event 848 + syn is raised; out of HOLDOVER the return of the reference is flagged
too. One that is OFF or LOCKED stays as it is.

REF_LOST and UNLOCK (R659, R660, R673, R243): a running synthesizer whose reference is lost goes to HOLDOVER and keeps
running, one whose lock is lost goes to UNLOCKED and is gated; a hop under way ends. UNLOCK is counted, and it flags the
stack that synthesizers 73 to 80 serve.

RANGE90 (R665, R666): a locked synthesizer's control word moves. Outside 205 to 3,890 it is flagged, and a reband is marked
pending, but for synthesizer 0, whose time base is flagged and raises event 829.

REF_MODE_WRITE (R658, R663, R664, R670): a write of `SYN_CTL` whose values are in range sets the lock window, LOCK_N and the
hop mode; another reference mode waits for a quiet interval. Under LOCK the write is discarded and flagged, and a value out
of range is. -/
def Obligations.SynthesizersLockHoldAndFollowTheirControl : Prop :=
  (∀ (s : State) (syn : Nat), syn < 85 →
     (s.dev.get (R.SYNS_STATE syn) ≠ 0 → s.dev.get (R.SYNS_STATE syn) ≠ 3 →
       (Instr.lock syn).gives s fun t =>
         t.dev.get (R.SYNS_STATE syn) = 3 ∧ t.dev.get (R.SYNS_GATED syn) = 0 ∧
         t.dev.get (R.SYN_LOCKED_MAP (syn / 32)) = setBit (s.dev.get (R.SYN_LOCKED_MAP (syn / 32))) (syn % 32) ∧
         t.dev.get (R.SYNS_LOCK syn) = 1 ∧ t.dev.pends (848 + syn) = true ∧
         t.dev.get (R.SYNS_REF_BACK syn) = (if s.dev.get (R.SYNS_STATE syn) = 5 then 1 else s.dev.get (R.SYNS_REF_BACK syn)) ∧
         s.Noting [R.SYNS_STATE syn, R.SYNS_GATED syn, R.SYN_LOCKED_MAP (syn / 32), R.SYNS_LOCK syn, R.SYNS_REF_BACK syn] [] t) ∧
     (s.dev.get (R.SYNS_STATE syn) = 0 ∨ s.dev.get (R.SYNS_STATE syn) = 3 → exec (.lock syn) s = .next s)) ∧
  (∀ (s : State) (syn : Nat), syn < 85 →
     (s.dev.get (R.SYNS_STATE syn) ∈ [2, 3, 4] →
       (Instr.refLost syn).gives s fun t =>
         t.dev.get (R.SYNS_STATE syn) = 5 ∧ t.dev.get (R.SYNS_GATED syn) = 0 ∧
         t.dev.get (R.SYN_LOCKED_MAP (syn / 32)) = setBit (s.dev.get (R.SYN_LOCKED_MAP (syn / 32))) (syn % 32) ∧
         t.dev.get (R.SYNS_REF_LOST syn) = 1 ∧ t.dev.pends (848 + syn) = true ∧
         t.dev.time = { s.dev.time with hops := Tab.erase s.dev.time.hops syn } ∧
         s.Noting [R.SYNS_STATE syn, R.SYNS_GATED syn, R.SYN_LOCKED_MAP (syn / 32), R.SYNS_REF_LOST syn] [.time] t) ∧
     (s.dev.get (R.SYNS_STATE syn) ∈ [3, 4] →
       (Instr.unlock syn).gives s fun t =>
         t.dev.get (R.SYNS_STATE syn) = 6 ∧ t.dev.get (R.SYNS_GATED syn) = 1 ∧
         t.dev.get (R.SYN_LOCKED_MAP (syn / 32)) = putBit (s.dev.get (R.SYN_LOCKED_MAP (syn / 32))) (syn % 32) false ∧
         t.dev.get (R.SYNS_UNLOCK syn) = 1 ∧ t.dev.pends (848 + syn) = true ∧
         t.dev.get (R.SYNS_UNLOCK_CNT syn) = (s.dev.get (R.SYNS_UNLOCK_CNT syn) + 1) % 2 ^ 64 ∧
         (∀ k, syn = 73 + k → k < 8 → t.dev.get (R.STK_UNLOCK k) = 1 ∧ t.dev.pends (384 + k) = true) ∧
         t.dev.time = { s.dev.time with hops := Tab.erase s.dev.time.hops syn } ∧
         s.Noting ([R.SYNS_STATE syn, R.SYNS_GATED syn, R.SYN_LOCKED_MAP (syn / 32), R.SYNS_UNLOCK syn, R.SYNS_UNLOCK_CNT syn] ++
           (if 73 ≤ syn ∧ syn ≤ 80 then [R.STK_UNLOCK (syn - 73)] else [])) [.time] t)) ∧
  (∀ (s : State) (syn cw : Nat), syn < 85 → cw < 4096 → s.dev.get (R.SYNS_STATE syn) = 3 →
     (205 ≤ cw → cw ≤ 3890 → (Instr.range90 syn cw).gives s fun t =>
       t.dev.get (R.SYNS_CW_8 syn) = cw ∧ s.Only [R.SYNS_CW_8 syn] [] t) ∧
     (cw < 205 ∨ 3890 < cw → syn ≠ 0 → (Instr.range90 syn cw).gives s fun t =>
       t.dev.get (R.SYNS_CW_8 syn) = cw ∧ t.dev.get (R.SYNS_RANGE90 syn) = 1 ∧ t.dev.get (R.SYNS_PEND syn) = 1 ∧
       t.dev.get (R.SYN_PEND_MAP (syn / 32)) = setBit (s.dev.get (R.SYN_PEND_MAP (syn / 32))) (syn % 32) ∧
       t.dev.pends (848 + syn) = true ∧
       s.Noting [R.SYNS_CW_8 syn, R.SYNS_RANGE90 syn, R.SYNS_PEND syn, R.SYN_PEND_MAP (syn / 32)] [] t) ∧
     (cw < 205 ∨ 3890 < cw → syn = 0 → (Instr.range90 syn cw).gives s fun t =>
       t.dev.get (R.SYNS_CW_8 0) = cw ∧ t.dev.get (R.SYNS_RANGE90 0) = 1 ∧ t.dev.get R.TB_RANGE90 = 1 ∧
       t.dev.pends 848 = true ∧ t.dev.pends 829 = true ∧
       s.Noting [R.SYNS_CW_8 0, R.SYNS_RANGE90 0, R.TB_RANGE90] [] t)) ∧
  (∀ (s : State) (syn : Nat) (value : BitVec 32), 1 ≤ syn → syn < 85 →
     let win := bits value.toNat 6 0
     let n := bits value.toNat 19 8
     let mode := bits value.toNat 21 20
     let fits := 5 ≤ win ∧ win ≤ 100 ∧ 16 ≤ n ∧ mode ≤ 2 ∧ lockNFits syn mode n = true
     (s.dev.get R.SYN_LOCK = 0 → fits →
       (Instr.refModeWrite syn value).gives s fun t =>
         t.dev.get (R.SYNS_LOCK_WIN syn) = win ∧ t.dev.get (R.SYNS_LOCK_N syn) = n ∧
         t.dev.get (R.SYNS_HOP_LIVE syn) = bit value.toNat 22 ∧
         t.dev.time = (if mode = s.dev.refModeOf syn then s.dev.time else
           { s.dev.time with refModePend := Tab.set s.dev.time.refModePend syn mode }) ∧
         s.Only [R.SYNS_LOCK_WIN syn, R.SYNS_LOCK_N syn, R.SYNS_HOP_LIVE syn] [.time] t) ∧
     (s.dev.get R.SYN_LOCK = 0 → ¬ fits →
       (Instr.refModeWrite syn value).gives s fun t =>
         t.dev.get R.SYN_WRANGE = 1 ∧ t.dev.pends 830 = true ∧ s.Noting [R.SYN_WRANGE] [] t) ∧
     (s.dev.get R.SYN_LOCK = 1 →
       (Instr.refModeWrite syn value).gives s fun t =>
         t.dev.get R.SYN_LOCKVIOL = 1 ∧ t.dev.get R.GLB_LAST_REG_KIND = 1 ∧ t.dev.get R.GLB_LAST_REG_VAL = value.toNat ∧
         t.dev.get R.GLB_LOCKVIOL_CNT = (s.dev.get R.GLB_LOCKVIOL_CNT + 1) % (R.GLB_LOCKVIOL_CNT).size ∧ s.Noting ([R.SYN_LOCKVIOL] ++ violationFields) [.evCfg] t))

/-- HOP (R661, R664, R667): with maintenance enabled and the served ports idle, a hop of a LIVE synthesizer to target 1, 2 or 3
starts and the output runs on; that of a GATED one gates it, LOCKING from a VALID entry and SEARCH without one. Any other
HOP is flagged rejected.

HOP_DONE, FULL_SEARCH and REBAND_DONE (R661, R662, R665, R673): the synthesizer is LOCKED at its new band and control word.
A full search rewrites the target's entry, a hop only one that is not VALID; a reband rewrites that of target 0, ends what
was pending and is counted. -/
def Obligations.HopsSearchesAndRebandsEndInLock : Prop :=
  (∀ (s : State) (syn target : Nat), syn < 85 → target < 4 →
     (1 ≤ target → s.dev.maintOn = true → s.dev.servedIdle syn = true →
       (Instr.hop syn target).gives s fun t =>
         t.dev.get (R.SYNS_STATE syn) =
           (if s.dev.get (R.SYNS_HOP_LIVE syn) = 1 then 4 else if s.dev.get (R.SYNS_VALID syn target) = 1 then 2 else 1) ∧
         t.dev.get (R.SYNS_GATED syn) = (if s.dev.get (R.SYNS_HOP_LIVE syn) = 1 then 0 else 1) ∧
         t.dev.get (R.SYN_LOCKED_MAP (syn / 32)) =
           putBit (s.dev.get (R.SYN_LOCKED_MAP (syn / 32))) (syn % 32) (decide (s.dev.get (R.SYNS_HOP_LIVE syn) = 1)) ∧
         t.dev.time = { s.dev.time with hops := Tab.set s.dev.time.hops syn (target, false) } ∧
         s.Only [R.SYNS_STATE syn, R.SYNS_GATED syn, R.SYN_LOCKED_MAP (syn / 32)] [.time] t) ∧
     (target = 0 ∨ s.dev.maintOn = false ∨ s.dev.servedIdle syn = false →
       (Instr.hop syn target).gives s fun t =>
         t.dev.get R.SYN_CMD_REJ = 1 ∧ t.dev.pends 828 = true ∧ s.Noting [R.SYN_CMD_REJ] [] t)) ∧
  (∀ (s : State) (syn band cw tj : Nat), syn < 85 → band < 64 → cw < 4096 → tj < 256 →
     let hop := Tab.get? s.dev.time.hops syn
     let target := (hop.map Prod.fst).getD (s.dev.get (R.SYNS_TARGET_8 syn))
     let entry := [R.SYNS_BAND_20 syn target, R.SYNS_CW_20 syn target, R.SYNS_VALID syn target, R.SYNS_TJ syn target]
     let lands (t : State) : Prop :=
       t.dev.get (R.SYNS_STATE syn) = 3 ∧ t.dev.get (R.SYNS_GATED syn) = 0 ∧
       t.dev.get (R.SYN_LOCKED_MAP (syn / 32)) = setBit (s.dev.get (R.SYN_LOCKED_MAP (syn / 32))) (syn % 32) ∧
       t.dev.get (R.SYNS_BAND_8 syn) = band ∧ t.dev.get (R.SYNS_CW_8 syn) = cw ∧ t.dev.pends (848 + syn) = true ∧
       t.dev.time = { s.dev.time with hops := Tab.erase s.dev.time.hops syn }
     let regs := [R.SYNS_STATE syn, R.SYNS_GATED syn, R.SYN_LOCKED_MAP (syn / 32), R.SYNS_BAND_8 syn, R.SYNS_CW_8 syn]
     (s.dev.get (R.SYNS_STATE syn) ∈ [1, 2, 4] →
       (Instr.hopDone syn band cw tj).gives s fun t =>
         lands t ∧ t.dev.get (R.SYNS_LOCK syn) = 1 ∧ t.dev.get (R.SYNS_HOP_DONE syn) = 1 ∧
         t.dev.get (R.SYNS_TARGET_8 syn) = target % 4 ∧
         s.Noting (regs ++ [R.SYNS_TARGET_8 syn, R.SYNS_LOCK syn, R.SYNS_HOP_DONE syn] ++
           (if s.dev.get (R.SYNS_VALID syn target) = 1 then [] else entry)) [.time] t) ∧
     (s.dev.get (R.SYNS_STATE syn) ≠ 0 →
       (Instr.fullSearch syn band cw tj).gives s fun t =>
         lands t ∧ t.dev.get (R.SYNS_LOCK syn) = 1 ∧ t.dev.get (R.SYNS_SEARCH syn) = 1 ∧
         t.dev.get (R.SYNS_TARGET_8 syn) = target % 4 ∧
         t.dev.get (R.SYNS_BAND_20 syn target) = band ∧ t.dev.get (R.SYNS_CW_20 syn target) = cw ∧
         t.dev.get (R.SYNS_VALID syn target) = 1 ∧ t.dev.get (R.SYNS_TJ syn target) = tj ∧
         t.dev.get (R.SYNS_HOP_DONE syn) = (if hop.isSome then 1 else s.dev.get (R.SYNS_HOP_DONE syn)) ∧
         s.Noting (regs ++ [R.SYNS_TARGET_8 syn, R.SYNS_LOCK syn, R.SYNS_SEARCH syn, R.SYNS_HOP_DONE syn] ++ entry) [.time] t) ∧
     (hop.isSome = true → 848 + syn ∉ s.dev.ev.once →
       (Instr.rebandDone syn band cw tj).gives s fun t =>
         lands t ∧ t.dev.get (R.SYNS_PEND syn) = 0 ∧ t.dev.get (R.SYNS_REBAND syn) = 1 ∧
         t.dev.get (R.SYN_PEND_MAP (syn / 32)) = putBit (s.dev.get (R.SYN_PEND_MAP (syn / 32))) (syn % 32) false ∧
         t.dev.get (R.SYNS_BAND_20 syn 0) = band ∧ t.dev.get (R.SYNS_CW_20 syn 0) = cw ∧
         t.dev.get (R.SYNS_VALID syn 0) = 1 ∧ t.dev.get (R.SYNS_TJ syn 0) = tj ∧
         t.dev.get (R.SYNS_REBAND_CNT syn) = (s.dev.get (R.SYNS_REBAND_CNT syn) + 1) % 2 ^ 64 ∧
         s.Noting (regs ++ [R.SYNS_PEND syn, R.SYN_PEND_MAP (syn / 32), R.SYNS_REBAND syn, R.SYNS_REBAND_CNT syn,
           R.SYNS_BAND_20 syn 0, R.SYNS_CW_20 syn 0, R.SYNS_VALID syn 0, R.SYNS_TJ syn 0]) [.time] t))

/-! ### Time -/

/-- Steps (R652): a step is the multiple of 1,024 ns nearest to what is asked, halves rounded toward zero, and leaves at most
512 ns.

STEP (R651 to R654): with the source FREE, function 0 or the banker steps device time to `TIME_SET`: at once where no snake
is in RUN or RECOVER or a quiet interval stands, by the jump of R652 with the remainder left to slew, and in the next quiet
interval otherwise. The turn counter stays. -/
def Obligations.DeviceTimeStepsByMultiplesOf1024 : Prop :=
  (∀ x : Int, ∃ m : Int, stepJump x = 1024 * m ∧ (x - stepJump x).natAbs ≤ 512 ∧ (stepJump x).natAbs ≤ x.natAbs + 511) ∧
  (∀ (s : State) (req : Nat), req < 33 → fullAccess req = true → s.dev.get R.TB_SRC = 0 →
     let delta := s.dev.timeSetNs - s.dev.devNs
     let rest := delta - stepJump delta
     (s.dev.anySnakeUp = false ∨ s.dev.inQuiet = true →
       (Instr.step req).gives s fun t =>
         t.dev.time = { s.dev.time with
           dev := ((s.dev.time.dev : Int) + stepJump delta * 100).toNat
           step := none
           stepped := true
           pend := if rest = 0 then none else some (.slew rest true) } ∧
         t.dev.get R.TB_STEP_CNT = (s.dev.get R.TB_STEP_CNT + 1) % (R.TB_STEP_CNT).size ∧
         t.dev.get R.TB_STEPPED = 1 ∧ t.dev.pends 819 = true ∧
         t.dev.get R.TB_CMD_PEND = (if rest = 0 then 0 else 1) ∧
         (rest = 0 → t.dev.get R.TB_CMD_DONE = 1 ∧ t.dev.pends 827 = true) ∧
         s.Noting [R.TB_STEP_CNT, R.TB_STEPPED, R.TB_CMD_PEND, R.TB_CMD_DONE] [.time] t) ∧
     (s.dev.anySnakeUp = true → s.dev.inQuiet = false →
       (Instr.step req).gives s fun t =>
         t.dev.time = { s.dev.time with
           step := some (delta, true)
           pend := none } ∧
         t.dev.get R.TB_CMD_PEND = 1 ∧ s.Only [R.TB_CMD_PEND] [.time] t))

/-- SLEW, AT_SECOND and their completion (R651): with the source FREE the command is pending, replacing another; a slew that
ends completes it; at the second that an AT_SECOND written 1 µs before or earlier waits for, device time steps to its
seconds.

TIME_CMD is turned away (R651, R678): a command while the source is not FREE, or an AT_SECOND with nanoseconds set, is
flagged rejected; one of a virtual function does nothing. -/
def Obligations.SlewAndAtSecondRunUnlessRejected : Prop :=
  (∀ (s : State) (req : Nat), req < 33 → fullAccess req = true →
     (s.dev.get R.TB_SRC = 0 →
       (Instr.slew req).gives s fun t =>
         t.dev.time = { s.dev.time with
           pend := some (.slew (signed 64 (s.dev.get R.TB_TIME_SET_NS + s.dev.get R.TB_TIME_SET_SEC_LO * 2 ^ 32)) true) } ∧
         t.dev.get R.TB_CMD_PEND = 2 ∧ s.Only [R.TB_CMD_PEND] [.time] t) ∧
     (s.dev.get R.TB_SRC = 0 → s.dev.get R.TB_TIME_SET_NS = 0 →
       (Instr.atSecond req).gives s fun t =>
         t.dev.time = { s.dev.time with
           pend := some (.atSecond (s.dev.get R.TB_TIME_SET_SEC_LO + s.dev.get R.TB_TIME_SET_SEC_HI * 2 ^ 32) s.dev.time.dev) } ∧
         t.dev.get R.TB_CMD_PEND = 3 ∧ s.Only [R.TB_CMD_PEND] [.time] t) ∧
     (∀ rest, s.dev.time.pend = some (.slew rest true) →
       Instr.slewDone.gives s fun t =>
         t.dev.time = { s.dev.time with pend := none } ∧ t.dev.get R.TB_CMD_PEND = 0 ∧ t.dev.get R.TB_CMD_DONE = 1 ∧
         t.dev.pends 827 = true ∧ s.Noting [R.TB_CMD_PEND, R.TB_CMD_DONE] [.time] t) ∧
     (∀ sec written, s.dev.time.pend = some (.atSecond sec written) → (s.dev.anySnakeUp = false ∨ s.dev.inQuiet = true) →
       written + 100000 ≤ (s.dev.sec + 1) * 100000000000 →
       Instr.secondBoundary.gives s fun t =>
         let delta : Int := ((sec * 1000000000 : Nat) : Int) - (((s.dev.sec + 1) * 1000000000 : Nat) : Int)
         t.dev.time.dev = ((((s.dev.sec + 1) * 100000000000 : Nat) : Int) + stepJump delta * 100).toNat ∧
         t.dev.time.turn = s.dev.time.turn ∧ t.dev.pends 819 = true ∧
         s.Noting [R.TB_STEP_CNT, R.TB_STEPPED, R.TB_CMD_PEND, R.TB_CMD_DONE] [.time] t) ∧
     (s.dev.time.pend = none →
       Instr.secondBoundary.gives s fun t =>
         t.dev.time = { s.dev.time with
           dev := s.dev.time.dev + ((s.dev.sec + 1) * 100000000000 - s.dev.time.dev)
           now := s.dev.time.now + ((s.dev.sec + 1) * 100000000000 - s.dev.time.dev) } ∧
         s.Only [] [.time] t)) ∧
  (∀ (s : State) (req : Nat), req < 33 →
     (fullAccess req = true → s.dev.get R.TB_SRC ≠ 0 → ∀ c ∈ [Instr.step req, Instr.slew req, Instr.atSecond req],
       c.gives s fun t => t.dev.get R.TB_CMD_REJ = 1 ∧ t.dev.pends 828 = true ∧ s.Noting [R.TB_CMD_REJ] [] t) ∧
     (fullAccess req = true → s.dev.get R.TB_TIME_SET_NS ≠ 0 →
       (Instr.atSecond req).gives s fun t =>
         t.dev.get R.TB_CMD_REJ = 1 ∧ t.dev.pends 828 = true ∧ s.Noting [R.TB_CMD_REJ] [] t) ∧
     (fullAccess req = false → ∀ c ∈ [Instr.step req, Instr.slew req, Instr.atSecond req], exec c s = .next s))

/-- PTP (R644 to R646): an Announce on a port and domain in use joins the foreign masters, of which the best is grandmaster; a
two-step Sync of the grandmaster is counted and its time kept for the Follow_Up; the answer to a Delay_Req gives the path
delay; and a failure forgets the grandmaster, raises event 817, and enters HOLDOVER where PTP steers. -/
def Obligations.PtpMessagesAndFailure : Prop :=
  ∀ (s : State) (port : Nat), port < 10 →
    (∀ dom a, s.dev.ptpTakes port dom = true →
      (Instr.ptpMessage port (.announce dom a)).gives s fun t =>
        t.dev.time.foreign = (⟨port, a⟩ : Foreign) ::
          s.dev.time.foreign.filter (fun g => !(g.port == port && g.data.gmId == a.gmId)) ∧
        t.dev.time.gm = bestForeign t.dev.time.foreign ∧
        (∀ g, bestForeign t.dev.time.foreign = some g → t.dev.get R.TB_GM_ID = g.data.gmId.toNat) ∧
        s.Noting [R.TB_GM_ID, R.TB_PTP_PORT, R.TB_SYNC, R.TB_HOLD_CNT, R.TB_HOLDOVER] [.time] t) ∧
    (∀ dom id origin rx, s.dev.ptpTakes port dom = true → s.dev.fromMaster port id = true →
      (Instr.ptpMessage port (.sync dom id true origin rx)).gives s fun t =>
        t.dev.get R.TB_SYNC_CNT = (s.dev.get R.TB_SYNC_CNT + 1) % (R.TB_SYNC_CNT).size ∧
        t.dev.time = { s.dev.time with syncRx := some rx } ∧ s.Only [R.TB_SYNC_CNT] [.time] t) ∧
    (∀ dom id rx t1 t2 t3, s.dev.ptpTakes port dom = true → s.dev.fromMaster port id = true →
      s.dev.time.lastT = some (t1, t2) → Tab.get? s.dev.time.delayTx port = some t3 →
      (Instr.ptpMessage port (.delayResp dom id rx)).gives s fun t =>
        t.dev.get R.TB_PATH_NS = unsigned 32 ((((t2 : Int) - t1) + ((rx : Int) - t3)) / 2) % (R.TB_PATH_NS).size ∧
        s.Only [R.TB_PATH_NS] [] t) ∧
    (Instr.ptpFail.gives s fun t =>
      t.dev.time.foreign = [] ∧ t.dev.time.gm = none ∧ t.dev.pends 817 = true ∧
      (s.dev.get R.TB_SRC = 1 → s.dev.get R.TB_SYNC = 1 ∨ s.dev.get R.TB_SYNC = 2 →
        t.dev.get R.TB_SYNC = 3 ∧ t.dev.get R.TB_HOLDOVER = 1 ∧ t.dev.pends 824 = true ∧
        t.dev.get R.TB_HOLD_CNT = (s.dev.get R.TB_HOLD_CNT + 1) % (R.TB_HOLD_CNT).size) ∧
      (s.dev.get R.TB_SRC ≠ 1 → t.dev.get R.TB_SYNC = s.dev.get R.TB_SYNC) ∧
      s.Noting [R.TB_SYNC, R.TB_HOLD_CNT, R.TB_HOLDOVER] [.time] t) ∧
    (tbit s.dev.ptpPorts port = true → (2 ≤ port ∨ s.dev.ipAddr port ≠ 0) →
      (Instr.delayReq port).gives s fun t =>
        t.dev.out = .delayReq port :: s.dev.out ∧
        t.dev.time = { s.dev.time with delayTx := Tab.set s.dev.time.delayTx port s.dev.devNs } ∧ s.Only [] [.time, .out] t)

/-- The genlock inputs (R648): in FRAME mode the QUAL_N-th edge running within tolerance qualifies an input, and the third
outside it, or missing, running disqualifies it; F10M mode takes windows of 10 ms within REF_PPM of 100,000 cycles alike.

HOLD_60S and the reads of time (R650, R673): HOLDOVER of 60 s raises event 826; a read of `TIME_NS` answers the nanoseconds
of device time and keeps its seconds for that requester alone. -/
def Obligations.ReferenceInputsAndHoldover : Prop :=
  (∀ (s : State) (input : Nat), input < 2 → s.dev.get R.TB_SRC ≠ 2 + input →
     let r := s.dev.refIn input
     let qualifies (t : State) : Prop :=
       t.dev.get (refQ input) = 1 ∧ t.dev.pends (820 + 2 * input) = true ∧
       t.dev.time = { s.dev.time with refs := Tab.set s.dev.time.refs input { r with
         good := r.good + 1
         bad := 0 } } ∧
       s.Noting [refQ input] [.time] t
     let fails (t : State) : Prop :=
       t.dev.get (refQ input) = 0 ∧ t.dev.pends (821 + 2 * input) = true ∧
       t.dev.get R.TB_DISQ_CNT = (s.dev.get R.TB_DISQ_CNT + 1) % (R.TB_DISQ_CNT).size ∧
       t.dev.time = { s.dev.time with refs := Tab.set s.dev.time.refs input { r with
         good := 0
         bad := 0 } } ∧
       s.Noting [refQ input, R.TB_DISQ_CNT] [.time] t
     (s.dev.get (refQ input) = 0 → s.dev.qualN input ≤ r.good + 1 →
       (∀ err width, s.dev.refMode input = 1 → err.natAbs ≤ s.dev.refTol input → 100 ≤ width →
         (Instr.refInEdge input err width).gives s qualifies) ∧
       (∀ cycles : Nat, s.dev.refMode input = 2 → ((cycles : Int) - 100000).natAbs * 10 ≤ s.dev.refPpm input →
         (Instr.refWindowEnd input cycles).gives s qualifies)) ∧
     (s.dev.get (refQ input) = 1 → 2 ≤ r.bad →
       (∀ err width, s.dev.refMode input = 1 → s.dev.refTol input < err.natAbs ∨ width < 100 →
         (Instr.refInEdge input err width).gives s fails) ∧
       (∀ cycles : Nat, s.dev.refMode input = 2 → s.dev.refPpm input < ((cycles : Int) - 100000).natAbs * 10 →
         (Instr.refWindowEnd input cycles).gives s fails) ∧
       (s.dev.refMode input = 1 → (Instr.refEdgeMissing input).gives s fails)) ∧
     (s.dev.get (refQ input) = 1 → s.dev.refMode input = 2 → (Instr.refEdgeMissing input).gives s fails)) ∧
  (∀ (s : State) (req : Nat), req < 33 →
     (s.dev.get R.TB_SYNC = 3 → Instr.hold60s.gives s fun t => t.dev.pends 826 = true ∧ s.Noting [] [] t) ∧
     ((Instr.timeNsRead req false).gives s fun t =>
       t.dev.acc = { s.dev.acc with readData := s.dev.devNs % 1000000000 } ∧
       Tab.get? t.dev.time.shadow req = some (s.dev.devNs / 1000000000) ∧
       (∀ r, r ≠ req → Tab.get? t.dev.time.shadow r = Tab.get? s.dev.time.shadow r) ∧
       t.dev.time = { s.dev.time with shadow := t.dev.time.shadow } ∧ s.Only [] [.time, .acc] t) ∧
     ((Instr.timeNsRead req true).gives s fun t =>
       t.dev.acc = { s.dev.acc with readData := s.dev.nextPresNs % 1000000000 } ∧
       Tab.get? t.dev.time.shadowPres req = some (s.dev.nextPresNs / 1000000000) ∧
       (∀ r, r ≠ req → Tab.get? t.dev.time.shadowPres r = Tab.get? s.dev.time.shadowPres r) ∧
       t.dev.time = { s.dev.time with shadowPres := t.dev.time.shadowPres } ∧ s.Only [] [.time, .acc] t))

/-! ### The event controller and the PCI Express link -/

/-- PEND_CLEAR (R747): the bits of a word of `PEND` that function 0 or the banker writes as 1 are cleared and the others stay; a
virtual function changes nothing.

An event is raised (R746, R753, R757): whatever the masks, its bit of `PEND` is set; with deliveries enabled to an event
ring alone, outside a holdoff and with none set, its record is written at TAIL, TAIL moves on, and PHASE turns over with it.
The event is 41, which AER_ERROR raises. -/
def Obligations.EventsArePendingAndRecorded : Prop :=
  (∀ (s : State) (req word : Nat) (value : BitVec 32), req < 33 → word < 32 →
     (fullAccess req = true →
       (Instr.pendClear req word value).gives s fun t =>
         (∀ i, i < 32 → t.dev.pends (32 * word + i) = (s.dev.pends (32 * word + i) && !value.getLsbD i)) ∧
         s.Only [R.EV_PEND word] [] t) ∧
     (fullAccess req = false → exec (.pendClear req word value) s = .next s)) ∧
  (∀ s : State,
     (Instr.aerError true).gives s fun t =>
       t.dev.pends 41 = true ∧ (∀ e, e < 1024 → s.dev.pends e = true → t.dev.pends e = true) ∧ s.Noting [] [] t ∧
       (let r := s.dev.get (R.EVC_RING 41)
        let size := 2 ^ s.dev.get (R.ERING_SIZE_LOG2 r)
        let tail := s.dev.get (R.ERING_TAIL r)
        s.dev.get R.EV_EN = 1 → s.dev.get (R.EVC_EN 41) = 1 → s.dev.get (R.EVC_MSI_EN 41) = 0 →
        s.dev.get (R.EVC_RING_EN 41) = 1 → s.dev.get (R.EVC_BANKER 41) = 0 → s.dev.get (R.EVC_HOLDOFF 41) = 0 →
        Tab.get? s.dev.ev.holds 41 = none → s.dev.get (R.ERING_EN r) = 1 → s.dev.get (R.ERING_IRQ_EN r) = 0 →
        (tail + 1) % size ≠ s.dev.get (R.ERING_HEAD r) →
        t.dev.out = .hostWrite 0 (s.dev.eringBase r + 16 * tail)
          ((⟨41, 1, s.dev.time.turn % 2 ^ 32, 0, s.dev.nsec, false⟩ : EvRec).bytes (s.dev.get (R.ERING_PHASE r))
            (if r ∈ s.dev.ev.loss then 1 else 0)) :: s.dev.out ∧
        t.dev.get (R.ERING_TAIL r) = (tail + 1) % size % 2 ^ 16 ∧
        (tail + 1 < size → t.dev.get (R.ERING_PHASE r) = s.dev.get (R.ERING_PHASE r)) ∧
        (tail + 1 = size → t.dev.get (R.ERING_PHASE r) = 1 - s.dev.get (R.ERING_PHASE r))))

/-- EVENT_HOLDOFF_END (R749): a holdoff that collected raises makes one delivery for all, which opens the next where a holdoff
is still set; one that collected none, or that ends under a mask, ends the coalescing.

COAL_TIMEOUT (R704, R751, R756): entries written since the last signal are signalled, on a vector that is enabled and not
masked, and the count starts over; a masked vector is kept pending and one of a function without MSI-X is dropped. -/
def Obligations.HoldoffsAndCoalescingEndInOneSignal : Prop :=
  (∀ (s : State) (event : Nat) (h : Hold), event < 1024 → Tab.get? s.dev.ev.holds event = some h →
     (h.count ≠ 0 → s.dev.get R.EV_EN = 1 → s.dev.get (R.EVC_EN event) = 1 →
       (Instr.eventHoldoffEnd event).gives s fun t =>
         t.dev.get R.EV_DELIVERED = (s.dev.get R.EV_DELIVERED + 1) % (R.EV_DELIVERED).size ∧
         Tab.get? t.dev.ev.holds event = (if s.dev.get (R.EVC_HOLDOFF event) = 0 then none else some ⟨0, 0, 0, 0⟩) ∧
         s.Noting [] [] t) ∧
     (h.count = 0 ∨ s.dev.get R.EV_EN = 0 ∨ s.dev.get (R.EVC_EN event) = 0 →
       (Instr.eventHoldoffEnd event).gives s fun t =>
         t.dev.ev = { s.dev.ev with holds := Tab.erase s.dev.ev.holds event } ∧ s.Only [] [.events] t)) ∧
  (∀ (s : State) (c : Nat), c < 256 → s.dev.get (R.CQ_IRQ_EN c) = 1 → s.dev.get (R.CQ_COAL_US c) ≠ 0 →
     Tab.getD s.dev.q.since c 0 ≠ 0 →
     (Instr.coalTimeout (.completion c)).gives s fun t =>
       let fn := c / 8
       let vec := s.dev.get (R.CQ_VEC c)
       t.dev.q = { s.dev.q with since := Tab.set s.dev.q.since c 0 } ∧ s.Noting [] [.q] t ∧
       (s.dev.fnEnabled fn = true → fn ∈ s.dev.ev.msixEn → fn ∈ s.dev.ev.busMaster → fn ∉ s.dev.ev.msixMask →
         fn * 2048 + vec ∈ s.dev.ev.unmasked → t.dev.out = .msix fn vec :: s.dev.out ∧ t.dev.ev = s.dev.ev) ∧
       (s.dev.fnEnabled fn = true → fn ∈ s.dev.ev.msixEn → fn ∈ s.dev.ev.busMaster →
         (fn ∈ s.dev.ev.msixMask ∨ fn * 2048 + vec ∉ s.dev.ev.unmasked) →
         fn * 2048 + vec ∈ t.dev.ev.pba ∧ t.dev.out = s.dev.out) ∧
       (s.dev.fnEnabled fn = false ∨ fn ∉ s.dev.ev.msixEn ∨ fn ∉ s.dev.ev.busMaster →
         t.dev.get R.EV_MSI_DROP = 1 ∧ t.dev.out = s.dev.out ∧
         t.dev.get R.EV_MSI_DROP_CNT = (s.dev.get R.EV_MSI_DROP_CNT + 1) % (R.EV_MSI_DROP_CNT).size))

/-- The words of an event ring (R753, R759): HEAD within the ring is taken and one beyond it is flagged; enabling a ring that
was off, at a size of 2^4 to 2^16 and a base on 4,096, empties it with PHASE 1; the base may change while it is off. -/
def Obligations.EventRingWordsAreTakenInRange : Prop :=
  ∀ (s : State) (req ring : Nat) (value : BitVec 32), req < 33 → fullAccess req = true → ring < 32 →
    (bits value.toNat 31 16 < 2 ^ s.dev.get (R.ERING_SIZE_LOG2 ring) →
      (Instr.eventRingHeadWrite req ring value).gives s fun t =>
        t.dev.get (R.ERING_HEAD ring) = bits value.toNat 31 16 ∧ s.Only [R.ERING_HEAD ring] [] t) ∧
    (2 ^ s.dev.get (R.ERING_SIZE_LOG2 ring) ≤ bits value.toNat 31 16 →
      (Instr.eventRingHeadWrite req ring value).gives s fun t => t.dev.get R.EV_WRANGE = 1 ∧
        t.dev.get (R.ERING_HEAD ring) = s.dev.get (R.ERING_HEAD ring) ∧ s.Noting [] [] t) ∧
    (s.dev.get (R.ERING_EN ring) = 0 →
      (Instr.eventRingConfigWrite req ring 0 value).gives s fun t =>
        t.dev.get (R.ERING_BASE_LO ring) = value.toNat ∧ s.Only [R.ERING_BASE_LO ring] [] t) ∧
    (s.dev.get (R.ERING_EN ring) = 0 → s.dev.get (R.ERING_BASE_LO ring) % 4096 = 0 → bits value.toNat 5 5 = 1 →
      4 ≤ bits value.toNat 4 0 → bits value.toNat 4 0 ≤ 16 →
      (Instr.eventRingConfigWrite req ring 8 value).gives s fun t =>
        t.dev.get (R.ERING_SIZE_LOG2 ring) = bits value.toNat 4 0 ∧ t.dev.get (R.ERING_EN ring) = 1 ∧
        t.dev.get (R.ERING_IRQ_EN ring) = bits value.toNat 6 6 ∧ t.dev.get (R.ERING_VEC ring) = bits value.toNat 17 7 ∧
        t.dev.get (R.ERING_TAIL ring) = 0 ∧ t.dev.get (R.ERING_HEAD ring) = 0 ∧ t.dev.get (R.ERING_PHASE ring) = 1 ∧
        s.Only [R.ERING_SIZE_LOG2 ring, R.ERING_EN ring, R.ERING_IRQ_EN ring, R.ERING_VEC ring, R.ERING_TAIL ring,
          R.ERING_HEAD ring, R.ERING_PHASE ring] [.events] t) ∧
    (1 ≤ bits value.toNat 8 0 → bits value.toNat 8 0 ≤ 256 → bits value.toNat 18 9 ≤ 1000 →
      (Instr.eventRingConfigWrite req ring 0xC value).gives s fun t =>
        t.dev.get (R.ERING_COAL_N ring) = bits value.toNat 8 0 ∧ t.dev.get (R.ERING_COAL_US ring) = bits value.toNat 18 9 ∧
        s.Only [R.ERING_COAL_N ring, R.ERING_COAL_US ring] [] t)

/-- The PCI Express link (R710, R714, R715, R867): training brings the link up at its speed and width and raises event 32 where
it was down; its loss, and PCIE_PERST_N, bring it down, raise event 32 and disable every queue and completion ring;
PCIE_PERST_N also puts configuration space back.

FLR (R709): a function-level reset disables every queue and completion ring of the function, discards its started entries
without completions, clears its MSI-X table, raises event 33, and leaves every channel; that of function 0 clears VF Enable.

CONFIGURATION_SPACE_WRITE (R676, R751): NumVFs of 0 to 31 is taken and a larger one is not; VF Enable, Bus Master Enable and
the MSI-X enables and masks take what is written. -/
def Obligations.TheLinkItsResetsAndConfigurationSpace : Prop :=
  (∀ s : State,
     (∀ speed width, 1 ≤ speed → speed ≤ 6 → 1 ≤ width → width ≤ 16 →
       (Instr.pcieLinkUp speed width).gives s fun t =>
         t.dev.get R.QB_LINK_UP = 1 ∧ t.dev.get R.QB_SPEED = speed ∧ t.dev.get R.QB_WIDTH = width ∧
         t.dev.pwr = { s.dev.pwr with perst := false } ∧ (s.dev.get R.QB_LINK_UP = 0 → t.dev.pends 32 = true) ∧
         s.Noting [R.QB_LINK_UP, R.QB_SPEED, R.QB_WIDTH] [.pwr] t) ∧
     (s.dev.get R.QB_LINK_UP = 1 →
       let down (t : State) : Prop :=
         t.dev.get R.QB_LINK_UP = 0 ∧ t.dev.get R.QB_SPEED = 0 ∧ t.dev.get R.QB_WIDTH = 0 ∧ t.dev.get R.QB_LINK_DOWN = 1 ∧
         t.dev.pends 32 = true ∧ (∀ q, q < 1032 → t.dev.get (qEN q) = 0) ∧ (∀ c, c < 256 → t.dev.get (R.CQ_EN c) = 0) ∧
         t.dev.q.owed = []
       let regs := (List.range 32).flatMap functionFields ++ [R.QB_LINK_UP, R.QB_SPEED, R.QB_WIDTH, R.QB_LINK_DOWN]
       (Instr.pcieLinkLoss.gives s fun t => down t ∧ s.Noting regs [.q] t) ∧
       (Instr.pciePerst.gives s fun t =>
         down t ∧ t.dev.get R.QB_NUM_VFS = 0 ∧ t.dev.ev.vfEnable = false ∧ t.dev.ev.msixEn = [] ∧
         t.dev.ev.busMaster = [] ∧ t.dev.pwr = { s.dev.pwr with perst := true } ∧
         s.Noting (regs ++ [R.QB_NUM_VFS]) [.q, .pwr, .evCfg] t))) ∧
  (∀ (s : State) (fn : Nat), fn < 32 →
     (Instr.flr fn).gives s fun t =>
       (∀ q ∈ queuesOf fn, t.dev.get (qEN q) = 0) ∧ (∀ c ∈ ringsOf fn, t.dev.get (R.CQ_EN c) = 0) ∧
       t.dev.q.owed = s.dev.q.owed.filter (fun o => queueFn o.queue ≠ fn) ∧
       fn ∉ t.dev.ev.msixEn ∧ (∀ v, v < 2048 → fn * 2048 + v ∉ t.dev.ev.unmasked) ∧
       t.dev.ev.vfEnable = (if fn = 0 then false else s.dev.ev.vfEnable) ∧
       t.dev.get R.QB_FLR = 1 ∧ t.dev.pends 33 = true ∧ t.dev.ch = s.dev.ch ∧
       s.Noting (functionFields fn ++ [R.QB_FLR]) [.q, .evCfg] t) ∧
  (∀ (s : State) (fn : Nat) (on : Bool), fn < 32 →
     (∀ n, n ≤ 31 → (Instr.configurationSpaceWrite (.numVfs n)).gives s fun t =>
       t.dev.get R.QB_NUM_VFS = n ∧ s.Only [R.QB_NUM_VFS] [] t) ∧
     (∀ n, 31 < n → exec (.configurationSpaceWrite (.numVfs n)) s = .next s) ∧
     ((Instr.configurationSpaceWrite (.vfEnable on)).gives s fun t =>
       t.dev.ev = { s.dev.ev with vfEnable := on } ∧ s.Only [] [.events, .evCfg] t) ∧
     ((Instr.configurationSpaceWrite (.busMaster fn on)).gives s fun t =>
       (fn ∈ t.dev.ev.busMaster ↔ on = true) ∧ (∀ g, g ≠ fn → (g ∈ t.dev.ev.busMaster ↔ g ∈ s.dev.ev.busMaster)) ∧
       s.Only [] [.events, .evCfg] t) ∧
     ((Instr.configurationSpaceWrite (.msixEnable fn on)).gives s fun t =>
       (fn ∈ t.dev.ev.msixEn ↔ on = true) ∧ (∀ g, g ≠ fn → (g ∈ t.dev.ev.msixEn ↔ g ∈ s.dev.ev.msixEn)) ∧
       s.Noting [] [.evCfg] t) ∧
     (∀ vec, vec < 2048 → (Instr.configurationSpaceWrite (.msixVectorMask fn vec on)).gives s fun t =>
       (fn * 2048 + vec ∈ t.dev.ev.unmasked ↔ on = false) ∧ s.Noting [] [.evCfg] t) ∧
     exec (.configurationSpaceWrite (.other fn)) s = .next s)

/-! ### Register access -/

/-- Reads of registers (R717, R719 to R723): a read of the status register of the synthesizer block answers its bits and clears
them, but for the banker, who clears nothing; a read of the low word of a 64-bit counter keeps the high word of the same
instant for that requester, and a read of the high word then answers it; an offset that no block lists reads as 0. -/
def Obligations.RegisterReadsClearAndShadow : Prop :=
  ∀ (s : State) (req : Nat), req < 33 → fullAccess req = true →
    ((Instr.rcRead req 0xF00008 4).gives s fun t =>
      let fields := [R.SYN_WRANGE, R.SYN_LOCKVIOL, R.SYN_TMR_CORR, R.SYN_TMR_FAIL, R.SYN_CMD_REJ]
      t.dev.acc.readData = s.dev.get R.SYN_WRANGE + 2 * s.dev.get R.SYN_LOCKVIOL + 4 * s.dev.get R.SYN_TMR_CORR +
        8 * s.dev.get R.SYN_TMR_FAIL + 16 * s.dev.get R.SYN_CMD_REJ ∧
      (∀ f ∈ fields, t.dev.get f = if req = 32 then s.dev.get f else 0) ∧ s.Only fields [.acc] t) ∧
    ((Instr.lowWordRead req 0xE00100).gives s fun t =>
      t.dev.acc.readData = s.dev.get R.TB_STEP_CNT % 2 ^ 32 ∧
      Tab.get? t.dev.acc.shadow (shadowKey req 0xE00100) = some (0xE00100, s.dev.get R.TB_STEP_CNT / 2 ^ 32) ∧
      s.Only [] [.acc] t) ∧
    (∀ high, Tab.get? s.dev.acc.shadow (shadowKey req 0xE00100) = some (0xE00100, high) →
      (Instr.rcRead req 0xE00104 4).gives s fun t => t.dev.acc.readData = high ∧ s.Only [] [.acc] t) ∧
    (∀ offset bytes, 0x1300000 ≤ offset → bytes ≤ 8 →
      (Instr.rcRead req offset bytes).gives s fun t => t.dev.acc.readData = 0 ∧ s.Only [] [.acc] t)

/-- Writes of registers (R718, R731, R733): a whole aligned word reaches a RW register, and a RWL one whose LOCK is 0 where its
values are in range; under LOCK it is discarded, flagged and recorded, and out of range it is flagged `WRANGE`. Any other
width or alignment is an access error. A write of 1 to LOCK sets it. -/
def Obligations.RegisterWritesObeyFormLockAndRange : Prop :=
  ∀ (s : State) (req v : Nat), req < 33 → fullAccess req = true → v < 2 ^ 32 →
    let inRange := 1 ≤ bits v 6 0 ∧ bits v 6 0 ≤ 100 ∧ 1 ≤ bits v 27 8 ∧ bits v 27 8 ≤ 1000000
    ((Instr.registerWrite req 0xE00020 v 4).gives s fun t =>
      t.dev.get R.TB_TIME_SET_NS = v ∧ s.Only [R.TB_TIME_SET_NS] [] t) ∧
    (s.dev.get R.TB_LOCK = 0 → inRange →
      (Instr.registerWrite req 0xE00008 v 4).gives s fun t =>
        t.dev.get R.TB_SLEW_PPM = bits v 6 0 ∧ t.dev.get R.TB_STEP_US = bits v 27 8 ∧
        s.Only [R.TB_SLEW_PPM, R.TB_STEP_US] [] t) ∧
    (s.dev.get R.TB_LOCK = 0 → ¬ inRange →
      (Instr.registerWrite req 0xE00008 v 4).gives s fun t =>
        t.dev.get R.TB_WRANGE = 1 ∧ t.dev.pends 830 = true ∧ s.Noting [R.TB_WRANGE] [] t) ∧
    (s.dev.get R.TB_LOCK = 1 →
      (Instr.registerWrite req 0xE00008 v 4).gives s fun t =>
        t.dev.get R.TB_LOCKVIOL = 1 ∧ t.dev.get R.GLB_LAST_REG_KIND = 1 ∧ t.dev.get R.GLB_LAST_REG_VAL = v ∧
        t.dev.get R.GLB_OFFSET = 8 ∧ t.dev.get R.GLB_BLOCK_18 = 14 ∧ t.dev.get R.GLB_REQ = req ∧
        t.dev.get R.GLB_LOCKVIOL_CNT = (s.dev.get R.GLB_LOCKVIOL_CNT + 1) % 2 ^ 64 ∧
        (Tab.getD s.dev.ev.viol 14 0 = 0 → 1006 ∉ s.dev.ev.once → t.dev.pends 1006 = true) ∧
        s.Noting ([R.TB_LOCKVIOL] ++ violationFields) [.evCfg] t) ∧
    ((Instr.lockSet req 0xE00004).gives s fun t => t.dev.get R.TB_LOCK = 1 ∧ s.Only [R.TB_LOCK] [] t) ∧
    (∀ offset bytes value, offset < 0x1300000 → bytes ≤ 8 → value < 256 ^ bytes →
      (bytes ≠ 4 ∧ bytes ≠ 8 ∨ offset % bytes ≠ 0) →
      (Instr.registerWrite req offset value bytes).gives s fun t =>
        t.dev.get R.GLB_ACC_ERR = 1 ∧ t.dev.get R.GLB_LAST_REG_KIND = 2 ∧
        t.dev.get R.GLB_ACC_ERR_CNT = (s.dev.get R.GLB_ACC_ERR_CNT + 1) % 2 ^ 64 ∧
        (1013 ∉ s.dev.ev.once → t.dev.pends 1013 = true) ∧
        s.Noting [R.GLB_ACC_ERR, R.GLB_ACC_ERR_CNT, R.GLB_OFFSET, R.GLB_BLOCK_18, R.GLB_REQ, R.GLB_LAST_REG_VAL,
          R.GLB_LAST_REG_KIND] [] t)

/-- Posted blocks (R726, R727): a write to the fabric block is held behind its gate, a read meanwhile answers the value from
before; another write while one is held is dropped and flagged; the held write is checked and has its effect when it is
applied, and the gate opens.

Snapshots and the scrub of triplicated registers (R655, R736, R737, R740 to R743): a snapshot copies the counters, the turn
and the time of one instant and is refused while one runs; its completion is counted and raises event 2. Where two copies of
a register agree the third takes their value; where none do, the register takes its safe value and the fatal event 1 is
raised. -/
def Obligations.PostedWritesSnapshotsAndScrubs : Prop :=
  (∀ (s : State) (req v : Nat), req < 33 → fullAccess req = true → v < 2 ^ 32 →
     (s.dev.get R.FAB_BUSY = 0 →
       (Instr.registerWrite req 0x40000C v 4).gives s fun t =>
         t.dev.get R.FAB_BUSY = 1 ∧ Tab.get? t.dev.acc.posted 4 = some ⟨req, 0x40000C, v, 4⟩ ∧
         s.Only [R.FAB_BUSY] [.acc] t) ∧
     (s.dev.get R.FAB_BUSY = 1 →
       (Instr.registerWrite req 0x40000C v 4).gives s fun t => t.dev.get R.FAB_WDROP = 1 ∧ s.Only [R.FAB_WDROP] [] t) ∧
     (Tab.get? s.dev.acc.posted 4 = some ⟨req, 0x40000C, v, 4⟩ → s.dev.get R.FAB_LOCK = 0 → 20 ≤ bits v 25 16 →
       bits v 25 16 ≤ 1000 →
       (Instr.postedWriteApply 4).gives s fun t =>
         t.dev.get R.FAB_BUSY = 0 ∧ Tab.get? t.dev.acc.posted 4 = none ∧ t.dev.get R.FAB_STEAL_EN = bit v 0 ∧
         t.dev.get R.FAB_STEAL_XCUP = bit v 1 ∧ t.dev.get R.FAB_HS_TO_US = bits v 25 16 ∧
         s.Only [R.FAB_BUSY, R.FAB_STEAL_EN, R.FAB_STEAL_XCUP, R.FAB_HS_TO_US] [.acc] t)) ∧
  (∀ (s : State) (req : Nat), req < 33 → fullAccess req = true →
     (s.dev.get R.GLB_SNAP_BUSY = 0 →
       (Instr.snap req).gives s fun t =>
         t.dev.get R.GLB_SNAP_BUSY = 1 ∧ t.dev.get R.TB_SNAP_TURN = s.dev.time.turn % 2 ^ 64 ∧
         t.dev.get R.TB_SNAP_NS = s.dev.nsec % 2 ^ 32 ∧ t.dev.get R.TB_SNAP_SEC_LO = s.dev.sec % 2 ^ 32 ∧
         t.dev.get ⟨0xE001A0, 63, 0, 0⟩ = s.dev.get R.TB_STEP_CNT ∧
         s.dev.Only (fun k => isHold (k / 64) || regsOf [R.GLB_SNAP_BUSY, R.TB_SNAP_TURN, R.TB_SNAP_NS, R.TB_SNAP_SEC_LO,
           R.TB_SNAP_SEC_HI] k) [] t.dev ∧ t.hbm = s.hbm ∧ t.pending = s.pending) ∧
     (s.dev.get R.GLB_SNAP_BUSY = 1 →
       ((Instr.snap req).gives s fun t => t.dev.get R.GLB_SNAP_REJ = 1 ∧ s.Only [R.GLB_SNAP_REJ] [] t) ∧
       (Instr.snapDone.gives s fun t =>
         t.dev.get R.GLB_SNAP_SEQ = (s.dev.get R.GLB_SNAP_SEQ + 1) % 2 ^ 64 ∧ t.dev.get R.GLB_SNAP_BUSY = 0 ∧
         t.dev.get R.GLB_SNAP_DONE = 1 ∧ t.dev.pends 2 = true ∧
         s.Noting [R.GLB_SNAP_SEQ, R.GLB_SNAP_BUSY, R.GLB_SNAP_DONE] [] t)) ∧
     (∀ a b : RegWord, a ≠ b →
       (Instr.tmrScrub [⟨0x40000C, a, b, a⟩]).gives s fun t =>
         t.dev.get R.FAB_STEAL_EN = bit a.toNat 0 ∧ t.dev.get R.FAB_STEAL_XCUP = bit a.toNat 1 ∧
         t.dev.get R.FAB_HS_TO_US = bits a.toNat 25 16 ∧ t.dev.get R.FAB_TMR_CORR = 1 ∧
         t.dev.get R.GLB_TMR_CORR_CNT = (s.dev.get R.GLB_TMR_CORR_CNT + 1) % 2 ^ 64 ∧
         (1012 ∉ s.dev.ev.once → t.dev.pends 1012 = true) ∧
         s.Noting [R.FAB_STEAL_EN, R.FAB_STEAL_XCUP, R.FAB_HS_TO_US, R.FAB_TMR_CORR, R.GLB_TMR_CORR_CNT] [] t) ∧
     (∀ a b c : RegWord, a ≠ b → b ≠ c → a ≠ c →
       (Instr.tmrScrub [⟨0x40000C, a, b, c⟩]).gives s fun t =>
         t.dev.get R.FAB_STEAL_EN = 1 ∧ t.dev.get R.FAB_STEAL_XCUP = 1 ∧ t.dev.get R.FAB_HS_TO_US = 100 ∧
         t.dev.get R.FAB_TMR_FAIL = 1 ∧ t.dev.pends 1 = true ∧ t.dev.get R.GLB_LAST_REG_KIND = 3 ∧
         t.dev.get R.GLB_TMR_FAIL_CNT = (s.dev.get R.GLB_TMR_FAIL_CNT + 1) % 2 ^ 64 ∧
         s.Noting [R.FAB_STEAL_EN, R.FAB_STEAL_XCUP, R.FAB_HS_TO_US, R.FAB_TMR_FAIL, R.GLB_TMR_FAIL_CNT, R.GLB_OFFSET,
           R.GLB_BLOCK_18, R.GLB_REQ, R.GLB_LAST_REG_VAL, R.GLB_LAST_REG_KIND] [] t))

/-! ### Queues and completion rings -/

/-- Doorbells (R680, R699, R703): a 4-byte write within the ring of an enabled queue or ring moves its index; any other is
discarded, counted and flagged.

Configuration of queues and rings (R713): a queue or ring that is off takes its base, and starts empty when it is enabled at
a size of 2^4 to 2^16 on a base of 4,096; the base of one that is enabled is flagged `WRANGE`. -/
def Obligations.DoorbellsAndTheConfigurationOfQueues : Prop :=
  (∀ (s : State) (fn queue ring p value bytes : Nat), fn < 32 → queue / 32 = fn → ring / 8 = fn → p < 8 →
     (bytes = 4 → value < 2 ^ s.dev.get (R.SQ_SIZE_LOG2 queue) → s.dev.get (R.SQ_EN queue) = 1 →
       (Instr.sqDoorbell fn queue value bytes).gives s fun t =>
         t.dev.get (R.SQ_DB queue) = value % 2 ^ 16 ∧ s.Only [R.SQ_DB queue] [] t) ∧
     (bytes ≠ 4 ∨ 2 ^ s.dev.get (R.SQ_SIZE_LOG2 queue) ≤ value ∨ s.dev.get (R.SQ_EN queue) = 0 →
       (Instr.sqDoorbell fn queue value bytes).gives s fun t =>
         t.dev.get (R.SQ_DB_ERR queue) = 1 ∧ t.dev.get R.QB_DB_ERR = 1 ∧
         t.dev.get R.QB_DB_ERR_CNT = (s.dev.get R.QB_DB_ERR_CNT + 1) % 2 ^ 64 ∧ (34 ∉ s.dev.ev.once → t.dev.pends 34 = true) ∧
         s.Noting [R.SQ_DB_ERR queue, R.QB_SQ_ERR_MAP (queue / 32), R.QB_DB_ERR, R.QB_DB_ERR_CNT] [] t) ∧
     (bytes = 4 → value < 2 ^ s.dev.get (R.CQ_SIZE_LOG2 ring) → s.dev.get (R.CQ_EN ring) = 1 →
       Tab.getD s.dev.q.held ring [] = [] →
       (Instr.cqHeadDoorbell fn ring value bytes).gives s fun t =>
         t.dev.get (R.CQ_HEAD ring) = value % 2 ^ 16 ∧ s.Only [R.CQ_HEAD ring] [] t) ∧
     (value < 2 ^ s.dev.get (R.PQ_SIZE_LOG2 p) → s.dev.get (R.PQ_EN p) = 1 →
       (Instr.pqPiWrite p value).gives s fun t =>
         t.dev.get (R.PQ_PQ_PI p) = value % 2 ^ 16 ∧ s.Only [R.PQ_PQ_PI p] [] t) ∧
     (2 ^ s.dev.get (R.PQ_SIZE_LOG2 p) ≤ value ∨ s.dev.get (R.PQ_EN p) = 0 →
       (Instr.pqPiWrite p value).gives s fun t =>
         t.dev.get (R.PQ_PI_ERR p) = 1 ∧ t.dev.pends 42 = true ∧ s.Noting [R.PQ_PI_ERR p] [] t)) ∧
  (∀ (s : State) (req q c : Nat) (value : BitVec 32), req < 33 → fullAccess req = true → q < 1032 → c < 256 →
     let size := bits value.toNat 4 0
     (s.dev.get (qEN q) = 0 →
       (Instr.sqCfgWrite req q 0 value).gives s fun t => t.dev.get (qLO q) = value.toNat ∧ s.Only [qLO q] [] t) ∧
     (s.dev.get (R.SQ_EN 0) = 1 → s.dev.get (R.SQ_BASE_LO 0) ≠ value.toNat →
       (Instr.sqCfgWrite req 0 0 value).gives s fun t =>
         t.dev.get (R.SQ_WRANGE 0) = 1 ∧ t.dev.pends 42 = true ∧ s.Noting [R.SQ_WRANGE 0, R.QB_SQ_ERR_MAP 0] [] t) ∧
     (s.dev.get (qEN q) = 0 → s.dev.get (qSTATE q) = 0 → bits value.toNat 8 8 = 1 → 4 ≤ size → size ≤ 16 →
       s.dev.get (qLO q) % 4096 = 0 → s.dev.get (R.CQ_EN (8 * queueFn q + bits value.toNat 7 5)) = 1 →
       (Instr.sqCfgWrite req q 8 value).gives s fun t =>
         t.dev.get (qEN q) = 1 ∧ t.dev.get (qSIZE q) = size ∧ t.dev.get (qCQ q) = bits value.toNat 7 5 ∧
         t.dev.get (qSTATE q) = 1 ∧ t.dev.get (qCI q) = 0 ∧ t.dev.get (qPI q) = 0 ∧
         t.dev.get (qCTIME q) = bits value.toNat 9 9 ∧
         s.Only [qEN q, qSIZE q, qCQ q, qSTATE q, qCI q, qPI q, qCTIME q] [] t) ∧
     (s.dev.get (R.CQ_EN c) = 0 →
       (Instr.cqCfgWrite req c 0 value).gives s fun t =>
         t.dev.get (R.CQ_BASE_LO c) = value.toNat ∧ s.Only [R.CQ_BASE_LO c] [] t) ∧
     (s.dev.get (R.CQ_EN c) = 0 → bits value.toNat 5 5 = 1 → 4 ≤ size → size ≤ 16 → s.dev.get (R.CQ_BASE_LO c) % 4096 = 0 →
       (Instr.cqCfgWrite req c 8 value).gives s fun t =>
         t.dev.get (R.CQ_EN c) = 1 ∧ t.dev.get (R.CQ_SIZE_LOG2 c) = size ∧ t.dev.get (R.CQ_IRQ_EN c) = bits value.toNat 6 6 ∧
         t.dev.get (R.CQ_VEC c) = bits value.toNat 17 7 ∧ t.dev.get (R.CQ_TAIL c) = 0 ∧ t.dev.get (R.CQ_HEAD c) = 0 ∧
         t.dev.get (R.CQ_PHASE c) = 1 ∧
         s.Only [R.CQ_EN c, R.CQ_SIZE_LOG2 c, R.CQ_IRQ_EN c, R.CQ_VEC c, R.CQ_TAIL c, R.CQ_HEAD c, R.CQ_PHASE c] [.q] t))

/-- OWN_POLL and FETCH_ERR (R684, R708): a waiting queue whose head entry is owned by the device goes on; one whose head is not
waits, and after 1 ms is flagged stalled once; a fetch error stops the queue.

An entry that may not start leaves the block as it is, but for the flags of a ring without room (R683, R689, R702); FENCE
waits for the earlier entries of its queue and then completes OK; a CHECK_CREATE whose record is in order takes the lowest
free index with its generation and CSEQ (R104, R106, R437), and DESTROY by its owner lets it retire and completes OK (R108,
R109). -/
def Obligations.QueuesWaitStartAndCompleteEntries : Prop :=
  (∀ (s : State) (q : Nat) (waited : Bool), q < 1024 → s.dev.get (R.SQ_EN q) = 1 → s.dev.get (R.SQ_STATE q) ≠ 3 →
     (s.dev.get (R.SQ_STATE q) = 2 →
       (Instr.ownPoll q true waited).gives s fun t =>
         t.dev.get (R.SQ_STATE q) = 1 ∧ q ∉ t.dev.q.ownStall ∧ s.Only [R.SQ_STATE q] [.q] t) ∧
     ((Instr.ownPoll q false false).gives s fun t => t.dev.get (R.SQ_STATE q) = 2 ∧ s.Only [R.SQ_STATE q] [] t) ∧
     (q ∉ s.dev.q.ownStall →
       (Instr.ownPoll q false true).gives s fun t =>
         t.dev.get (R.SQ_STATE q) = 2 ∧ t.dev.get (R.SQ_OWN_STALL q) = 1 ∧ t.dev.get R.QB_OWN_STALL = 1 ∧
         t.dev.pends 35 = true ∧ q ∈ t.dev.q.ownStall ∧
         s.Noting [R.SQ_STATE q, R.SQ_OWN_STALL q, R.QB_OWN_STALL, R.QB_SQ_ERR_MAP (q / 32)] [.q] t) ∧
     ((Instr.fetchErr q).gives s fun t =>
       t.dev.get (R.SQ_STATE q) = 3 ∧ t.dev.get (R.SQ_FETCH_ERR q) = 1 ∧ t.dev.get R.QB_FETCH_ERR = 1 ∧
       t.dev.pends 36 = true ∧
       s.Noting [R.SQ_STATE q, R.SQ_FETCH_ERR q, R.QB_FETCH_ERR, R.QB_SQ_ERR_MAP (q / 32)] [] t)) ∧
  (∀ (s : State) (q : Nat) (e : List Byte), q < 1032 →
     (entryOp e = 1 → s.dev.get (qOUT q) ≠ 0 → exec (.fence q e) s = .next s) ∧
     (entryOp e = 1 → s.dev.get (qOUT q) = 0 → s.dev.headStarts q e 1 false = true → entryLen e = 1 →
       allZero (slice e 4 28) = true →
       (Instr.fence q e).gives s fun t =>
         s.dev.answered t.dev q e (entryHandle e) stOk 0 ∧ t.dev.get R.QB_ENTRIES = (s.dev.get R.QB_ENTRIES + 1) % 2 ^ 64 ∧
         s.Noting (s.dev.queueFields q) [.q] t) ∧
     (∀ i, entryOp e = 0x18 → s.dev.headStarts q e 1 true = true → createFramed e 1 24 = true →
       kMode (carried e 20 32) ≤ 1 → byteAt (carried e 20 32) 5 / 4 = 0 → kPeriod (carried e 20 32) ≠ 0 →
       (kRect (carried e 20 32)).w ≠ 0 → (kRect (carried e 20 32)).h ≠ 0 →
       (kRect (carried e 20 32)).x + (kRect (carried e 20 32)).w ≤ s.dev.geo.width →
       (kRect (carried e 20 32)).y + (kRect (carried e 20 32)).h ≤ s.dev.geo.height →
       s.dev.freeIndex clsCheck = some i →
       (Instr.checkCreate q e).gives s fun t =>
         let h := mkHandle (s.dev.issueGen clsCheck i) clsCheck i
         (∃ c, t.dev.live? clsCheck i = some c ∧ c.gen = s.dev.issueGen clsCheck i ∧ c.owner = queueFn q ∧
           c.cseq = s.dev.ch.nextCseq ∧ c.record = withHandle (carried e 20 32) h) ∧
         t.dev.ch.nextCseq = s.dev.ch.nextCseq + 1 ∧ s.dev.answered t.dev q e h stOk 0 ∧
         s.Noting (s.dev.queueFields q) [.q, .ch, .comp] t) ∧
     (∀ c, entryOp e = 2 → s.dev.headStarts q e 1 true = true → framed e 1 8 = true → handleCls (entryHandle e) = clsCheck →
       s.dev.target? (queueFn q) (entryHandle e) = some c →
       (Instr.destroy q e).gives s fun t =>
         t.dev.live? clsCheck (handleIdx (entryHandle e)) = none ∧
         (t.dev.chan? clsCheck (handleIdx (entryHandle e))).isSome = true ∧
         s.dev.answered t.dev q e (entryHandle e) stOk 0 ∧ s.Noting (s.dev.queueFields q) [.q, .ch] t))

/-- Surfaces (R104, R254, R260, R261, R695, R705): a SURFACE_CREATE in order that finds its memory takes the lowest free index
and stays owed until its bytes are zeroed; when they are, it completes OK and every byte of the surface reads 0. A
SURFACE_WRITE or SURFACE_READ in order is owed too; a write whose host read failed changes no byte and completes ABORTED. -/
def Obligations.SurfacesAreCreatedZeroedAndTransferred : Prop :=
  ∀ (s : State) (q : Nat) (e : List Byte), q < 1032 →
    (∀ i d', entryOp e = 0x17 → s.dev.headStarts q e 1 true = true → createFramed e 1 28 = true →
      surfReservedOk (carried e 24 32) = true → surfRangeOk (carried e 24 32) = true →
      s.dev.freeIndex clsSurface = some i →
      (s.dev.begun q e 1).allocate i (recFmt (carried e 24 32)) (recKamius (carried e 24 32)) (recWidth (carried e 24 32))
        (recHeight (carried e 24 32)) (surfPitch (carried e 24 32)) (recStacks (carried e 24 32)) = some d' →
      (Instr.surfaceCreate q e).gives s fun t =>
        let h := mkHandle (s.dev.issueGen clsSurface i) clsSurface i
        (∃ c, t.dev.live? clsSurface i = some c ∧ c.gen = s.dev.issueGen clsSurface i ∧ c.owner = queueFn q ∧
          c.cseq = s.dev.ch.nextCseq) ∧
        t.dev.mem = { d'.mem with filling := s.dev.mem.filling ++ [i] } ∧
        s.dev.owes t.dev q ⟨q, entryTag e, h, .zeroFill i⟩ ∧ s.Only (s.dev.queueFields q) [.q, .ch, .mem, .out] t) ∧
    (∀ key rest, s.dev.mem.filling = key :: rest → key < 262144 →
      Instr.surfaceZeroFillDone.gives s fun t =>
        t.dev.mem.filling = rest ∧ t.dev.mem.surfs = s.dev.mem.surfs ∧
        t.dev.q.owed = s.dev.q.owed.filter (fun o => !(o.kind == OwedKind.zeroFill key)) ∧
        (∀ u p a, (key, u) ∈ s.dev.mem.surfs → p ∈ u.parts → p.2.1 ≤ a → a < p.2.1 + p.2.2 → a % stackBytes < poolHi →
          Memory.get t.hbm a = 0) ∧
        (∀ a, (∀ u p, (key, u) ∈ s.dev.mem.surfs → p ∈ u.parts → a < p.2.1 ∨ p.2.1 + p.2.2 ≤ a) →
          Memory.get t.hbm a = Memory.get s.hbm a) ∧
        s.Within [2] [.q, .mem] t) ∧
    (∀ write, (entryOp e = if write then 0x24 else 0x25) → s.dev.headStarts q e 1 true = true →
      (s.dev.begun q e 1).transferStatus q e write = stOk →
      (if write then Instr.surfaceWrite q e else Instr.surfaceRead q e).gives s fun t =>
        ∃ id x, Tab.get? s.dev.mem.xfers id = none ∧ Tab.get? t.dev.mem.xfers id = some x ∧ x.write = write ∧ x.queue = q ∧
          x.x = entryX e ∧ x.y = entryY e ∧ x.w = entryW e ∧ x.h = entryH e ∧
          s.dev.owes t.dev q ⟨q, entryTag e, entryHandle e, .surface id⟩ ∧
          s.Only (s.dev.queueFields q) [.q, .mem, .out] t) ∧
    (∀ id x, Tab.get? s.dev.mem.xfers id = some x → x.write = true → (s.dev.surf? x.surf).isSome = true →
      (Instr.surfaceTransferDone id none).gives s fun t =>
        t.hbm = s.hbm ∧ Tab.get? t.dev.mem.xfers id = none ∧
        t.dev.q.owed = s.dev.q.owed.filter (fun o => !(o.kind == OwedKind.surface id)) ∧ s.Within [2] [.q, .mem] t)

/-! ### Channels: creation, replacement, destruction -/

/-- Creation of stakes (R104 to R106, R144, R284, R529, R558, R608): a create in order whose admission says OK takes the lowest
free index with its generation, owner and CSEQ; its stake is admitted under the next ASEQ; a layer and the surfaces of an
ingest or clip channel stay owed, a sense channel completes OK. A device that rules its table alone. -/
def Obligations.AdmittedCreatesMakeChannels : Prop :=
  ∀ (s : State) (q i : Nat) (e : List Byte), q < 1032 → s.dev.adm? ≠ admShedding → s.dev.headStarts q e 1 true = true →
    let d := s.dev.begun q e 1
    (entryOp e = 0x10 → createFramed e 4 100 = true → d.layerPre (queueFn q) (layerRecord e) = stOk → d.rules = true →
      d.grouped = false → d.freeIndex clsLayer = some i →
      (d.layerMake ⟨queueFn q, rung0Queue q, q, entryTag e, none⟩ (layerRecord e)).status = stOk →
      (Instr.layerCreate q e).gives s fun t =>
        let h := mkHandle (s.dev.issueGen clsLayer i) clsLayer i
        s.dev.creates t.dev clsLayer i q ∧ s.dev.admits t.dev (lRung (layerRecord e)) h ∧
        t.dev.get (R.LAY_HANDLE i) = h % 2 ^ 32 ∧ t.dev.get (R.LAY_STATE i) = 1 ∧ t.dev.get (R.LAY_DEMOTED i) = 0 ∧
        s.dev.owes t.dev q ⟨q, entryTag e, h, .change clsLayer i none⟩ ∧
        s.Noting (s.dev.queueFields q ++ ledgerFields ++ [R.LAY_HANDLE i, R.LAY_STATE i, R.LAY_DEMOTED i, R.LAY_KIND i, R.LAY_Z i])
          [.q, .ch, .adm, .pip, .comp, .push] t) ∧
    (∀ r' room, entryOp e = 0x12 → createFramed e 3 68 = true →
      let r := carried e 64 64
      let c : Chan := { gen := 0, owner := queueFn q, rung := byteAt r 13, queue := q, tag := entryTag e, record := r', stake := r' }
      iMode r ≤ 1 → byteAt r 5 / 2 = 0 → byteAt r 15 = 0 → bits (leAt r 34 2) 15 13 = 0 →
      (iLegB r = true → bits (leAt r 50 2) 15 13 = 0) → (iFallback r ≠ 0 → d.surfNamed (queueFn q) (iFallback r) = true) →
      d.ingestRangeOk r = true → (ingestDomains r).all d.domOn = true → d.freeIndex clsIngest = some i →
      d.fillEntries r = some r' →
      d.allocateAll (ingestBase + 8 * i) (if iDepth r = 10 then 0x10 else 0x11) false (iWidth r) (iHeight r)
        (ceilDiv (iWidth r * bppOf (if iDepth r = 10 then 0x10 else 0x11)) 64 * 64) (byteAt r 14) (iNbuf r) = some room →
      (d.admitWith ⟨clsIngest, i, c, none, 0, rung0Queue q⟩ false (d.entryBusy r) false).1 = stOk →
      (Instr.ingestCreate q e).gives s fun t =>
        let h := mkHandle (s.dev.issueGen clsIngest i) clsIngest i
        s.dev.creates t.dev clsIngest i q ∧ s.dev.admits t.dev (byteAt r 13) h ∧ t.dev.mem.surfs = room.mem.surfs ∧
        t.dev.mem.filling = s.dev.mem.filling ++ [ingestBase + 8 * i] ∧
        s.dev.owes t.dev q ⟨q, entryTag e, h, .zeroFill (ingestBase + 8 * i)⟩ ∧
        t.hbm = s.hbm ∧ s.Within [2, 3, 10] [.q, .ch, .adm, .pip, .mem, .ing] t) ∧
    (∀ room, entryOp e = 0x13 → createFramed e 2 36 = true →
      let r := clipRecord e
      let c : Chan := { gen := 0, owner := queueFn q, rung := byteAt r 28, queue := q, tag := entryTag e, record := r, stake := r }
      clipFormOk r = true → d.clipRangeOk r = true → d.domOn 130 = true → d.freeIndex clsClip = some i →
      d.lookahead i 0 r = some room → (d.admitStake ⟨clsClip, i, c, none, 0, rung0Queue q⟩ false false).1 = stOk →
      (Instr.clipCreate q e).gives s fun t =>
        let h := mkHandle (s.dev.issueGen clsClip i) clsClip i
        s.dev.creates t.dev clsClip i q ∧ s.dev.admits t.dev (byteAt r 28) h ∧ t.dev.mem.surfs = room.mem.surfs ∧
        s.dev.owes t.dev q ⟨q, entryTag e, h, .zeroFill (clipKey i 0 0)⟩ ∧
        s.Noting (s.dev.queueFields q ++ ledgerFields) [.q, .ch, .adm, .pip, .mem, .ing] t) ∧
    (entryOp e = 0x16 → createFramed e 3 68 = true →
      let r := carried e 64 64
      let c : Chan := { gen := 0, owner := queueFn q, rung := byteAt r 7, queue := q, tag := entryTag e, record := r, stake := r }
      sPlanes r ≠ 0 → sPlanes r ≤ 3 → byteAt r 5 / 4 = 0 → allZero (slice r 38 26) = true → d.senseRangeOk r = true →
      d.freeIndex clsSense = some i → (∀ k ∈ s.dev.sns.contacts, ∀ o ∈ k.owner, o.1 ≠ i) →
      (d.admitStake ⟨clsSense, i, c, none, 0, rung0Queue q⟩ false false).1 = stOk →
      (Instr.senseCreate q e).gives s fun t =>
        let h := mkHandle (s.dev.issueGen clsSense i) clsSense i
        s.dev.creates t.dev clsSense i q ∧ s.dev.admits t.dev (byteAt r 7) h ∧
        t.dev.get (R.SCH_HANDLE i) = h % 2 ^ 32 ∧ t.dev.get (R.SCH_STATE i) = 1 ∧ t.dev.get (R.SCH_PI i) = 0 ∧
        t.dev.get (R.SCH_CI i) = 0 ∧ s.dev.answered t.dev q e h stOk 0 ∧
        t.hbm = s.hbm ∧ s.Within [2, 3, 9, 10, 13] [.q, .ch, .adm, .pip, .snk, .sns, .push, .cal] t)

/-- Replacement of stakes (R142, R166, R558, R560, R693): an update or READMIT in order whose admission says OK puts the new
record or rung into its channel, and completes at the window that applies it, or at once where nothing is latched. -/
def Obligations.UpdatesReplaceRecordsAndReadmitStakes : Prop :=
  ∀ (s : State) (q : Nat) (e : List Byte) (c : Chan), q < 1032 → s.dev.adm? ≠ admShedding →
    s.dev.headStarts q e 1 true = true →
    let d := s.dev.begun q e 1
    let i := handleIdx (entryHandle e)
    let cls := handleCls (entryHandle e)
    s.dev.target? (queueFn q) (entryHandle e) = some c →
    (entryOp e = 0x11 → framed e 4 100 = true → layerFormOk (layerRecord e) = true → cls = clsLayer → d.rules = true →
      (d.layerChange ⟨queueFn q, rung0Queue q, q, entryTag e, none⟩ i c (layerRecord e)).status = stOk →
      (Instr.layerUpdate q e).gives s fun t =>
        (∃ n, t.dev.live? clsLayer i = some n ∧ n.gen = c.gen ∧ n.cseq = c.cseq ∧
          n.record = putLe (withHandle (layerRecord e) (c.handle clsLayer i)) 96 8 c.cseq) ∧
        t.dev.get (R.LAY_Z i) = lZ (layerRecord e) ∧
        s.dev.owes t.dev q ⟨q, entryTag e, c.handle clsLayer i, .change clsLayer i (some c)⟩ ∧
        s.Noting (s.dev.queueFields q ++ ledgerFields ++ [R.LAY_DEMOTED i, R.LAY_Z i])
          [.q, .ch, .adm, .pip, .comp, .push, .tbl] t) ∧
    (∀ room, entryOp e = 0x14 → framed e 2 36 = true → clipFormOk (clipRecord e) = true → cls = clsClip →
      d.clipRangeOk (clipRecord e) = true →
      let bank := 1 - (d.clip? i).bank
      let old := (d.mem.surfs.map (·.1)).filter (fun x => decide (clipKey i bank 0 ≤ x) && decide (x < clipKey i bank 0 + 64))
      let r := withHandle (clipRecord e) (entryHandle e)
      let n : Chan := { c with rung := byteAt (clipRecord e) 28, queue := q, tag := entryTag e, record := r, stake := r }
      (old.foldl Dev.release d).lookahead i bank (clipRecord e) = some room →
      (d.admitStake ⟨clsClip, i, n, some c, entryHandle e, rung0Queue q⟩ false false).1 = stOk →
      (Instr.clipUpdate q e).gives s fun t =>
        (∃ n, t.dev.live? clsClip i = some n ∧ n.record = r ∧ n.stake = r ∧ n.demoted = false) ∧
        (t.dev.clip? i).nextBank = some bank ∧ (t.dev.clip? i).bank = (d.clip? i).bank ∧ t.dev.mem.surfs = room.mem.surfs ∧
        s.dev.admits t.dev (byteAt (clipRecord e) 28) (entryHandle e) ∧
        s.dev.owes t.dev q ⟨q, entryTag e, entryHandle e, .change clsClip i (some c)⟩ ∧
        s.Within [2, 3] [.q, .ch, .adm, .pip, .mem, .ing] t) ∧
    (entryOp e = 3 → framed e 1 9 = true → (cls = clsLayer ∨ cls = clsIngest ∨ cls = clsClip ∨ cls = clsSense) →
      byteAt e 8 ≤ 7 →
      (d.admitStake ⟨cls, i, { c with rung := byteAt e 8, queue := q, tag := entryTag e }, some c, entryHandle e, rung0Queue q⟩
        false false).1 = stOk →
      (Instr.readmit q e).gives s fun t =>
        (∃ n, t.dev.live? cls i = some n ∧ n.gen = c.gen ∧ n.rung = byteAt e 8 ∧ n.demoted = false ∧
          n.aseq = s.dev.get R.ADM_ASEQ + 1) ∧
        s.dev.admits t.dev (byteAt e 8) (entryHandle e) ∧
        (cls = clsLayer ∨ cls = clsClip → s.dev.owes t.dev q ⟨q, entryTag e, entryHandle e, .change cls i (some c)⟩) ∧
        (cls = clsIngest ∨ cls = clsSense → t.dev.q.owed = s.dev.q.owed) ∧
        s.Noting (s.dev.queueFields q ++ ledgerFields ++ [R.LAY_DEMOTED i, R.SCH_DEMOTED i])
          [.q, .ch, .adm, .pip, .push, .sns] t)

/-- BLIT_CREATE, and the loads and clip writes that a queue asks for (R331, R334, R363, R370, R557, R581, R693): in order, a
blit channel is made and completes OK, a store load, a calibration load and a clip write stay owed, and a clip that no
channel names is deleted. A body that the host did not give completes ABORTED. -/
def Obligations.BlitChannelsLoadsAndClipWritesStart : Prop :=
  ∀ (s : State) (q : Nat) (e : List Byte), q < 1032 →
    (∀ i, let r := carried e 96 96
      let cmd := slice e 128 64
      let n := if bkOneshot r then 2 else 1
      entryOp e = 0x15 → s.dev.headStarts q e n true = true → entryHandle e = 0 → blitRecordForm r = true →
      allZero (slice e 100 28) = true → blitRecordRange r = true → (s.dev.begun q e n).domOn 44 = true → 44 ∉ s.dev.pwr.failed →
      (if bkOneshot r then entryLen e = 6 ∧ leAt cmd 4 4 = 0 ∧ tbit (byteAt cmd 0) 7 = true else entryLen e = 4) →
      s.dev.freeIndex clsBlit = some i →
      (Instr.blitCreate q e).gives s fun t =>
        let h := mkHandle (s.dev.issueGen clsBlit i) clsBlit i
        s.dev.creates t.dev clsBlit i q ∧ t.dev.get (R.BCH_HANDLE i) = h % 2 ^ 32 ∧ t.dev.get (R.BCH_STATE i) = 1 ∧
        t.dev.get (R.BCH_KIND i) = (if bkOneshot r then 1 else 0) ∧
        (Tab.get? t.dev.blt.chans i).map BlitChan.head = some (if bkOneshot r then some (putLe cmd 4 4 h) else none) ∧
        s.dev.answered t.dev q e h stOk 0 ∧
        s.Noting (s.dev.queueFields q ++ [R.BCH_HANDLE i, R.BCH_STATE i, R.BCH_KIND i, R.BCH_CONS i, R.BCH_WAIT i, R.BLT_RINGS])
          [.q, .ch, .blt] t) ∧
    (∀ b, entryOp e = 0x20 → s.dev.headStarts q e 1 true = true → storeLoadStatus q e = stOk →
      storeReservedOk (entryStore e) b = true → storeBodyOk (entryStore e) (entryTaps e) b = true →
      (Instr.storeLoad q e (some b)).gives s fun t =>
        t.dev.comp.loads = s.dev.comp.loads ++ [⟨q, entryTag e, entryStore e, entrySlot e, entryTaps e, b⟩] ∧
        s.dev.owes t.dev q ⟨q, entryTag e, 0, .store (entryStore e) (entrySlot e)⟩ ∧
        s.Only (s.dev.queueFields q) [.q, .comp, .out] t) ∧
    (entryOp e = 0x20 → s.dev.headStarts q e 1 true = true → storeLoadStatus q e = stOk →
      (Instr.storeLoad q e none).gives s fun t =>
        s.dev.answered t.dev q e (entryHandle e) stAborted 0 ∧ s.Noting (s.dev.queueFields q) [.q] t) ∧
    (∀ sq, entryOp e = 0x21 → s.dev.headStarts q e 1 true = true → s.dev.calLoadStatus q e = stOk →
      s.dev.square? (entrySquare e) = some sq →
      (Instr.calLoad q e).gives s fun t =>
        let u := entrySquare e / 4096
        Tab.getD t.dev.cal.loads u [] = Tab.getD s.dev.cal.loads u [] ++
          [⟨q, entryTag e, 0, entryMode e, sq.x, sq.y, sq.w, sq.h, entrySquare e, false, false⟩] ∧
        (∀ p ∈ t.dev.cal.ages, ∀ r ∈ p.2, t.dev.underLoad r.x r.y = false) ∧
        s.dev.owes t.dev q ⟨q, entryTag e, 0, .calLoad u⟩ ∧ s.Only (s.dev.queueFields q) [.q, .cal, .out] t) ∧
    (∀ p, entryOp e = 0x22 → s.dev.headStarts q e 1 true = true → entryLen e = 1 → entryHandle e = 0 →
      allZero (slice e 12 4) = true → entryClip e ≠ 0 → entryAddr e % 4096 = 0 → (s.dev.begun q e 1).packStatus e p = stOk →
      (Instr.clipWrite q e (some p)).gives s fun t =>
        t.dev.ing.jobs = s.dev.ing.jobs ++ [⟨q, entryTag e, entryClip e, packOfBytes p⟩] ∧ t.dev.ing.packs = s.dev.ing.packs ∧
        s.dev.owes t.dev q ⟨q, entryTag e, 0, .clipWrite (entryClip e)⟩ ∧ s.Only (s.dev.queueFields q) [.q, .ing, .out] t) ∧
    (entryOp e = 0x23 → s.dev.headStarts q e 1 true = true → entryLen e = 1 → entryHandle e = 0 →
      allZero (slice e 12 20) = true → (Tab.get? s.dev.ing.packs (entryClip e)).isSome = true → s.dev.domOn 130 = true →
      (∀ p ∈ s.dev.liveOf clsClip, leAt p.2.record 4 4 ≠ entryClip e) →
      (Instr.clipDelete q e).gives s fun t =>
        Tab.get? t.dev.ing.packs (entryClip e) = none ∧ s.dev.answered t.dev q e 0 stOk 0 ∧
        s.Within [2, 11] [.q, .ing] t ∧ t.hbm = s.hbm)

/-! ### Admission and pips -/

/-- The pace trial (R126, R128 to R130, R133, R135): TRIAL puts every active pip under the trial load at VADM, is rejected where
a stake is LIVE, and its end gives each quarter its trial pace, 94 % of it as PA, and its active pips.

Shortfalls and SAFE (R158 to R160, R170, R171): a shortfall starts a shed and lowers PA to the lowest live pace; RESUME
leaves SAFE where every budget holds, and is rejected elsewhere. -/
def Obligations.TheTrialSetsPacesAndAShortfallSheds : Prop :=
  (∀ (s : State) (req : Nat) (paces : List Nat), req < 33 → fullAccess req = true →
     (s.dev.trialBarred = false →
       (Instr.trial req).gives s fun t =>
         t.dev.get R.ADM_STATE = admTrial ∧ t.dev.get R.PWR_VC_TARGET_MV = s.dev.get R.ADM_VADM_MV ∧
         t.dev.get R.PWR_VCORE_MV = s.dev.get R.ADM_VADM_MV ∧
         (∀ p, p < 256 → t.dev.get (R.PIP_STATE p) = if s.dev.pipActive p then pipTrial else s.dev.get (R.PIP_STATE p)) ∧
         s.Only ([R.ADM_STATE, R.PWR_VC_TARGET_MV, R.PWR_VCORE_MV] ++ (List.range 256).map R.PIP_STATE) [] t) ∧
     (s.dev.trialBarred = true →
       (Instr.trial req).gives s fun t =>
         t.dev.get R.ADM_CMD_REJ = 1 ∧ t.dev.pends 76 = true ∧ s.Noting [R.ADM_CMD_REJ] [] t) ∧
     (s.dev.adm? = admTrial →
       let cups (q : Nat) := (List.range 8).filter (fun i => (List.range 8).any (fun j => s.dev.pipActive (8 * (8 * q + i) + j)))
       let pace (q : Nat) := ((cups q).map (fun i => paces.getD (8 * q + i) 0)).min?.getD 0
       (Instr.trialDone paces).gives s fun t =>
         (∀ q, q < 4 → t.dev.get (R.ADM_TRIAL q) = pace q % 2 ^ 16 ∧ t.dev.get (R.ADM_PA q) = pace q * 94 / 100 % 2 ^ 16 ∧
           t.dev.get (R.ADM_NPIPS q) = (s.dev.activePips q).length) ∧
         (∀ p, p < 256 → t.dev.get (R.PIP_STATE p) =
           if s.dev.get (R.PIP_STATE p) = pipTrial then pipParked else s.dev.get (R.PIP_STATE p)) ∧
         t.dev.get R.ADM_STATE = admNormal ∧ t.dev.get R.ADM_TRIAL_DONE = 1 ∧ t.dev.pends 69 = true ∧
         (s.dev.get R.ADM_VADM_MV = 900 → (∃ q, q < 4 ∧ pace q * 100 < 330 * 1024) →
           t.dev.get R.ADM_TRIAL_LOW = 1 ∧ t.dev.pends 70 = true) ∧
         t.hbm = s.hbm ∧ s.Within [3, 4, 10] [.pwr, .pip] t)) ∧
  (∀ (s : State) (req q : Nat), req < 33 → fullAccess req = true → q < 4 →
     (s.dev.adm? ≠ admOff → s.dev.adm? ≠ admTrial →
       let cups := (List.range 8).filter (fun i => (List.range 8).any (fun j => s.dev.pipActive (8 * (8 * q + i) + j)))
       let low := (cups.map (fun i => s.dev.get (R.CUP_PACE_NOW (8 * q + i)))).min?.getD 0
       (Instr.shortfall q).gives s fun t =>
         t.dev.get R.ADM_PACE_SHORT = 1 ∧ t.dev.pends 67 = true ∧
         t.dev.get R.ADM_SHED_CNT = (s.dev.get R.ADM_SHED_CNT + 1) % 2 ^ 64 ∧
         t.dev.adm? = (if s.dev.adm? = admNormal then admShedding else s.dev.adm?) ∧
         t.dev.get (R.ADM_NPIPS q) = (s.dev.activePips q).length ∧
         t.dev.get (R.ADM_PA q) = min low (s.dev.get (R.ADM_PA q)) ∧
         (low < s.dev.get (R.ADM_PA q) → t.dev.get R.ADM_PA_LOWERED = 1 ∧ t.dev.pends 71 = true) ∧
         s.Noting [R.ADM_PACE_SHORT, R.ADM_SHED_CNT, R.ADM_STATE, R.ADM_NPIPS q, R.ADM_PA q, R.ADM_PA_LOWERED] [] t) ∧
     (s.dev.adm? = admSafe → s.dev.verdict.over = false →
       (Instr.resume req).gives s fun t =>
         t.dev.get R.ADM_STATE = admNormal ∧ t.dev.get R.ADM_SAFE_EXIT = 1 ∧ t.dev.pends 66 = true ∧
         s.Noting [R.ADM_STATE, R.ADM_SAFE_EXIT] [] t) ∧
     (s.dev.adm? ≠ admSafe ∨ s.dev.verdict.over = true →
       (Instr.resume req).gives s fun t =>
         t.dev.get R.ADM_CMD_REJ = 1 ∧ t.dev.adm? = s.dev.adm? ∧
         t.dev.pends (if s.dev.adm? = admSafe then 73 else 76) = true ∧ s.Noting [R.ADM_CMD_REJ] [] t))

/-- Pace monitors and the VCORE loop (R220, R222, R835): a sample gives each cup its reading, its extremes and how long it has
been below PA; the loop steps VCORE up 5 mV, at most to VADM, while a cup is short, and holds VADM before the trial. -/
def Obligations.PaceMonitorsReadAndTheLoopStepsUp : Prop :=
  ∀ (s : State) (counts : List Nat), counts.length = 32 →
    ((Instr.paceSample counts).gives s fun t =>
      (∀ c, c < 32 →
        let v := min 0xFFFF (counts.getD c 0 * s.dev.get (R.CUP_MON_SCALE c) / 65536)
        let below := v < s.dev.get (R.ADM_PA (c / 8))
        t.dev.get (R.CUP_PACE_NOW c) = v ∧ t.dev.get (R.CUP_PACE_MIN c) = min v (s.dev.get (R.CUP_PACE_MIN c)) ∧
        t.dev.get (R.CUP_PACE_MAX c) = max v (s.dev.get (R.CUP_PACE_MAX c)) ∧
        (below → t.dev.get (R.CUP_BELOW c) = 1 ∧ t.dev.get (R.CUP_PACE_LOW c) = 1 ∧
          t.dev.get (R.CUP_BELOW_US c) = min (s.dev.get (R.CUP_BELOW_US c) + 1) 0xFFFF) ∧
        (¬below → t.dev.get (R.CUP_BELOW c) = 0 ∧ t.dev.get (R.CUP_BELOW_US c) = 0) ∧
        (v < 3072 → t.dev.get (R.CUP_PACE_FLOOR c) = 1)) ∧
      t.hbm = s.hbm ∧ s.Within [4] [] t) ∧
    (s.dev.adm? = admTrial ∨ s.dev.pwr.trialDone = false →
      Instr.paceLoopTick.gives s fun t =>
        t.dev.get R.PWR_VC_TARGET_MV = s.dev.get R.ADM_VADM_MV ∧ s.Noting [R.PWR_VC_TARGET_MV] [.pwr] t) ∧
    (s.dev.adm? ≠ admTrial → s.dev.pwr.trialDone = true → s.dev.pacedCups.any s.dev.cupShort = true →
      s.dev.get R.PWR_VC_LIMITED = 0 → s.dev.get R.PWR_VC_TARGET_MV + 5 ≤ s.dev.get R.ADM_VADM_MV →
      Instr.paceLoopTick.gives s fun t =>
        t.dev.get R.PWR_VC_TARGET_MV = s.dev.get R.PWR_VC_TARGET_MV + 5 ∧
        t.dev.get R.PWR_VC_RAISE_CNT = (s.dev.get R.PWR_VC_RAISE_CNT + 1) % 2 ^ 64 ∧ t.dev.pends 68 = true ∧
        OutMsg.vout (s.dev.get R.PWR_VC_TARGET_MV + 5) ∈ t.dev.out ∧
        s.Noting [R.PWR_VC_TARGET_MV, R.PWR_VC_RAISE_CNT] [.pwr] t)

/-- A pip that fails (R189, R191, R194, R201, R226): its work goes to the orphan pool of its cup, and it and its cup are
flagged; with no reserve the quarter loses a pip and sheds. A timeout of another link is a hub fault.

The banker replaces a failed pip (R190, R801 to R803): its slot is retired and its place taken by the cup's reserve, or by
no slot; a hub fault takes all slots of its cup, and one of a crossbar half is a device-level fault. -/
def Obligations.AFailedPipIsOrphanedAndReplaced : Prop :=
  (∀ (s : State) (p : Nat) (cause : PipCause), p < 256 → s.dev.pipActive p = true →
     ((Instr.pipFail p cause).gives s fun t =>
       t.dev.get (R.PIP_STATE p) = pipFailed ∧ t.dev.get (R.PIP_FAULT p) = 1 ∧ t.dev.get (R.CUP_PIP_FAULT (cupOf p)) = 1 ∧
       tbit (t.dev.get (R.CUP_ACTIVE (cupOf p))) (p % 8) = false ∧ t.dev.pends (96 + p) = true ∧
       t.dev.pends (352 + cupOf p) = true ∧ t.dev.todo p = [] ∧ Tab.get? t.dev.pip.work p = none ∧
       Tab.getD t.dev.pip.orphans (cupOf p) [] = Tab.getD s.dev.pip.orphans (cupOf p) [] ++
         ((Tab.get? s.dev.pip.work p).toList ++ s.dev.todo p) ∧
       (s.dev.get (R.CUP_RES_AVAIL (cupOf p)) = 0 →
         t.dev.get (R.CUP_RES_NONE (cupOf p)) = 1 ∧ t.dev.get (R.ADM_NPIPS (pipQuarter p)) = (t.dev.activePips (pipQuarter p)).length ∧
         t.dev.get R.ADM_PIP_LOSS = 1 ∧ t.dev.pends 72 = true ∧ (s.dev.adm? = admNormal → t.dev.adm? = admShedding)) ∧
       t.hbm = s.hbm ∧ s.Within [3, 4] [.pip] t) ∧
     ((Instr.handshakeTimeout (.pip p)).gives s fun t =>
       t.dev.get R.FAB_HS_TIMEOUT = 1 ∧ t.dev.get (R.PIP_HS_TO p) = 1 ∧ t.dev.get (R.PIP_STATE p) = pipFailed ∧
       t.hbm = s.hbm ∧ s.Within [3, 4] [.pip] t) ∧
     (∀ c, c < 32 → (Instr.handshakeTimeout (.cupHub c)).gives s fun t =>
       t.dev.get R.FAB_HS_TIMEOUT = 1 ∧ t.dev.get (R.CUP_HUB_FAULT c) = 1 ∧ t.dev.pends (352 + c) = true ∧
       s.Noting [R.FAB_HS_TIMEOUT, R.CUP_HUB_FAULT c] [] t)) ∧
  (∀ (s : State) (p c : Nat), p < 256 → c < 32 → s.dev.bank.restarting = false →
     let m := s.dev.get (R.CUP_SLOT_MAP (cupOf p))
     let old := bits m (4 * (p % 8) + 3) (4 * (p % 8))
     (s.dev.get (R.PIP_STATE p) = pipFailed → old ≠ 15 →
       (Instr.substitution p).gives s fun t =>
         (s.dev.get (R.CUP_RES_AVAIL (cupOf p)) = 1 →
           t.dev.get (R.CUP_SLOT_MAP (cupOf p)) = slotPut m (p % 8) (Tab.getD s.dev.pip.reserve (cupOf p) 8) % 2 ^ 32 ∧
           t.dev.get (R.CUP_RES_AVAIL (cupOf p)) = 0 ∧ t.dev.get (R.CUP_RES_USED (cupOf p)) = 1 ∧ t.dev.pends 968 = true) ∧
         (s.dev.get (R.CUP_RES_AVAIL (cupOf p)) = 0 →
           t.dev.get (R.CUP_SLOT_MAP (cupOf p)) = slotPut m (p % 8) 15 % 2 ^ 32 ∧ t.dev.pends 969 = true) ∧
         t.hbm = s.hbm ∧ s.Within [4] [.bank] t) ∧
     ((Instr.hubOut c false false).gives s fun t =>
       t.dev.get (R.CUP_SLOT_MAP c) = 0xFFFFFFFF ∧ t.dev.pends 970 = true ∧ s.Noting [R.CUP_SLOT_MAP c] [] t) ∧
     ((Instr.hubOut c true false).gives s fun t =>
       (∀ i, i < 8 → t.dev.get (R.CUP_SLOT_MAP (8 * (c / 8) + i)) = 0xFFFFFFFF) ∧ t.dev.pends 970 = true ∧
       s.Noting ((List.range 8).map (fun i => R.CUP_SLOT_MAP (8 * (c / 8) + i))) [] t) ∧
     (s.dev.get R.PWR_SU_STATE ≠ suPfail → (Instr.hubOut c false true).gives s fun t => t.dev.get R.PWR_SU_STATE = suFaulted ∧ t.dev.pends 6 = true ∧ t.pending = s.pending) ∧
     (s.dev.get (R.CUP_RES_AVAIL c) = 1 →
       (Instr.reserveSelftestDone c false).gives s fun t =>
         t.dev.get (R.CUP_RES_AVAIL c) = 0 ∧ t.dev.get (R.CUP_RES_FAIL c) = 1 ∧ t.dev.pends (352 + c) = true ∧
         s.Noting [R.CUP_RES_AVAIL c, R.CUP_RES_FAIL c, R.FAB_RES_AVAIL (c / 8)] [] t) ∧
     exec (.reserveSelftestDone c true) s = .next s)

/-- The deal (R207, R208, R211, R214, R215): a plan holds every entry once, no two pips differ by more than one entry, a rebuilt
plan waits for the next window, and an idle pip takes the upper half of its victim's orphan pool, or counts a failed attempt
and parks after its last.

A patch is composed (R185, R250, R281, R309, R318): each board pixel of it is the blend of the layers that are not culled,
and the pip hands it to the calibration unit of its quarter; a patch that met a poisoned fetch is not handed on. -/
def Obligations.PatchesAreDealtStolenAndComposed : Prop :=
  ((∀ (n : Nat) (classes : List (List Nat)), 0 < n →
     (buildPlan n classes).length = n ∧ (buildPlan n classes).flatten.Perm classes.flatten ∧
     ∀ a ∈ buildPlan n classes, ∀ b ∈ buildPlan n classes, a.length ≤ b.length + 1) ∧
   ∀ (s : State) (q p : Nat), q < 4 → p < 256 →
     (q ∈ s.dev.pip.rebuild →
       (Instr.planRebuildDone q).gives s fun t =>
         q ∉ t.dev.pip.rebuild ∧
         Tab.get? t.dev.pip.nextPlan q = some ((s.dev.rebuilt q).2, (s.dev.rebuilt q).1) ∧
         t.dev.pip.plan = s.dev.pip.plan ∧ s.Only [] [.pip] t) ∧
     (s.dev.sched.phase = .compose → s.dev.get (R.PIP_STATE p) = pipStealing →
       let a := s.dev.get (R.PIP_ATTEMPT p)
       let v := victimOf p a
       let pool := Tab.getD s.dev.pip.orphans v []
       (0 < pool.length →
         (Instr.stealAttempt p).gives s fun t =>
           Tab.getD t.dev.pip.orphans v [] = pool.take (pool.length / 2) ∧
           t.dev.get R.FAB_STEAL_OK = (s.dev.get R.FAB_STEAL_OK + 1) % 2 ^ 64 ∧
           t.dev.get (R.CUP_STEAL_IN (cupOf p)) = (s.dev.get (R.CUP_STEAL_IN (cupOf p)) + (pool.length + 1) / 2) % 2 ^ 64 ∧
           t.hbm = s.hbm ∧ s.Within [4] [.pip] t) ∧
       (pool = [] → (s.dev.richest v).2 < 2 →
         (Instr.stealAttempt p).gives s fun t =>
           t.dev.get R.FAB_STEAL_FAIL = (s.dev.get R.FAB_STEAL_FAIL + 1) % 2 ^ 64 ∧
           t.dev.get (R.PIP_STATE p) = (if s.dev.attempts ≤ a + 1 then pipParked else pipStealing) ∧
           t.dev.pip.todo = s.dev.pip.todo ∧ s.Only [R.FAB_STEAL_FAIL, R.PIP_ATTEMPT p, R.PIP_STATE p, R.FAB_PARKS] [.pip] t))) ∧
  (∀ (s : State) (pip k : Nat), pip < 256 → Tab.get? s.dev.pip.work pip = some k → s.dev.get (R.PIP_STATE pip) = pipComposing →
     let p := s.dev.patchRect k
     let work := (s.dev.cullSplit p (s.dev.layersOver p)).2
     let quarter := quarterOf (patchSquare k / 64)
     let waiting (d : Dev) := Tab.getD d.comp.emit quarter []
     (work.any (fun x => lKind x.2.record == 0 && s.layerPoisoned x.2 p) = false →
       (Instr.patchComposed pip 0).gives s fun t =>
         waiting t.dev = waiting s.dev ++ [⟨k, p.pixels.map (fun x => (s.composePixel (work.map (·.2)) x.1 x.2).1)⟩] ∧
         (k ∈ s.dev.push.latched → k ∈ t.dev.push.emitted) ∧
         t.dev.get (R.PIP_PATCH_CNT pip) = (s.dev.get (R.PIP_PATCH_CNT pip) + 1) % 2 ^ 64 ∧
         (k ∉ s.dev.push.latched → t.hbm = s.hbm) ∧ t.pending = s.pending) ∧
     (work.any (fun x => lKind x.2.record == 0 && s.layerPoisoned x.2 p) = true →
       (Instr.patchComposed pip 0).gives s fun t =>
         t.dev.comp.emit = s.dev.comp.emit ∧ t.dev.push.emitted = s.dev.push.emitted ∧ t.hbm = s.hbm ∧ s.Within [4] [.pip] t))

/-! ### HBM -/

/-- Stacks (R238 to R243, R251): a temperature is held and makes a stack due at 10 °C from its training or 16 s after it, a
retraining that succeeds makes it READY and not due, one that fails is counted and leaves it due, and the third in a row, or
1 ms without lock, is a device-level fault. -/
def Obligations.StacksRetrainOrFail : Prop :=
  ∀ (s : State) (k : Nat) (temps : List Int), k < 8 → temps.length = 8 → (∀ x ∈ temps, -128 ≤ x ∧ x < 128) →
    (Instr.hbmTempRead temps).gives s (fun t =>
      (∀ j, j < 8 → s.dev.get (R.STK_STATE j) ≠ stkOff →
        signed 8 (t.dev.get (R.STK_TEMP j)) = temps.getD j 0 ∧ (95 < temps.getD j 0 → t.dev.get (R.STK_HOT j) = 1) ∧
        (s.dev.get (R.STK_STATE j) = stkReady → 10 ≤ (temps.getD j 0 - signed 8 (s.dev.get (R.STK_TEMP_TRAIN j))).natAbs →
          t.dev.get (R.STK_DUE j) = 1)) ∧
      s.Noting ((List.range 8).map R.STK_TEMP ++ (List.range 8).map R.STK_HOT ++ (List.range 8).map R.STK_DUE) [.mem] t) ∧
    (s.dev.get (R.STK_STATE k) = stkRetrain →
      (Instr.retrainDone k true).gives s fun t =>
        t.dev.get (R.STK_STATE k) = stkReady ∧ t.dev.get (R.STK_DUE k) = 0 ∧ t.dev.get (R.STK_FAILS k) = 0 ∧
        t.dev.get (R.STK_RETRAIN_CNT k) = (s.dev.get (R.STK_RETRAIN_CNT k) + 1) % 2 ^ 64 ∧
        Tab.get? t.dev.mem.trained k = some s.dev.time.now ∧
        s.Only [R.STK_STATE k, R.STK_DUE k, R.STK_FAILS k, R.STK_TEMP_TRAIN k, R.STK_RETRAIN_CNT k] [.mem] t) ∧
    (s.dev.get (R.STK_STATE k) = stkRetrain → s.dev.get (R.STK_FAILS k) < 2 →
      (Instr.retrainDone k false).gives s fun t =>
        t.dev.get (R.STK_STATE k) = stkReady ∧ t.dev.get (R.STK_DUE k) = 1 ∧
        t.dev.get (R.STK_FAILS k) = s.dev.get (R.STK_FAILS k) + 1 ∧ t.dev.get (R.STK_TRAIN_FAIL k) = 1 ∧
        t.dev.pends (384 + k) = true ∧
        s.Noting [R.STK_STATE k, R.STK_DUE k, R.STK_FAILS k, R.STK_TRAIN_FAIL k] [.mem] t) ∧
    (s.dev.get R.PWR_SU_STATE = suRun → s.dev.get (R.STK_STATE k) = stkReady → s.dev.synState (73 + k) = synUnlocked →
      (Instr.hbmUnlockTimeout k).gives s fun t =>
        t.dev.get (R.STK_STATE k) = stkDead ∧ t.dev.get (R.STK_FATAL k) = 1 ∧ t.dev.pends 7 = true ∧
        t.dev.get R.PWR_SU_STATE = suFaulted ∧ t.hbm = s.hbm) ∧
    (s.dev.get R.MEM_SCRUB_EN = 1 →
      Instr.scrubDone.gives s fun t => t.dev.get R.MEM_SCRUB_DONE = 1 ∧ t.dev.pends 393 = true ∧ s.Noting [R.MEM_SCRUB_DONE] [] t)

/-- Reads of HBM (R228, R247 to R250): a clean read moves 32 bytes, a corrected error is counted, an uncorrectable one poisons
its flit and logs its address, a pip whose fetch meets poison goes on to its next entry; a read beyond the stacks stops the
model. -/
def Obligations.HbmReadsCorrectOrPoison : Prop :=
  ∀ (s : State) (a p : Nat) (reader : HbmReader), readerOk reader = true → p < 256 →
    let k := stackOf a
    let ready := s.dev.get (R.STK_STATE k) = stkReady ∨ s.dev.get (R.STK_STATE k) = stkRetrain
    (hbmBytes ≤ a → exec (.hbmReadReturn a .clean reader) s = .fault (.hbmAddress a)) ∧
    (a < hbmBytes → ready → flitOf a ∉ s.dev.mem.poison →
      (Instr.hbmReadReturn a .clean reader).gives s fun t =>
        t.dev.get (R.STK_RD_BYTES k) = (s.dev.get (R.STK_RD_BYTES k) + 32) % 2 ^ 64 ∧ s.Only [R.STK_RD_BYTES k] [] t) ∧
    (a < hbmBytes → ready → flitOf a ∉ s.dev.mem.poison →
      (Instr.hbmReadReturn a .corrected reader).gives s fun t =>
        t.dev.get (R.STK_CE_CNT k) = (s.dev.get (R.STK_CE_CNT k) + 1) % 2 ^ 64 ∧ t.dev.get (R.STK_CE k) = 1 ∧
        t.dev.mem.poison = s.dev.mem.poison ∧
        s.Noting [R.STK_RD_BYTES k, R.STK_CE_CNT k, R.STK_CE k, R.STK_CE_RATE k] [.mem] t) ∧
    (a < hbmBytes → ready → (Tab.getD s.dev.mem.ues k []).length < 16 →
      (Instr.hbmReadReturn a .uncorrectable .scrubber).gives s fun t =>
        flitOf a ∈ t.dev.mem.poison ∧ t.dev.get (R.STK_UE_CNT k) = (s.dev.get (R.STK_UE_CNT k) + 1) % 2 ^ 64 ∧
        t.dev.get (R.STK_UE_ADDR_LO k) + t.dev.get (R.STK_UE_ADDR_HI k) * 2 ^ 32 = flitOf a * 32 ∧
        t.dev.get (R.STK_UE k) = 1 ∧ t.dev.pends (384 + k) = true ∧
        s.Noting [R.STK_RD_BYTES k, R.STK_UE_CNT k, R.STK_UE_ADDR_LO k, R.STK_UE_ADDR_HI k, R.STK_UE k] [.mem] t) ∧
    (a < hbmBytes → ready → flitOf a ∈ s.dev.mem.poison → s.dev.get (R.PIP_STATE p) = pipComposing → s.dev.todo p = [] →
      s.dev.get R.FAB_STEAL_EN = 1 →
      (Instr.hbmReadReturn a .clean (.pip p)).gives s fun t =>
        t.dev.get (R.PIP_STATE p) = pipStealing ∧ Tab.get? t.dev.pip.work p = none ∧ t.hbm = s.hbm)

/-! ### Calibration -/

/-- Calibrating a patch and committing a profile (R344, R350, R398, R433): the codes of the patch go to the end of its snake's
push buffer with their PCRC; a commit in range waits for the next window, one out of range is flagged.

An ageing reading (R371, R372, R375): the dose of its LED rises by current times time, and where the profile ages the gain
takes one step toward its target; no other byte of HBM changes. -/
def Obligations.PatchesAreCalibratedAndAge : Prop :=
  ((∀ (s : State) (q : Nat), q < 4 → ∀ e : Emitted, s.dev.nextEmitted q = some e →
     ∀ sq : Square, s.dev.square? (patchSquare e.patch) = some sq → s.dev.toPush e.patch = true →
     let codes := (s.convert e.patch sq e.pix).1
     let bytes := packCodes s.dev.depth12 codes
     (Instr.patchCalibrate q).gives s fun t =>
       t.dev.buf (snakeOf e.patch) = s.dev.buf (snakeOf e.patch) ++ [⟨e.patch, bytes⟩] ∧
       Tab.get? t.dev.push.pushed e.patch = some (pcrc (patchNum e.patch) bytes) ∧
       t.dev.emitQ q = (s.dev.emitQ q).filter (fun x => x.patch != e.patch) ∧ t.hbm = s.hbm ∧
       s.Within [7, 8, 9] [.comp, .cal, .push, .ch] t) ∧
   ∀ (s : State) (p : Nat), p < 256 →
     (p ≠ 0 → s.dev.stagedOk = true →
       (Instr.commit p).gives s fun t =>
         t.dev.cal.commits = s.dev.cal.commits ++ [(p, s.dev.staged)] ∧ s.Only [] [.cal] t) ∧
     (p = 0 ∨ s.dev.stagedOk = false →
       (Instr.commit p).gives s fun t =>
         t.dev.get R.CAL_WRANGE = 1 ∧ t.dev.pends 420 = true ∧ s.Noting [R.CAL_WRANGE] [] t)) ∧
  (∀ (s : State) (u : Nat), u < 4 → s.canonical → ∀ (r : AgeReading) (rest : List AgeReading),
     Tab.getD s.dev.cal.ages u [] = r :: rest → ∀ (n : Nat) (sq : Square), s.dev.squareAt r.x r.y = some (n, sq) → r.chan < 3 →
     s.dev.ageBarred sq r.x r.y = false →
     let da := doseAt r.x r.y + 4 * r.chan
     let ra := refAt r.x r.y + 4 * r.chan
     let ga := gainAt r.x r.y + 2 * r.chan
     let dose := doseAfter (leOf (Memory.getAll s.hbm da 4)) r.amp r.ms
     let gain := leOf (Memory.getAll s.hbm ga 2)
     s.poisoned da 4 = false → s.poisoned ra 4 = false → s.poisoned ga 2 = false →
     (Instr.ageReading u).gives s fun t =>
       leOf (Memory.getAll t.hbm da 4) = dose ∧
       leOf (Memory.getAll t.hbm ga 2) = (s.dev.gainAfter sq.calSet gain dose (leOf (Memory.getAll s.hbm ra 4))).getD gain ∧
       (∀ a, a < da ∨ da + 4 ≤ a → a < ga ∨ ga + 2 ≤ a → Memory.get t.hbm a = Memory.get s.hbm a) ∧
       Tab.getD t.dev.cal.ages u [] = rest ∧
       t.dev.get R.CAL_AGE_UPD_CNT = (s.dev.get R.CAL_AGE_UPD_CNT + 1) % 2 ^ 64 ∧ s.Within [5, 7] [.cal, .push] t)

/-- A calibration load (R360, R363, R364, R367, R368): its body is written whole into the cells of its square, which is held
from then on; a body that the host did not give changes nothing and completes ABORTED. -/
def Obligations.ACalibrationLoadWritesItsSquare : Prop :=
  ∀ (s : State) (u : Nat), u < 4 → ∀ w : CalWork, currentLoad (Tab.getD s.dev.cal.loads u []) = some w →
    (w.writing = false → ∀ body, s.canonical → body.length = 80 * (w.w * w.h) → w.x + w.w ≤ 32768 → w.y + w.h ≤ 32768 →
      (∀ i, i < w.w * w.h → allZero (slice body (80 * i + 78) 2) = true) →
      (Instr.calLoadBodyRead u (some body)).gives s fun t =>
        (∀ i j k, i < w.w → j < w.h → k < 4 →
          let at_ := 80 * (j * w.w + i)
          let x := w.x + i
          let y := w.y + j
          Memory.getAll t.hbm (setAt x y k) 18 = slice body (at_ + 18 * k) 18 ∧
          Memory.getAll t.hbm (offsetAt x y) 6 = slice body (at_ + 72) 6 ∧
          (w.mode = 0 → Memory.getAll t.hbm (refAt x y) 12 = Memory.getAll s.hbm (doseAt x y) 12) ∧
          (w.mode = 2 → Memory.getAll t.hbm (doseAt x y) 12 = List.replicate 12 0)) ∧
        t.dev.cal.held = s.dev.cal.held ++ [⟨(w.x, w.y, w.w, w.h), [(w.x, w.y, w.w, w.h)]⟩] ∧
        currentLoad (Tab.getD t.dev.cal.loads u []) = some { w with writing := true } ∧
        s.Within [5] [.cal, .mem] t) ∧
    (w.writing = false → s.dev.q.owed.find? (fun o => o.kind == .calLoad u && o.queue == w.queue && o.tag == w.tag) =
        some ⟨w.queue, w.tag, w.handle, .calLoad u⟩ →
      (Instr.calLoadBodyRead u none).gives s fun t =>
        t.hbm = s.hbm ∧ t.dev.cal.held = s.dev.cal.held ∧
        t.dev.q.owed = s.dev.q.owed.eraseP (fun o => o.kind == .calLoad u && o.queue == w.queue && o.tag == w.tag) ∧
        t.dev.get R.QB_ABORT_CNT = (s.dev.get R.QB_ABORT_CNT + 1) % 2 ^ 64 ∧ s.Within [2] [.cal, .q] t) ∧
    (w.writing = true →
      (Instr.calLoadWriteDone u).gives s fun t =>
        (∃ a b, Tab.getD s.dev.cal.loads u [] = a ++ w :: b ∧
          Tab.getD t.dev.cal.loads u [] = a ++ { w with written := true } :: b) ∧ s.Only [] [.cal] t)

/-! ### The turn -/

/-- The present instant (R45, R397, R415, R433): the turn counter advances, QUIET begins, and every patch that a flip map names
shows what was pushed for it. A device that does not run has no present instant.

The compose window opens (R47, R51, R212, R394, R396, R437): the content of the next turn is latched, every patch of its
damage map is INFLIGHT, and what the last content left of pushes and flip maps is gone. -/
def Obligations.TheTurnAdvancesAndLatches : Prop :=
  (∀ (s : State) (bad : Option Nat),
     (s.dev.running = false → exec (.presentInstant bad) s = .next s) ∧
     (s.dev.running = true → s.dev.sched.timing = none → s.dev.sched.resync = none → s.dev.snk.gave = [] →
       let turn := if s.dev.get R.PUSH_PRES_TURN = 0 then s.dev.time.turn else s.dev.time.turn + 1
       (Instr.presentInstant bad).gives s fun t =>
         t.dev.time.turn = turn ∧ t.dev.get R.PUSH_PRES_TURN = turn % 2 ^ 64 ∧ t.dev.sched.phase = .quiet ∧
         t.dev.push.latched = [] ∧ (∀ n, t.dev.buf n = []) ∧
         (∀ k c, k ∈ s.dev.push.fmap.flatMap (·.2) → Tab.get? s.dev.push.pushed k = some c →
           Tab.get? t.dev.push.shown k = some c ∧ Tab.get? t.dev.push.st k = some 2) ∧
         t.hbm = s.hbm ∧ t.pending = s.pending)) ∧
  (∀ s : State,
     (s.dev.running = false ∨ s.dev.sched.phase ≠ .quiet → exec .composeWindowOpen s = .next s) ∧
     (s.dev.running = true → s.dev.sched.phase = .quiet →
       Instr.composeWindowOpen.gives s fun t =>
         t.dev.sched.phase = .compose ∧ t.dev.comp.content = s.dev.time.turn + 1 ∧ t.dev.time.turn = s.dev.time.turn ∧
         (∀ k ∈ t.dev.push.latched, Tab.get? t.dev.push.st k = some 1) ∧ t.dev.push.cut = false ∧
         t.dev.push.acked = [] ∧ t.dev.push.left = [] ∧ t.dev.push.fmap = [] ∧ t.dev.get R.BLT_QUIET_HOLD = 0 ∧
         t.pending = s.pending))

/-- The deadlines of a turn (R47, R108, R213, R405 to R408): at the compose deadline no pip goes on, what is not emitted is
abandoned and what retires is FREE; at the cutoff what is not acknowledged is left out; at the push deadline the turn's
pushes are over and every ECHO awaited for it is given up. -/
def Obligations.DeadlinesEndComposingAndPushing : Prop :=
  ∀ s : State,
    (s.dev.running = true → s.dev.sched.phase = .compose →
      Instr.composeDeadline.gives s fun t =>
        t.dev.sched.phase = .composed ∧
        (∀ p, p < 256 → t.dev.get (R.PIP_STATE p) ≠ pipComposing ∧ t.dev.get (R.PIP_STATE p) ≠ pipStealing) ∧
        (∀ k ∈ s.dev.push.latched, k ∉ s.dev.push.emitted → k ∈ t.dev.push.abandoned ∧ k ∈ t.dev.push.left) ∧
        (∀ x ∈ t.dev.ch.chans, x.2.retiring = true → x.1 / 2 ^ 20 = clsBlit) ∧ t.hbm = s.hbm ∧ t.pending = s.pending) ∧
    (s.dev.pushing = true → s.dev.push.cut = false →
      Instr.pushCutoff.gives s fun t =>
        t.dev.push.cut = true ∧ t.dev.push.acked = s.dev.push.acked ∧
        (∀ k ∈ s.dev.push.latched, k ∈ s.dev.push.emitted → k ∉ s.dev.push.acked → k ∈ t.dev.push.left) ∧
        t.hbm = s.hbm ∧ t.pending = s.pending) ∧
    (s.dev.pushing = true → (s.dev.push.awaits.map (·.1)).Nodup →
      Instr.pushDeadline.gives s fun t =>
        t.dev.sched.phase = .pushed ∧
        (∀ n, Tab.get? s.dev.push.awaits n = some s.dev.time.turn → n < 16384 → Tab.get? t.dev.push.awaits n = none ∧
          Tab.getD t.dev.push.fails n 0 = Tab.getD s.dev.push.fails n 0 + 1) ∧
        (∀ p ∈ s.dev.push.fmap, p.1 < 16384 → p.1 ∉ s.dev.push.presAck → t.dev.get (R.PSN_PRES_NACK (p.1 / 64)) = 1) ∧
        t.hbm = s.hbm ∧ t.pending = s.pending) ∧
    (s.dev.pushing = false → exec .pushDeadline s = .next s ∧ exec .pushCutoff s = .next s)

/-! ### Push, present, acknowledgement, echo -/

/-- Frames that a content sends (R398, R399, R401, R419, R475, R476, R479 to R484): a PUSH frame carries the head of its snake's
buffer, a PRESENT frame the instant, the content and the flip map of its square, a CADENCE frame the change; each takes its
square's next SEQ and awaits its acknowledgement. -/
def Obligations.PushPresentAndCadenceFramesGoOut : Prop :=
  ∀ (s : State) (n : Nat), n < 16384 → s.dev.pushing = true → s.dev.plainLane (n / 64) →
    let snake := n / 64
    let seq := s.dev.get (R.POSN_DN_SEQ snake (n % 64))
    let sent (t : State) (typ patch : Nat) (ws : List LinkWord) :=
      OutMsg.snakeFrame snake ws ∈ t.dev.out ∧ t.dev.flights n = s.dev.flights n ++ [⟨seq, typ, patch, 1, ws⟩] ∧
      t.dev.get (R.POSN_DN_SEQ snake (n % 64)) = (seq + 1) % 2 ^ 12 ∧
      t.dev.get (R.SNK_DN_FRAMES snake) = (s.dev.get (R.SNK_DN_FRAMES snake) + 1) % 2 ^ 64 ∧ t.hbm = s.hbm
    (∀ b rest, s.dev.push.cut = false → s.dev.buf snake = b :: rest → patchSquare b.patch = n → s.dev.toPush b.patch = true →
      s.dev.get (R.PSN_RETRY_OCC snake) + s.dev.largestPatch snake ≤ 196608 →
      (Instr.pushFrameStart snake).gives s fun t =>
        sent t ftPush b.patch (frameOf { ftype := ftPush, pos := n % 64, seq := seq, arg := patchNum b.patch }
          (bytesWords (ceilDiv b.bytes.length 8) b.bytes) false) ∧
        t.dev.buf snake = rest ∧ Tab.get? t.dev.snk.tx snake = some b.patch ∧ s.Within [8, 9] [.push, .snk] t) ∧
    (s.dev.push.sends = true → s.dev.pushable n = true → Tab.get? s.dev.push.fmap n = none → s.dev.pushesEnded n = true →
      let flips := s.dev.push.acked.filter (fun k => patchSquare k == n)
      (Instr.presentFrameStart snake (n % 64)).gives s fun t =>
        sent t ftPresent 0 (frameOf { ftype := ftPresent, pos := n % 64, seq := seq }
          ([BitVec.ofNat 64 (linkTime (s.dev.nextPresNs * perNs) + s.dev.dlOf n * 2 ^ 48), BitVec.ofNat 64 s.dev.comp.content] ++
            mapWords (flips.map patchNum)) false) ∧
        Tab.get? t.dev.push.fmap n = some flips ∧ s.Within [9] [.push, .snk] t) ∧
    (∀ c q, s.dev.push.cut = false → s.dev.sched.timing = some c → s.dev.square? n = some q → c.announced = true →
      c.ne ≤ s.dev.time.turn + 3 → s.dev.time.turn < c.ne → s.dev.pushable n = true → c.image = none →
      let b (x : Bool) (i : Nat) := if x then 2 ^ i else 0
      (Instr.cadenceFrameStart snake (n % 64)).gives s fun t =>
        sent t ftCadence 0 (frameOf { ftype := ftCadence, pos := n % 64, seq := seq }
          [BitVec.ofNat 64 c.ne,
            BitVec.ofNat 64 (c.num / c.den % 2 ^ 32 + b (decide (n ∈ s.dev.push.rezero ∧ s.dev.time.turn + 1 = c.ne)) 32),
            BitVec.ofNat 64 (q.w + q.h * 2 ^ 16 + q.orient * 2 ^ 32 + b q.mirror 34 + b s.dev.depth12 35)] false) ∧
        s.Within [9] [.snk] t)

/-- Acknowledgement (R406, R472, R496, R497): a SEQ that a side word reports ends its frame, and a pushed patch enters the flip
map before the cutoff; a frame refused or not acknowledged is sent again with its own SEQ while repeats are left, and is
given up after.

Echo, hold and underrun (R409, R410, R432 to R436, R443): an ECHO that carries the XOR of the PCRCs shown clears the
square's failures, one that does not counts one and damages the square; a square not presented for HOLD_TIME is damaged; an
underrun takes its patch out of the flip map. -/
def Obligations.FramesAreAcknowledgedAndEchoesCompared : Prop :=
  (∀ (s : State) (n : Nat) (f : Flight), n < 16384 → s.dev.flights n = [f] → f.ftype = ftPush →
     let snake := n / 64
     (∀ side u, upSide side = some u → u.stype = 4 → u.owned = true → u.ublk = n % 64 → u.ublk < s.dev.snakeSquares snake →
       s.dev.port snake = psRun → f.seq ∈ u.seqs → s.dev.push.cut = false → f.patch ∉ s.dev.push.left →
       (Instr.ackReceived snake side).gives s fun t =>
         f.patch ∈ t.dev.push.acked ∧ t.dev.flights n = [] ∧ (n ∈ t.dev.push.holding ↔ u.hold = true) ∧
         t.hbm = s.hbm ∧ t.pending = s.pending) ∧
     (s.dev.pushing = true → s.dev.push.cut = false → f.tries ≤ s.dev.get (R.SNK_PUSH_RETRY snake) → s.dev.plainLane snake →
       (Instr.ackTimeout snake (n % 64) f.seq).gives s fun t =>
         t.dev.flights n = [{ f with tries := f.tries + 1 }] ∧ OutMsg.snakeFrame snake f.words ∈ t.dev.out ∧
         t.dev.get (R.SNK_REPEAT_CNT snake) = (s.dev.get (R.SNK_REPEAT_CNT snake) + 1) % 2 ^ 64 ∧
         t.dev.get (R.SNK_ACK_TO_CNT snake) = (s.dev.get (R.SNK_ACK_TO_CNT snake) + 1) % 2 ^ 64 ∧
         t.dev.get (R.SNK_ACK_TO snake) = 1 ∧ t.hbm = s.hbm ∧ s.Within [9] [.snk] t) ∧
     (s.dev.get (R.SNK_PUSH_RETRY snake) < f.tries →
       (Instr.ackTimeout snake (n % 64) f.seq).gives s fun t =>
         t.dev.flights n = [] ∧ f.patch ∈ t.dev.push.left ∧ n ∈ t.dev.snk.gave ∧
         t.hbm = s.hbm ∧ t.pending = s.pending) ∧
     (∀ ws h pay, s.dev.hears snake (n % 64) ftNak ws h pay → bits (payWord pay 0) 11 0 = f.seq →
       s.dev.get (R.SNK_PUSH_RETRY snake) < f.tries →
       (Instr.nak snake (n % 64) ws).gives s fun t =>
         t.dev.flights n = [] ∧ f.patch ∈ t.dev.push.left ∧ n ∈ t.dev.snk.gave ∧
         t.dev.get (R.SNK_NAK_CNT snake) = (s.dev.get (R.SNK_NAK_CNT snake) + 1) % 2 ^ 64 ∧ t.dev.get (R.SNK_NAK snake) = 1 ∧
         t.dev.get (R.POSN_UP_SEQ snake (n % 64)) = h.seq % 2 ^ 12 ∧ t.hbm = s.hbm ∧ t.pending = s.pending)) ∧
  (∀ (s : State) (n : Nat), n < 16384 →
     let snake := n / 64
     (∀ ws h pay, s.dev.hears snake (n % 64) ftEcho ws h pay → Tab.get? s.dev.push.awaits n = some (payWord pay 0) →
       payMap pay 2 = [] →
       (bits (payWord pay 1) 31 0 = s.dev.echoValue n →
         (Instr.echo snake (n % 64) ws).gives s fun t =>
           Tab.getD t.dev.push.fails n 0 = 0 ∧ Tab.get? t.dev.push.awaits n = none ∧ n ∉ t.dev.push.faulty ∧
           t.dev.push.shown = s.dev.push.shown ∧ t.hbm = s.hbm ∧ s.Within [8, 9] [.push, .snk] t) ∧
       (bits (payWord pay 1) 31 0 ≠ s.dev.echoValue n →
         (Instr.echo snake (n % 64) ws).gives s fun t =>
           Tab.getD t.dev.push.fails n 0 = Tab.getD s.dev.push.fails n 0 + 1 ∧ Tab.get? t.dev.push.awaits n = none ∧
           t.dev.get R.PUSH_ECHO_MIS_CNT = (s.dev.get R.PUSH_ECHO_MIS_CNT + 1) % 2 ^ 64 ∧
           t.dev.get (R.PSN_ECHO_MIS snake) = 1 ∧
           (∀ q, s.dev.square? n = some q → ∀ k ∈ squarePatches n q, k ∈ t.dev.push.dmg) ∧
           (s.dev.get R.PUSH_ECHO_FAULT_N ≤ Tab.getD s.dev.push.fails n 0 + 1 → n ∈ t.dev.push.faulty) ∧
           t.hbm = s.hbm ∧ s.Within [8, 9] [.push, .snk] t)) ∧
     (∀ q, s.dev.square? n = some q → Tab.getD s.dev.push.lastPres n 0 + s.dev.holdMs * perMs ≤ s.dev.time.now →
       (Instr.holdTimeExpiry n).gives s fun t => (∀ k ∈ squarePatches n q, k ∈ t.dev.push.dmg) ∧ s.Only [] [.push] t) ∧
     (∀ k f, k / 256 = n → Tab.get? s.dev.snk.tx snake = some k →
       (s.dev.flights n).find? (fun f => f.ftype == ftPush && f.patch == k) = some f → s.dev.get R.PUSH_UR_MODE = 0 →
       (Instr.underrun snake).gives s fun t =>
         k ∈ t.dev.push.left ∧ k ∈ t.dev.push.underrun ∧ Tab.get? t.dev.push.pushed k = none ∧
         Tab.get? t.dev.snk.tx snake = none ∧ t.dev.get (R.PSN_UNDERRUN snake) = 1 ∧
         t.dev.get R.PUSH_UNDERRUN_CNT = (s.dev.get R.PUSH_UNDERRUN_CNT + 1) % 2 ^ 64 ∧ t.hbm = s.hbm ∧ t.pending = s.pending))

/-! ### Snake ports -/

/-- Enumeration (R500, R499, R511, R512): lock starts it at position 0, each reply gives the tile's identity and moves the walk
on, 64 measurements give the round trip, and the CONFIG reply of the last square puts the port in RUN; replies that stay
away are asked for again. -/
def Obligations.ASnakeIsEnumeratedSquareBySquare : Prop :=
  ∀ (s : State) (n : Nat), n < 256 → s.dev.plainLane n → s.dev.push.cut = false →
    (s.dev.port n = psLocking →
      (Instr.codewordLock n).gives s fun t =>
        t.dev.port n = psEnum ∧ Tab.get? t.dev.snk.walks n = some ⟨.release, 0, 0, 1, 0, 0, false⟩ ∧
        (∀ p, p < 64 → s.dev.isLost (64 * n + p) = false → t.dev.get (R.POSN_SQ_STATE n p) = 0) ∧
        OutMsg.snakeFrame n (frameOf { ftype := ftEnum, pos := 0, bcast := 1, arg := 4 } [] false) ∈ t.dev.out ∧
        t.hbm = s.hbm ∧ t.pending = s.pending) ∧
    (∀ w, Tab.get? s.dev.snk.walks n = some w → w.step = .release →
      (Instr.releaseWaitDone n).gives s fun t =>
        Tab.get? t.dev.snk.walks n = some { w with step := .assign, tries := 1 } ∧
        OutMsg.snakeFrame n (frameOf { ftype := ftEnum, pos := w.pos, arg := 1 } [] false) ∈ t.dev.out ∧
        s.Noting [R.SNK_ENUM_POS n, R.SNK_DN_FRAMES n] [.snk] t) ∧
    (∀ w, Tab.get? s.dev.snk.walks n = some w → w.step = .assign → ∀ p, w.pos = p → p < 63 →
      ∀ ws h pay, s.dev.hears n p ftEnum ws h pay → h.arg = 1 →
      (Instr.enumReply n p ws).gives s fun t =>
        t.dev.get (R.POSN_TILE_ID n p) = payWord pay 0 ∧ t.dev.get (R.POSN_TILE_TYPE n p) = bits (payWord pay 1) 31 0 ∧
        t.dev.get (R.POSN_SQ_STATE n p) = 1 ∧ Tab.get? t.dev.snk.walks n = some { w with pos := p + 1, tries := 1 } ∧
        t.hbm = s.hbm ∧ s.Within [9] [.snk] t) ∧
    (∀ w, Tab.get? s.dev.snk.walks n = some w → w.step = .assign → w.tries < s.dev.get (R.SNK_ENUM_RETRY n) →
      (Instr.enumReplyTimeout n).gives s fun t =>
        Tab.get? t.dev.snk.walks n = some { w with tries := w.tries + 1 } ∧
        s.Noting [R.SNK_ENUM_POS n, R.SNK_DN_FRAMES n] [.snk] t) ∧
    (∀ w sum64, Tab.get? s.dev.snk.walks n = some w → w.step = .loop → w.pos + 1 < s.dev.snakeSquares n → w.pos < 64 →
      (Instr.rttMeasureDone n sum64).gives s fun t =>
        t.dev.get (R.POSN_RTT_UI n w.pos) = (sum64 + 32) / 64 % 2 ^ 32 ∧
        Tab.get? t.dev.snk.walks n = some { w with pos := w.pos + 1 } ∧
        s.Noting [R.POSN_RTT_UI n w.pos, R.SNK_ENUM_POS n, R.SNK_DN_FRAMES n] [.snk] t) ∧
    (∀ w, Tab.get? s.dev.snk.walks n = some w → w.step = .config → ∀ p, w.pos = p → p + 1 = s.dev.snakeSquares n →
      ∀ ws h pay, s.dev.hears n p ftEnum ws h pay → h.arg = 3 → bits (payWord pay 0) 3 0 = 0 →
      (Instr.enumReply n p ws).gives s fun t =>
        t.dev.port n = psRun ∧ Tab.get? t.dev.snk.walks n = none ∧
        (w.measure = false → t.dev.get (R.SNK_ENUM_DONE n) = 1 ∧ t.dev.pends (432 + n) = true) ∧ t.hbm = s.hbm ∧
        t.pending = s.pending)

/-- What a snake port does at a loss and on command (R510, R511, R879): lock lost leads to LOCKING, a lost square to RECOVER
from the lowest one lost, RESTART from a position, MEASURE of every square; a synthesizer unlocked for 1 ms to FATAL.

Maintenance and settings of a snake (R487, R489, R512, R516, R521, R607): a MAINT frame goes out and its status waits, its
reply gives the data, no reply gives status 8; a write of FI_CTL or SNK_SENSE in range takes its fields and one out of range
is flagged. -/
def Obligations.PortsRecoverAndSnakesAreMaintained : Prop :=
  (∀ (s : State) (n p : Nat), n < 256 → p < 64 →
     (s.dev.port n = psEnum ∨ s.dev.port n = psRun ∨ s.dev.port n = psRecover →
       (Instr.codewordLockLost n).gives s fun t =>
         t.dev.port n = psLocking ∧ t.dev.get (R.SNK_LINK_DOWN n) = 1 ∧ t.dev.pends (432 + n) = true ∧
         Tab.get? t.dev.snk.walks n = none ∧ t.dev.buf n = (s.dev.buf n).filter (fun b => patchSquare b.patch / 64 != n) ∧
         t.hbm = s.hbm ∧ t.pending = s.pending) ∧
     (s.dev.port n = psRun → s.dev.isLost (64 * n + p) = false → p < s.dev.snakeSquares n → Tab.get? s.dev.snk.walks n = none →
       (Instr.sqLost n p).gives s fun t =>
         t.dev.port n = psRecover ∧ t.dev.isLost (64 * n + p) = true ∧ t.dev.get (R.SNK_SQ_LOST n) = 1 ∧
         t.dev.pends (432 + n) = true ∧
         (∃ w, Tab.get? t.dev.snk.walks n = some w ∧ w.step = .release ∧ w.first ≤ p) ∧ t.hbm = s.hbm ∧ t.pending = s.pending) ∧
     (s.dev.domOn (55 + n / 4) = true → s.dev.port n = psRun → p < s.dev.snakeSquares n → Tab.get? s.dev.snk.walks n = none →
       (Instr.restart n p).gives s fun t =>
         t.dev.port n = psRecover ∧ Tab.get? t.dev.snk.walks n = some ⟨.release, p, p, 1, 0, 0, false⟩ ∧
         (∀ j, p ≤ j → j < s.dev.snakeSquares n → j < 64 → t.dev.isLost (64 * n + j) = true) ∧ t.hbm = s.hbm ∧
         t.pending = s.pending) ∧
     (s.dev.domOn (55 + n / 4) = true → s.dev.port n = psRun →
       (Instr.measure n).gives s fun t =>
         t.dev.port n = psRecover ∧
         Tab.get? t.dev.snk.walks n = some ⟨.loop, 0, 0, 1, 0, s.dev.get (R.SNK_N_FOUND n), true⟩ ∧ t.hbm = s.hbm ∧
         t.pending = s.pending) ∧
     (s.dev.domOn (55 + n / 4) = true → s.dev.port n ≠ psRun →
       (Instr.measure n).gives s fun t =>
         t.dev.get (R.SNK_WRANGE n) = 1 ∧ t.dev.pends (432 + n) = true ∧ s.Noting [R.SNK_WRANGE n] [] t) ∧
     (s.dev.port n ≠ psDown → s.dev.port n ≠ psFatal →
       (Instr.snakeSynthTimeout (n / 4)).gives s fun t =>
         t.dev.port n = psFatal ∧ t.dev.get (R.SNK_FATAL n) = 1 ∧ t.dev.pends (432 + n) = true ∧ t.hbm = s.hbm ∧
         t.pending = s.pending)) ∧
  (∀ (s : State) (n : Nat), n < 256 → s.dev.domOn (55 + n / 4) = true →
     let pos := s.dev.get (R.SNK_M_POS n)
     let op := s.dev.get (R.SNK_M_OP n)
     (s.dev.port n = psRun → op ≠ 2 → s.dev.plainLane n → s.dev.push.cut = false →
       (Instr.maintSend n).gives s fun t =>
         t.dev.get (R.SNK_M_STATUS n) = 15 ∧ Tab.get? t.dev.snk.maint n = some (pos, op) ∧
         OutMsg.snakeFrame n (frameOf { ftype := ftMaint, pos := pos, arg := op }
           [BitVec.ofNat 64 (s.dev.get (R.SNK_M_ADDR n) + s.dev.get (R.SNK_M_NWORDS n) * 2 ^ 32)] false) ∈ t.dev.out ∧
         s.Only [R.SNK_M_STATUS n, R.SNK_DN_FRAMES n] [.snk, .out] t) ∧
     (Tab.get? s.dev.snk.maint n = some (pos, op) → ∀ ws h pay, s.dev.hears n pos ftMaint ws h pay → h.arg = op → op = 1 →
       bits (payWord pay 0) 3 0 = 0 →
       (Instr.maintReply n pos ws).gives s fun t =>
         t.dev.get (R.SNK_M_STATUS n) = 0 ∧ t.dev.get (R.SNK_MAINT_DONE n) = 1 ∧ t.dev.pends (432 + n) = true ∧
         Tab.get? t.dev.snk.maint n = none ∧
         (∀ i, i ≤ s.dev.get (R.SNK_M_NWORDS n) → i < 8 → t.dev.get (R.SNK_M_DATA n i) = payWord pay (i + 1)) ∧
         t.hbm = s.hbm ∧ s.Within [9] [.snk] t) ∧
     ((Tab.get? s.dev.snk.maint n).isSome = true →
       (Instr.maintTimeout n).gives s fun t =>
         t.dev.get (R.SNK_M_STATUS n) = 8 ∧ t.dev.get (R.SNK_MAINT_DONE n) = 1 ∧ Tab.get? t.dev.snk.maint n = none ∧
         s.Noting [R.SNK_M_STATUS n, R.SNK_MAINT_DONE n] [.snk] t) ∧
     (∀ v : BitVec 32, s.dev.get (R.SNK_LOCK n) = 0 → bits v.toNat 31 16 ≠ 0 → bit v.toNat 0 = 0 →
       (Instr.fiCtlWrite n 0x40 v).gives s fun t =>
         t.dev.get (R.SNK_EN_40 n) = 0 ∧ t.dev.get (R.SNK_ACTION n) = bits v.toNat 3 1 ∧
         t.dev.get (R.SNK_FTYPE n) = bits v.toNat 7 4 ∧ t.dev.get (R.SNK_PERIOD n) = bits v.toNat 31 16 ∧
         s.Only [R.SNK_EN_40 n, R.SNK_ACTION n, R.SNK_FTYPE n, R.SNK_POS_40 n, R.SNK_POS_EN n, R.SNK_PERIOD n] [] t) ∧
     (∀ v : BitVec 32, s.dev.get (R.SNK_LOCK n) = 0 → bits v.toNat 19 16 ≠ 0 →
       (Instr.fiCtlWrite n 0x44 v).gives s fun t =>
         t.dev.get (R.SNK_COUNT n) = bits v.toNat 15 0 ∧ t.dev.get (R.SNK_SYMS n) = bits v.toNat 19 16 ∧
         s.Only [R.SNK_COUNT n, R.SNK_SYMS n] [] t) ∧
     (∀ v : BitVec 32, let health := bits v.toNat 15 0
       let hz := bits v.toNat 25 16
       let cell := bits v.toNat 28 26
       s.dev.get (R.SNK_LOCK n) = 0 →
       (10 ≤ health → health ≤ 10000 → hz ≤ 1000 → 3 ≤ cell → cell ≤ 5 → (∀ p ∈ s.dev.geo.squares, p.1 / 64 ≠ n) →
         (Instr.snkSenseWrite n v).gives s fun t =>
           t.dev.get (R.SNK_HEALTH_MS n) = health ∧ t.dev.get (R.SNK_SENSE_HZ n) = hz ∧ t.dev.get (R.SNK_CELL_LOG2 n) = cell ∧
           t.hbm = s.hbm ∧ s.Within [9] [.snk] t) ∧
       (health < 10 ∨ 10000 < health ∨ 1000 < hz ∨ cell < 3 ∨ 5 < cell →
         (Instr.snkSenseWrite n v).gives s fun t =>
           t.dev.get (R.SNK_WRANGE n) = 1 ∧ t.dev.get (R.SNK_SENSE_HZ n) = s.dev.get (R.SNK_SENSE_HZ n) ∧
           s.Noting [R.SNK_WRANGE n] [] t)))

/-! ### Tables -/

/-- A table forms and divides (R447 to R449, R452, R547): the HELLO of a member with this image makes the table channel of its
port, one of an index that no peer can have raises event 12, one of another image makes none; the ruler's TURN tells the
next present instant, and one of a part that rules over this one settles whose turn is joined; a member whose messages stop
leaves the part, which is then divided and takes its lowest index as ruler where it has lost its own. -/
def Obligations.TablesFormAndDivide : Prop :=
  ∀ (s : State) (port : Nat) (bytes : List Byte) (h : TableHdr) (body : List Byte), port < 8 →
    (readTable 1 bytes = some (h, body) → body.length = 48 → s.dev.tablePort port = true → s.dev.table ≠ tsAlone →
      (h.src < s.dev.geo.devices → h.src ≠ s.dev.ownIdx → slice body 16 32 = s.dev.geo.hash →
        (Instr.hello port bytes).gives s fun t =>
          (∃ c, t.dev.chan? clsTable port = some c ∧ c.record = leBytes 1 port ++ leBytes 1 h.src ∧ c.retiring = false) ∧
          Tab.get? t.dev.tbl.epochs h.src = some h.epoch ∧
          t.dev.table = (if s.dev.table = tsDivided ∧ h.src ∉ s.dev.tbl.part then tsResync else s.dev.table) ∧
          t.hbm = s.hbm ∧ s.Within [3, 8, 10] [.ch, .tbl] t) ∧
      (s.dev.geo.devices ≤ h.src ∨ h.src = s.dev.ownIdx →
        (Instr.hello port bytes).gives s fun t => t.dev.pends 12 = true ∧ s.Noting [] [] t) ∧
      (h.src < s.dev.geo.devices → h.src ≠ s.dev.ownIdx → slice body 16 32 ≠ s.dev.geo.hash →
        (Instr.hello port bytes).gives s fun t => s.Noting [] [] t)) ∧
    (readTable 2 bytes = some (h, body) → body.length = 32 → s.dev.takes port h = true → s.dev.forMe h = true →
      let next := leAt body 0 8
      let ruler := byteAt body 18
      (ruler = s.dev.get R.PUSH_RULER →
        (Instr.turnMessage port bytes).gives s fun t =>
          t.dev.tbl.told = some (next, leAt body 8 4 + leAt body 12 6 * 1000000000) ∧
          (s.dev.rules = false → t.dev.get R.PUSH_EPOCH = h.epoch % 2 ^ 32) ∧
          (s.dev.rules = true → t.dev.get R.PUSH_EPOCH = s.dev.get R.PUSH_EPOCH) ∧
          t.hbm = s.hbm ∧ s.Within [8] [.tbl, .bank] t) ∧
      (ruler ≠ s.dev.get R.PUSH_RULER → s.dev.table = tsResync → s.dev.sched.resync = none →
        let mine := s.dev.get R.PUSH_EPOCH
        (Instr.turnMessage port bytes).gives s fun t =>
          (mine < h.epoch ∨ (mine = h.epoch ∧ ruler < s.dev.get R.PUSH_RULER) →
            t.dev.tbl.joining = some (ruler, h.epoch) ∧ t.dev.sched.resync = some (s.dev.time.turn + 8, next + 7, true)) ∧
          (h.epoch < mine ∨ (mine = h.epoch ∧ s.dev.get R.PUSH_RULER < ruler) →
            t.dev.tbl.joining = some (s.dev.get R.PUSH_RULER, mine) ∧
            t.dev.sched.resync = some (s.dev.time.turn + 8, s.dev.time.turn + 8, false)) ∧
          s.Only [] [.tbl, .sched, .out] t)) ∧
    (∀ peer, peer < 8 →
      (Instr.tablePeerLost peer).gives s fun t =>
        Tab.get? t.dev.tbl.alarms peer = none ∧ Tab.get? t.dev.tbl.epochs peer = none ∧
        (∀ p ∈ t.dev.liveOf clsTable, byteAt p.2.record 1 ≠ peer) ∧
        (peer ∉ s.dev.tbl.part → s.Only ledgerFields [.ch, .tbl, .pip] t) ∧
        (peer ∈ s.dev.tbl.part → s.dev.table = tsJoined ∨ s.dev.table = tsResync ∨ s.dev.table = tsDivided →
          t.dev.table = tsDivided ∧ t.dev.tbl.part = s.dev.tbl.part.filter (· ≠ peer) ∧ t.dev.tbl.offers = [] ∧
          (s.dev.table ≠ tsDivided → t.dev.pends 837 = true) ∧
          (peer ≠ s.dev.get R.PUSH_RULER → t.dev.get R.PUSH_RULER = s.dev.get R.PUSH_RULER ∧
            t.dev.get R.PUSH_EPOCH = s.dev.get R.PUSH_EPOCH) ∧
          (peer = s.dev.get R.PUSH_RULER →
            t.dev.get R.PUSH_RULER = (s.dev.tbl.part.filter (· ≠ peer)).foldl min s.dev.ownIdx ∧
            t.dev.get R.PUSH_EPOCH = (s.dev.get R.PUSH_EPOCH + 1) % 2 ^ 32 ∧ t.dev.pends 839 = true)) ∧
        t.hbm = s.hbm ∧ t.pending = s.pending)

/-- What the messages between members do (R114, R172, R384, R549, R550, R631): the ruler acts on a request and a member on its
ruler's decisions, both pass a message on to the member that it is for; rows of a frame that a layer reads are kept, and
readings of ambient light are noted. -/
def Obligations.MembersForwardDecideAndShare : Prop :=
  ∀ (s : State) (port : Nat) (h : TableHdr), port < 8 → s.dev.takes port h = true →
    (s.dev.forMe h = true → ∀ peer on0 on1, s.dev.rules = true →
      (Instr.forward port h (.alarms peer on0 on1)).gives s fun t =>
        Tab.get? t.dev.tbl.alarms peer = some ((if on0 then 1 else 0) + if on1 then 2 else 0) ∧
        (s.dev.grouped = true → on0 = true → t.dev.get R.SNS_ON0 = 1) ∧ (s.dev.grouped = true → on1 = true → t.dev.get R.SNS_ON1 = 1) ∧
        t.hbm = s.hbm ∧ t.pending = s.pending) ∧
    (s.dev.forMe h = true → ∀ req, s.dev.rules = false →
      (Instr.forward port h req).gives s fun t =>
        Tab.get? t.dev.tbl.epochs h.src = some h.epoch ∧ s.Only [] [.tbl, .out] t) ∧
    (s.dev.forMe h = true → ∀ b, s.dev.grouped = true → s.dev.rules = false →
      (h.src = s.dev.get R.PUSH_RULER →
        (Instr.state port h [.bright b]).gives s fun t => t.dev.cal.bRuler = some b ∧ s.Only [] [.cal, .tbl, .out] t) ∧
      (h.src ≠ s.dev.get R.PUSH_RULER → ∀ l, (Instr.state port h l).gives s fun t => s.Only [] [.tbl, .out] t)) ∧
    (s.dev.forMe h = true → ∀ lux,
      (Instr.ambient port h lux).gives s fun t =>
        Tab.get? t.dev.cal.ambPeers h.src = some (lux, s.dev.time.now) ∧ s.Only [] [.cal, .tbl, .out] t) ∧
    (∀ (p : Nat) (req : TableReq), s.dev.forMe h = false → h.hops < 7 → s.dev.tablePorts.find? (fun x => x.2 == h.dst) = some (p, h.dst) →
      p ≠ port →
      (Instr.forward port h req).gives s fun t =>
        OutMsg.tableReq p ⟨h.src, h.dst, h.hops + 1, h.epoch, Tab.getD s.dev.tbl.sent p 0⟩ req ∈ t.dev.out ∧
        s.Only [] [.tbl, .out] t) ∧
    (∀ bytes body, readTable 5 bytes = some (h, body) → s.dev.forMe h = true → s.canonical → 16 ≤ body.length →
      let hd := leAt body 0 4
      let ts := leAt body 4 4
      let first := leAt body 8 2
      let count := leAt body 10 2
      let len := (body.length - 16) / count
      let key := h.src * 2 ^ 32 + hd
      (s.dev.rowsWanted h.src hd = [] → (Instr.frame port bytes).gives s fun t => s.Only [] [.tbl, .out] t) ∧
      (s.dev.rowsWanted h.src hd ≠ [] → 0 < count → body.length = 16 + len * count → len % 4 = 0 → 0 < len →
        handleCls hd = clsIngest → handleIdx hd < 512 →
        ∀ r, Tab.get? s.dev.tbl.remote key = some r → r.ts = ts → ∀ u, s.dev.surf? (remoteKey h.src (handleIdx hd) r.slot) = some u →
        u.w = len / 4 → u.h = ((s.dev.rowsWanted h.src hd).map (·.2)).foldl max 0 →
        (∀ j j' i i', j < count → j' < count → i < len → i' < len →
          u.addr ((first + j) * u.pitch + i) = u.addr ((first + j') * u.pitch + i') → j = j' ∧ i = i') →
        (Instr.frame port bytes).gives s fun t =>
          (∃ r', Tab.get? t.dev.tbl.remote key = some r' ∧ r'.ts = ts ∧ r'.slot = r.slot ∧
            ∀ j, j < count → first + j ∈ r'.rows) ∧
          (∀ j, j < count → first + j < u.h → t.surfGet u ((first + j) * u.pitch) len = slice body (16 + j * len) len) ∧
          (∀ a, (∀ j i, j < count → first + j < u.h → i < len → u.addr ((first + j) * u.pitch + i) ≠ a) →
            Memory.get t.hbm a = Memory.get s.hbm a) ∧
          s.Within [5] [.tbl, .mem] t))

/-! ### Ingest and clips -/

/-- Packets (R526, R534 to R541): a frame that is no datagram is counted as a parse error and an ARP request is answered; a
datagram that no flow matches is counted, one whose SSRC differs is counted under its own bit; a packet that passes every
check is in its frame, and its samples lie in the frame's surface. A port in TABLE mode takes none. -/
def Obligations.PacketsReachTheirFrames : Prop :=
  ∀ (s : State) (port : Nat) (bytes : List Byte), port < 8 →
    (s.dev.get (R.IPORT_TABLE port) = 1 → exec (.ingestFrameReceive port bytes) s = .next s) ∧
    (s.dev.get (R.IPORT_TABLE port) = 0 →
      (readEther bytes = none →
        (Instr.ingestFrameReceive port bytes).gives s fun t =>
          t.dev.get (R.IPORT_RX_PKTS port) = (s.dev.get (R.IPORT_RX_PKTS port) + 1) % 2 ^ 64 ∧
          t.dev.get (R.IPORT_RX_BYTES port) = (s.dev.get (R.IPORT_RX_BYTES port) + bytes.length) % 2 ^ 64 ∧
          t.dev.get (R.IPORT_PARSE_CNT port) = (s.dev.get (R.IPORT_PARSE_CNT port) + 1) % 2 ^ 64 ∧
          t.dev.get (R.IPORT_PARSE port) = 1 ∧
          s.Noting [R.IPORT_RX_PKTS port, R.IPORT_RX_BYTES port, R.IPORT_PARSE_CNT port, R.IPORT_PARSE port] [] t) ∧
      (∀ e, readEther bytes = some e →
        (e.etype = 0x0806 → arpRequest (s.dev.get (R.IPORT_IP_ADDR port)) e.body = true →
          (Instr.ingestFrameReceive port bytes).gives s fun t =>
            OutMsg.arpReply port (slice e.body 8 6) (slice e.body 14 4) ∈ t.dev.out ∧
            s.Only [R.IPORT_RX_PKTS port, R.IPORT_RX_BYTES port] [.out] t) ∧
        (∀ g, e.etype = 0x0800 → readDatagram e.body = some g → g.dport ≠ 319 → g.dport ≠ 320 → ∀ p, readRtp g.payload = some p →
          (s.dev.flowsMatching port e.vid g p.pt = [] →
            (Instr.ingestFrameReceive port bytes).gives s fun t =>
              t.dev.get (R.IPORT_NOMATCH_CNT port) = (s.dev.get (R.IPORT_NOMATCH_CNT port) + 1) % 2 ^ 64 ∧
              t.dev.get (R.IPORT_NOMATCH port) = 1 ∧
              s.Noting [R.IPORT_RX_PKTS port, R.IPORT_RX_BYTES port, R.IPORT_NOMATCH_CNT port, R.IPORT_NOMATCH port] [] t) ∧
          (∀ en i leg ch, s.dev.flowsMatching port e.vid g p.pt = [(en, i, leg)] → s.dev.chan? clsIngest i = some ch →
            let c := s.dev.ing? i
            let seq := packetSeq ch.record p
            ((c.leg leg).ssrc.any (fun x => x != p.ssrc) = true →
              (Instr.ingestFrameReceive port bytes).gives s fun t =>
                t.dev.get (R.IPORT_SSRC_CNT port) = (s.dev.get (R.IPORT_SSRC_CNT port) + 1) % 2 ^ 64 ∧
                t.dev.get (R.IPORT_SSRC port) = 1 ∧
                s.Noting [R.IPORT_RX_PKTS port, R.IPORT_RX_BYTES port, R.IPORT_SSRC_CNT port, R.IPORT_SSRC port] [] t) ∧
            (∀ f row px b u, (c.leg leg).ssrc.any (fun x => x != p.ssrc) = false → s.dev.tsInWindow p.ts = true →
              c.frames.find? (fun f => f.ts == p.ts) = some f → f.complete = false → seq ∉ f.seqs → p.ts ∉ c.closed →
              c.newest = none → s.dev.get R.ING_POLICE_EN = 0 → iMode ch.record = 0 →
              packetRuns ch.record p.payload = some [(row, px, b)] → s.dev.surf? (frameKey i f.slot) = some u → s.canonical →
              let off := row * u.pitch + 4 * px
              let pix := storedRun (iDepth ch.record) b
              (∀ j k, j < pix.length → k < pix.length → u.addr (off + j) = u.addr (off + k) → j = k) →
              (Instr.ingestFrameReceive port bytes).gives s fun t =>
                (∃ f' ∈ (t.dev.ing? i).frames, f'.ts = p.ts ∧ f'.slot = f.slot ∧ f'.seqs = seq :: f.seqs ∧
                  (p.marker = true → f'.marker = some seq)) ∧
                ((t.dev.ing? i).leg leg).ssrc = some p.ssrc ∧
                ((t.dev.ing? i).leg leg).bytes = (c.leg leg).bytes + g.size ∧
                t.surfGet u off pix.length = pix ∧
                (∀ a, (∀ j, j < pix.length → u.addr (off + j) ≠ a) → Memory.get t.hbm a = Memory.get s.hbm a) ∧
                s.Within [5, 10] [.ing, .mem] t)))))

/-- Frames and channels (R540 to R546): a frame that is complete and decoded becomes the newest ready one unless a newer one is;
a decoded slice fills its rows, one that fails closes its frame; a lost leg and a stale channel are flagged once, and the
policing window restarts every count. -/
def Obligations.FramesBecomeReadyInOrder : Prop :=
  (∀ (s : State) (i : Nat) (ch : Chan), i < 512 → s.dev.chan? clsIngest i = some ch →
    let c := s.dev.ing? i
    (∀ f, c.frames.find? (fun f => f.complete && f.decoded ch.record) = some f →
      (c.newest.any (fun r => !tsAfter f.ts r.ts) = false →
        (Instr.frameReady i).gives s fun t =>
          (t.dev.ing? i).newest = some ⟨f.slot, c.serial + 1, f.ts⟩ ∧ (t.dev.ing? i).serial = c.serial + 1 ∧
          (t.dev.ing? i).taken = false ∧ (∀ g ∈ (t.dev.ing? i).frames, g.ts ≠ f.ts) ∧
          (t.dev.ing? i).dropped = c.dropped + (if c.newest.isSome = true ∧ c.taken = false then 1 else 0) ∧
          (∀ x, x ≠ i → t.dev.ing? x = s.dev.ing? x) ∧
          s.Only [R.IPORT_READY_CNT (legPort (legOf ch.record 0))] [.ing, .tbl, .out] t) ∧
      (c.newest.any (fun r => !tsAfter f.ts r.ts) = true →
        (Instr.frameReady i).gives s fun t =>
          (t.dev.ing? i).newest = c.newest ∧ (∀ g ∈ (t.dev.ing? i).frames, g.ts ≠ f.ts) ∧
          s.Only [R.IPORT_INCOMPLETE_CNT (legPort (legOf ch.record 0))] [.ing, .tbl, .out] t)) ∧
    (∀ f, c.frames.find? (fun f => !f.decoded ch.record) = some f →
      let j := iDecoder ch.record
      (∀ first bytes u, s.dev.surf? (frameKey i f.slot) = some u → u.w = iWidth ch.record → 0 < u.w → s.canonical →
        let n := min (bytes.length / (4 * u.w)) (iHeight ch.record - first)
        (∀ k k' x x', k < n → k' < n → x < 4 * u.w → x' < 4 * u.w →
          u.addr ((first + k) * u.pitch + x) = u.addr ((first + k') * u.pitch + x') → k = k' ∧ x = x') →
        (Instr.xsSliceDecoded i (.rows first bytes)).gives s fun t =>
          (∀ k, k < n → t.surfGet u ((first + k) * u.pitch) (4 * u.w) = slice bytes (4 * u.w * k) (4 * u.w)) ∧
          (∀ a, (∀ k x, k < n → x < 4 * u.w → u.addr ((first + k) * u.pitch + x) ≠ a) →
            Memory.get t.hbm a = Memory.get s.hbm a) ∧
          (∃ g ∈ (t.dev.ing? i).frames, g.ts = f.ts ∧ ∀ k, k < n → first + k ∈ g.rows) ∧
          t.dev.get (R.XSD_SLICES j) = (s.dev.get (R.XSD_SLICES j) + 1) % 2 ^ 64 ∧
          t.dev.get (R.XSD_PIXELS j) = (s.dev.get (R.XSD_PIXELS j) + n * u.w) % 2 ^ 64 ∧ s.Within [5, 10] [.ing, .mem] t) ∧
      (∀ r : XsResult, r = .failed ∨ r = .unsupported →
        (Instr.xsSliceDecoded i r).gives s fun t =>
          (r = .failed → t.dev.get (R.XSD_XS_ERR j) = 1) ∧ (r = .unsupported → t.dev.get (R.XSD_XS_UNSUP j) = 1) ∧
          t.dev.get (R.XSD_XS_ERR_CNT j) = (s.dev.get (R.XSD_XS_ERR_CNT j) + 1) % 2 ^ 64 ∧
          (∀ g ∈ (t.dev.ing? i).frames, g.ts ≠ f.ts) ∧ t.dev.get R.ING_INCOMPLETE = 1 ∧
          t.hbm = s.hbm ∧ s.Within [10] [.ing] t)) ∧
    (∀ leg, leg < 2 → (leg = 1 → iLegB ch.record = true) → (c.leg leg).lost = false →
      (Instr.legLost i leg).gives s fun t =>
        ((t.dev.ing? i).leg leg).lost = true ∧ t.dev.get R.ING_LEG_LOST = 1 ∧ t.dev.pends 706 = true ∧
        s.Noting [R.ING_LEG_LOST] [.ing] t) ∧
    (c.stale = false →
      (Instr.stale i).gives s fun t =>
        t.dev.ing? i = { c with stale := true, legA := { c.legA with ssrc := none }, legB := { c.legB with ssrc := none } } ∧
        t.dev.get R.ING_STALE = 1 ∧ t.dev.pends 705 = true ∧ s.Noting [R.ING_STALE] [.ing] t)) ∧
  ∀ s : State,
    (Instr.policeWindowEnd.gives s fun t =>
      (∀ i, t.dev.ing? i = { s.dev.ing? i with
        legA := { (s.dev.ing? i).legA with bytes := 0 }
        legB := { (s.dev.ing? i).legB with bytes := 0 } }) ∧ s.Only [] [.ing] t) ∧
    ∀ port, port < 8 →
      ((Instr.ingestLinkChange port true).gives s fun t =>
        t.dev.get (R.IPORT_LINK_UP port) = 1 ∧ s.Only [R.IPORT_LINK_UP port] [.tbl, .out] t) ∧
      ((Instr.ingestLinkChange port false).gives s fun t =>
        t.dev.get (R.IPORT_LINK_UP port) = 0 ∧ t.dev.get (R.IPORT_LINK_DOWN port) = 1 ∧
        s.Noting [R.IPORT_LINK_UP port, R.IPORT_LINK_DOWN port] [] t)

/-- The clip store (R551 to R553, R557): FORMAT takes every READY drive and ends what was being written, its end gives the
capacity; a drive that answers is READY, and one that is lost, is replaced or is late twice FAILED, and with it the store
that it is a member of.

Clips (R557, R560): a pack that is stored joins the store and its command completes OK, one that met poison leaves no clip;
a frame that the drives return lies in its lookahead surface where its check holds, is read once more where it fails, and is
skipped when it fails again. -/
def Obligations.TheClipStoreHoldsAndReadsClips : Prop :=
  (∀ (s : State) (r : Nat), r < 8 →
     let member := s.dev.isMember r = true ∧ (s.dev.store = storeReady ∨ s.dev.store = storeFormatting)
     let failsIt (t : State) : Prop :=
       t.dev.get (R.DRV_STATE r) = drvFailed ∧ t.dev.get (R.DRV_FAILED r) = 1 ∧ t.dev.pends (720 + r) = true ∧
       tbit (t.dev.get R.CLIP_PRESENT) r = false ∧
       (member → t.dev.store = storeFailed ∧ t.dev.get R.CLIP_STORE_FAIL = 1 ∧ t.dev.pends 728 = true ∧ t.dev.ing.jobs = []) ∧
       (¬member → t.dev.store = s.dev.store) ∧ t.hbm = s.hbm ∧ s.Within [2, 11] [.ing, .q] t
     (s.dev.domOn 130 = true →
       Instr.format.gives s fun t =>
         t.dev.store = storeFormatting ∧ t.dev.get R.CLIP_CAP_BYTES = 0 ∧ t.dev.get R.CLIP_CLIPS = 0 ∧ t.dev.ing.packs = [] ∧
         t.dev.ing.jobs = [] ∧
         t.dev.ing.members = (s.dev.ing.drives.filter (fun p => s.dev.get (R.DRV_STATE p.1) == drvReady)).map
           (fun p => (p.1, p.2.serial)) ∧ t.hbm = s.hbm ∧ s.Within [2, 11] [.ing, .q] t) ∧
     (s.dev.store = storeFormatting →
       let sizes := (s.dev.ing.drives.filter (fun p => s.dev.isMember p.1)).map (fun p => p.2.sizeBytes)
       Instr.formatDone.gives s fun t =>
         t.dev.store = storeReady ∧ t.dev.get R.CLIP_CAP_BYTES = managed sizes ∧ t.dev.get R.CLIP_FORMAT_DONE = 1 ∧
         (s.dev.ing.packs = [] → t.dev.get R.CLIP_FREE_BYTES = managed sizes) ∧
         s.Only [R.CLIP_STORE, R.CLIP_CAP_BYTES, R.CLIP_CLIPS, R.CLIP_FREE_BYTES, R.CLIP_FORMAT_DONE] [] t) ∧
     (r ∉ s.dev.ing.late →
       (Instr.driveTimeout r).gives s fun t =>
         t.dev.get (R.DRV_TO_CNT r) = (s.dev.get (R.DRV_TO_CNT r) + 1) % 2 ^ 64 ∧ t.dev.get (R.DRV_CMD_TO r) = 1 ∧
         r ∈ t.dev.ing.late ∧ s.Noting [R.DRV_TO_CNT r, R.CLIP_CMD_TO_CNT, R.DRV_CMD_TO r] [.ing] t) ∧
     (r ∈ s.dev.ing.late → (Instr.driveTimeout r).gives s fun t => r ∉ t.dev.ing.late ∧ failsIt t) ∧
     ((Instr.driveLinkLoss r).gives s fun t => t.dev.get (R.DRV_LINK_UP r) = 0 ∧ t.dev.get (R.DRV_LINK_DOWN r) = 1 ∧ failsIt t) ∧
     (∀ i : DriveInfo, i.port = r →
       (((Tab.get? s.dev.ing.members r).all (fun x => x == i.serial) = true ∨
           s.dev.store = storeNone ∨ s.dev.store = storeFailed) →
         (Instr.driveLinkUp i).gives s fun t =>
           t.dev.get (R.DRV_STATE r) = (if i.blockBytes = 4096 then drvReady else drvForeign) ∧ t.dev.get (R.DRV_LINK_UP r) = 1 ∧
           t.dev.get (R.DRV_SIZE r) = i.sizeBytes % 2 ^ 64 ∧ tbit (t.dev.get R.CLIP_PRESENT) r = (i.blockBytes == 4096) ∧
           Tab.get? t.dev.ing.drives r = some i ∧
           s.Only [R.DRV_STATE r, R.DRV_LINK_UP r, R.DRV_SIZE r, R.CLIP_PRESENT] [.ing] t) ∧
       ((Tab.get? s.dev.ing.members r).any (fun x => x != i.serial) = true →
         s.dev.store = storeReady ∨ s.dev.store = storeFormatting → (Instr.driveLinkUp i).gives s failsIt)) ∧
     (∀ drives : List DriveInfo, s.dev.ing.members = [] →
       (Instr.rescan drives).gives s fun t =>
         (drives.find? (fun i => i.port == r) = none →
           t.dev.get (R.DRV_STATE r) = drvAbsent ∧ t.dev.get (R.DRV_LINK_UP r) = 0 ∧ t.dev.get (R.DRV_SIZE r) = 0) ∧
         (∀ i, drives.find? (fun i => i.port == r) = some i →
           t.dev.get (R.DRV_STATE r) = (if i.blockBytes = 4096 then drvReady else drvForeign) ∧ t.dev.get (R.DRV_LINK_UP r) = 1 ∧
           t.dev.get (R.DRV_SIZE r) = i.sizeBytes % 2 ^ 64) ∧
         t.dev.store = s.dev.store ∧ t.hbm = s.hbm ∧ s.Within [11] [.ing] t)) ∧
  ((∀ (s : State) (j : ClipJob) (rest : List ClipJob), s.dev.ing.jobs = j :: rest →
     let mine (o : Owed) : Bool := o.kind == .clipWrite j.id && o.queue == j.queue && o.tag == j.tag
     ((Instr.clipWriteDone false).gives s fun t =>
       Tab.get? t.dev.ing.packs j.id = some j.pack ∧ t.dev.ing.jobs = rest ∧
       (∀ x, x ≠ j.id → Tab.get? t.dev.ing.packs x = Tab.get? s.dev.ing.packs x) ∧
       t.dev.get R.CLIP_WRITE_BYTES = (s.dev.get R.CLIP_WRITE_BYTES + j.pack.frames * j.pack.length) % 2 ^ 64 ∧
       t.dev.q.owed = s.dev.q.owed.eraseP mine ∧ t.hbm = s.hbm ∧ s.Within [2, 11] [.ing, .q] t) ∧
     ((Instr.clipWriteDone true).gives s fun t =>
       t.dev.ing.packs = s.dev.ing.packs ∧ t.dev.ing.jobs = rest ∧ t.dev.get R.CLIP_WRITE_FAIL = 1 ∧
       t.dev.q.owed = s.dev.q.owed.eraseP mine ∧ t.hbm = s.hbm ∧ s.Within [2, 11] [.ing, .q] t)) ∧
   ∀ (s : State) (i : Nat) (data : List Byte) (ch : Chan) (p : Pack) (f key : Nat), i < 128 →
     s.dev.live? clsClip i = some ch → s.dev.packOf (s.dev.clip? i).inForce = some p → s.dev.store = storeReady →
     s.dev.clipNext i p = some (f, key) →
     let body := slice data 0 p.length
     (∀ u, crc32 body = p.fcrcs.getD f 0 → s.dev.surf? key = some u → s.canonical → body.length = p.length →
       (∀ x y, x < p.length → y < p.length → u.addr x = u.addr y → x = y) →
       (Instr.clipFrameRead i data).gives s fun t =>
         (f, key) ∈ (t.dev.clip? i).ready ∧ t.surfGet u 0 p.length = body ∧
         (∀ a, (∀ x, x < p.length → u.addr x ≠ a) → Memory.get t.hbm a = Memory.get s.hbm a) ∧
         t.dev.get R.CLIP_READ_BYTES = (s.dev.get R.CLIP_READ_BYTES + p.length) % 2 ^ 64 ∧
         s.Within [5, 11] [.ing, .mem, .free] t) ∧
     (crc32 body ≠ p.fcrcs.getD f 0 → (s.dev.clip? i).retry ≠ some f →
       (Instr.clipFrameRead i data).gives s fun t =>
         t.dev.clip? i = { s.dev.clip? i with retry := some f } ∧ t.hbm = s.hbm ∧ s.Within [11] [.ing, .free] t) ∧
     (crc32 body ≠ p.fcrcs.getD f 0 → (s.dev.clip? i).retry = some f →
       (Instr.clipFrameRead i data).gives s fun t =>
         t.dev.clip? i = { s.dev.clip? i with retry := none, skipped := f :: (s.dev.clip? i).skipped } ∧
         t.dev.get R.CLIP_CRC_ERR_CNT = (s.dev.get R.CLIP_CRC_ERR_CNT + 1) % 2 ^ 64 ∧ t.dev.get R.CLIP_CRC_ERR = 1 ∧
         t.dev.pends 730 = true ∧ t.hbm = s.hbm ∧ s.Within [11] [.ing, .free] t))

/-! ### The block engine -/

/-- The head command of a blit ring (R583, R585, R591, R592, R595): a NOP completes at once, its entry is given back and the
consumer index moves on; a COPY, FILL or ROP becomes the engine's operation; WAIT_PL and WAIT_TURN wait; an entry that is
not the engine's yet leaves the ring waiting for it. -/
def Obligations.BlitCommandsStart : Prop :=
  ∀ (s : State) (i : Nat) (c : Chan) (b : BlitChan) (cmd : List Byte), i < 4096 →
    s.dev.live? clsBlit i = some c → Tab.get? s.dev.blt.chans i = some b → bkOneshot c.record = false → s.dev.running = true →
    (∀ k x, s.dev.blt.cur = some (k, x) → k ≠ i) → s.dev.get (R.BCH_WAIT i) < 2 → s.dev.get (R.BCH_CONS i) ≠ b.pi →
    let rows := [Instr.nop i cmd, .copy i cmd, .fill i cmd, .rop i cmd, .waitPl i cmd, .waitTurn i cmd]
    (tbit (byteAt cmd 0) 7 = false → ∀ r ∈ rows, r.gives s fun t => t.dev.get (R.BCH_WAIT i) = 1 ∧ s.Only [R.BCH_WAIT i] [] t) ∧
    (tbit (byteAt cmd 0) 7 = true → s.dev.blitCheck c.owner (some (c.handle clsBlit i)) cmd c.record = stOk →
      (bOp cmd = 0 → bFlags cmd % 4 = 0 →
        let next := (s.dev.get (R.BCH_CONS i) + 1) % leAt c.record 16 4
        (Instr.nop i cmd).gives s fun t =>
          t.dev.get (R.BCH_CONS i) = next % 2 ^ 16 ∧ t.dev.get (R.BCH_WAIT i) = 0 ∧
          OutMsg.hostWrite c.owner (leAt c.record 8 8 + 64 * s.dev.get (R.BCH_CONS i)) (leBytes 1 0) ∈ t.dev.out ∧
          (leAt c.record 20 8 ≠ 0 → OutMsg.hostWrite c.owner (leAt c.record 20 8) (leBytes 4 next) ∈ t.dev.out) ∧
          s.Only [R.BCH_CONS i, R.BCH_WAIT i] [.blt, .out] t) ∧
      (s.dev.blitCanStart = true → s.dev.blt.direct = none →
        ∀ x ∈ [(1, Instr.copy i cmd), (2, .fill i cmd), (3, .rop i cmd)], bOp cmd = x.1 →
          x.2.gives s fun t =>
            t.dev.blt.cur = some (i, cmd) ∧ t.dev.get R.BLT_ACTIVE = 1 ∧ t.dev.get (R.BCH_WAIT i) = 0 ∧
            s.Only [R.BCH_WAIT i, R.BLT_ACTIVE] [.blt] t) ∧
      (∀ x ∈ [(4, 2, Instr.waitPl i cmd), (5, 3, .waitTurn i cmd)], bOp cmd = x.1 →
        x.2.2.gives s fun t =>
          t.dev.get (R.BCH_WAIT i) = x.2.1 ∧ (∃ b', Tab.get? t.dev.blt.chans i = some b' ∧ b'.head = some cmd) ∧
          s.Only [R.BCH_WAIT i] [.blt] t)) ∧
    (s.dev.get (R.BCH_WAIT i) = 1 →
      (Instr.blitOwnPoll i true).gives s fun t => t.dev.get (R.BCH_WAIT i) = 0 ∧ s.Only [R.BCH_WAIT i] [] t)

/-- An operation ends (R570, R571, R576, R580, R584, R588, R597): its written pixels take their result and nothing else in HBM
changes; a source that is poisoned under AUTO ends it with nothing written, and ABORTED. The same of the direct interface. -/
def Obligations.BlitOperationsWriteTheirPixels : Prop :=
  ∀ (s : State) (j : BlitJob), s.dev.inQuiet = false → j.dst.kamius = false →
    let plain := s.dev.mem.poison = [] ∧ s.canonical ∧ j.spread ∧ (j.dir = 0 ∨ j.clearOf) ∧ 1 ≤ j.op ∧ j.op ≤ 3
    let stuck := j.dir = 0 ∧ ∃ x y u, x < j.w ∧ y < j.h ∧ j.writes x y = true ∧ j.src = some u ∧
      s.pixelPoisoned u (j.sx + x) (j.sy + y) = true
    (∀ i cmd, s.dev.blt.cur = some (i, cmd) →
      s.dev.blitJob cmd (match s.dev.chan? clsBlit i with | some c => c.record | none => []) = some j →
      (plain → Instr.blitOpDone.gives s fun t =>
        j.carried s t ∧ t.dev.blt.cur = none ∧ t.dev.get R.BLT_ACTIVE = 0 ∧ t.dev.get R.BLT_QUIET_HOLD = 0 ∧
        t.dev.get R.BLT_OPS = (s.dev.get R.BLT_OPS + 1) % 2 ^ 64 ∧
        t.dev.get R.BLT_CLIP_PX = (s.dev.get R.BLT_CLIP_PX + j.clipped) % 2 ^ 64 ∧ t.pending = s.pending) ∧
      (stuck → Instr.blitOpDone.gives s fun t =>
        t.hbm = s.hbm ∧ t.dev.blt.cur = none ∧ t.dev.get R.BLT_ABORT_CNT = (s.dev.get R.BLT_ABORT_CNT + 1) % 2 ^ 64 ∧
        t.dev.get (R.BCH_POISON i) = 1 ∧ t.dev.get R.BLT_POISON = 1 ∧ t.dev.pends 739 = true ∧ t.pending = s.pending)) ∧
    (∀ cmd, s.dev.blt.direct = some cmd → s.dev.blt.cur = none → s.dev.blitCanStart = true ∨ s.dev.get R.BLT_ACTIVE = 1 →
      s.dev.blitJob cmd [] = some j →
      (plain → Instr.directDone.gives s fun t =>
        j.carried s t ∧ t.dev.blt.direct = none ∧ t.dev.get R.BLT_RUN = 0 ∧ t.dev.get R.BLT_STATUS = stOk ∧
        t.dev.get R.BLT_DONE = 1 ∧ t.dev.pends 736 = true ∧ t.dev.get R.BLT_OPS = (s.dev.get R.BLT_OPS + 1) % 2 ^ 64 ∧
        t.pending = s.pending) ∧
      (stuck → Instr.directDone.gives s fun t =>
        t.hbm = s.hbm ∧ t.dev.blt.direct = none ∧ t.dev.get R.BLT_RUN = 0 ∧ t.dev.get R.BLT_STATUS = stAborted ∧
        t.dev.get R.BLT_POISON = 1 ∧ t.dev.pends 736 = true ∧ t.dev.pends 739 = true ∧ t.pending = s.pending))

/-- The direct interface, doorbells, time-outs and faults of the engine (R578 to R580, R583, R596, R598): D_GO starts an
operation that passes its checks and answers one that does not; a doorbell sets the producer index; a wait ends TIMEOUT; a
fault ends the operation ABORTED with no byte changed outside its rectangle. -/
def Obligations.TheEngineStartsDirectlyTimesOutAndFaults : Prop :=
  ∀ (s : State) (v : BitVec 32), s.dev.domOn 44 = true →
    (s.dev.get R.BLT_RUN = 1 →
      (Instr.dGo v).gives s fun t => t.dev.get R.BLT_GO_REJ = 1 ∧ t.dev.pends 742 = true ∧ s.Noting [R.BLT_GO_REJ] [] t) ∧
    (s.dev.get R.BLT_RUN = 0 → bit v.toNat 0 = 0 → exec (.dGo v) s = .next s) ∧
    (s.dev.get R.BLT_RUN = 0 → bit v.toNat 0 = 1 →
      let op := s.dev.get R.BLT_D_OP
      let st := if op = 0 ∨ 3 < op then stMalformed else s.dev.blitCheck 0 none s.dev.directCmd []
      (st = stOk →
        (Instr.dGo v).gives s fun t =>
          t.dev.get R.BLT_RUN = 1 ∧ t.dev.blt.direct = some s.dev.directCmd ∧
          t.dev.get R.BLT_ACTIVE = (if s.dev.blitCanStart then 1 else s.dev.get R.BLT_ACTIVE) ∧
          s.Only [R.BLT_RUN, R.BLT_ACTIVE] [.blt] t) ∧
      (st ≠ stOk →
        (Instr.dGo v).gives s fun t =>
          t.dev.get R.BLT_RUN = 0 ∧ t.dev.get R.BLT_STATUS = st ∧ t.dev.get R.BLT_DONE = 1 ∧
          t.dev.get R.BLT_D_TURN = s.dev.time.turn % 2 ^ 32 ∧ t.dev.pends 736 = true ∧
          s.Noting [R.BLT_RUN, R.BLT_STATUS, R.BLT_DONE, R.BLT_D_TURN] [.blt] t)) ∧
    (∀ f i value bytes, f < 32 → i < 4096 →
      (∀ c b, s.dev.live? clsBlit i = some c → Tab.get? s.dev.blt.chans i = some b → bytes = 4 → value < leAt c.record 16 4 →
        c.mayName f = true → bkOneshot c.record = false →
        (Instr.blitDoorbell f i value bytes).gives s fun t =>
          Tab.get? t.dev.blt.chans i = some { b with pi := value } ∧ s.Only [] [.blt] t) ∧
      (s.dev.live? clsBlit i = none ∨ bytes ≠ 4 →
        (Instr.blitDoorbell f i value bytes).gives s fun t =>
          t.dev.get R.QB_DB_ERR_CNT = (s.dev.get R.QB_DB_ERR_CNT + 1) % 2 ^ 64 ∧ t.dev.get R.QB_DB_ERR = 1 ∧
          s.Noting [R.QB_DB_ERR_CNT, R.QB_DB_ERR] [] t)) ∧
    (∀ i b cmd c, i < 4096 → s.dev.get (R.BCH_WAIT i) = 2 ∨ s.dev.get (R.BCH_WAIT i) = 3 → Tab.get? s.dev.blt.chans i = some b →
      b.head = some cmd → s.dev.chan? clsBlit i = some c →
      (Instr.blitWaitTimeout i).gives s fun t =>
        t.dev.get (R.BCH_WAIT i) = 0 ∧ t.dev.get (R.BCH_WAIT_TO i) = 1 ∧ t.dev.get (R.BCH_ERR i) = 1 ∧
        t.dev.get R.BLT_WAIT_TO = 1 ∧ t.dev.pends 741 = true ∧
        t.dev.get R.BLT_WAIT_TO_CNT = (s.dev.get R.BLT_WAIT_TO_CNT + 1) % 2 ^ 64 ∧
        (∃ b', Tab.get? t.dev.blt.chans i = some b' ∧ b'.head = none) ∧ t.hbm = s.hbm ∧ t.pending = s.pending) ∧
    (s.dev.blt.cur = none → s.dev.blt.direct = none →
      Instr.blitFault.gives s fun t =>
        t.dev.get R.BLT_FAULT = 1 ∧ t.dev.pends 740 = true ∧ t.dev.get R.BLT_ACTIVE = 0 ∧ t.dev.blt.chans = s.dev.blt.chans ∧
        t.hbm = s.hbm ∧ t.pending = s.pending) ∧
    (∀ cmd j, s.dev.blitNow = some (none, cmd, j) → j.dst.kamius = false →
      Instr.blitFault.gives s fun t =>
        t.dev.get R.BLT_FAULT = 1 ∧ t.dev.pends 740 = true ∧ t.dev.get R.BLT_ACTIVE = 0 ∧ t.dev.blt.direct = none ∧
        t.dev.get R.BLT_RUN = 0 ∧ t.dev.get R.BLT_STATUS = stAborted ∧ j.keepsOutside s t ∧ t.pending = s.pending)

/-! ### Sensing -/

/-- SENSE frames (R492, R613 to R621): the readings of a frame join their scan; a scan that is complete goes through every cell,
counts toward the baseline capture, and in an ACTIVE square opens a contact for each group of cells that are on; a frame of
a square or plane that is not sensed is counted. -/
def Obligations.SenseFramesBecomeScansAndContacts : Prop :=
  ∀ (s : State) (snake owner : Nat) (ws : List LinkWord) (h : Header) (pay : List LinkWord),
    s.dev.hears snake owner ftSense ws h pay →
    let n := 64 * snake + owner
    let f := senseFrame h pay
    let q := s.dev.sqSense n
    let p := q.plane f.plane
    (s.dev.get R.SNS_EN = 0 →
      (Instr.senseFrameReceive snake owner ws).gives s fun t => t.dev.sns = s.dev.sns ∧ t.hbm = s.hbm ∧ s.Within [9] [.snk] t) ∧
    (s.dev.get R.SNS_EN = 1 → s.dev.square? n = none ∨ q.state = 0 →
      (Instr.senseFrameReceive snake owner ws).gives s fun t =>
        t.dev.get R.SNS_SCAN_ERR_CNT = (s.dev.get R.SNS_SCAN_ERR_CNT + 1) % 2 ^ 64 ∧ t.dev.sns = s.dev.sns ∧ t.hbm = s.hbm ∧
        s.Within [9, 13] [.snk] t) ∧
    (∀ sq, s.dev.get R.SNS_EN = 1 → s.dev.square? n = some sq → q.state ≠ 0 → sq.scans f.plane = true →
      p.scan = some f.scan → p.last = false → h.len = 1 + ceilDiv f.ncell 4 →
      p.admits (s.dev.cellCols n sq * s.dev.cellRows n sq) f = true →
      let all := (Tab.set p.got f.first f.readings).flatMap (·.2)
      let full := f.lastf = true ∧ all.length = s.dev.cellCols n sq * s.dev.cellRows n sq ∧ p.spoiled = false
      let cells := (p.cells.zip all).map (fun x => (s.dev.cellStep x.1 x.2).cell)
      (¬full →
        (Instr.senseFrameReceive snake owner ws).gives s fun t =>
          Tab.get? ((t.dev.sqSense n).plane f.plane).got f.first = some f.readings ∧
          ((t.dev.sqSense n).plane f.plane).cells = p.cells ∧ t.dev.sns.contacts = s.dev.sns.contacts ∧ t.hbm = s.hbm ∧
          s.Within [9] [.snk, .sns] t) ∧
      (full → q.state = 1 →
        (Instr.senseFrameReceive snake owner ws).gives s fun t =>
          let p' := (t.dev.sqSense n).plane f.plane
          p'.cells = cells ∧ p'.last = true ∧ p'.captured = min (p.captured + 1) s.dev.baseScans ∧
          (p.captured + 1 < s.dev.baseScans → (t.dev.sqSense n).state = 1) ∧
          t.dev.sns.contacts = s.dev.sns.contacts ∧ t.hbm = s.hbm ∧ s.Within [9, 13] [.snk, .sns] t) ∧
      (full → q.state = 2 → (∀ k ∈ s.dev.sns.contacts, ¬(k.square = n ∧ k.plane = f.plane)) →
        let groups := groupsOf (s.dev.cellCols n sq)
          ((cells.zipIdx).filterMap (fun x => if x.1.on && !x.1.bad && !x.1.cap then some x.2 else none))
        (Instr.senseFrameReceive snake owner ws).gives s fun t =>
          ((t.dev.sqSense n).plane f.plane).cells = cells ∧ ((t.dev.sqSense n).plane f.plane).last = true ∧
          (t.dev.sqSense n).state = 2 ∧ (t.dev.sqSense n).lastScan = f.scan ∧
          t.dev.sns.contacts.map (·.cells) = s.dev.sns.contacts.map (·.cells) ++ groups ∧
          t.dev.get R.SNS_CONTACT_CNT = (s.dev.get R.SNS_CONTACT_CNT + groups.length) % 2 ^ 64 ∧
          t.hbm = s.hbm ∧ t.pending = s.pending)) ∧
    (q.state = 2 →
      (Instr.senseStale n).gives s fun t =>
        (t.dev.sqSense n).state = 3 ∧ (∀ k ∈ t.dev.sns.contacts, k.square ≠ n) ∧
        (∀ k ∈ s.dev.sns.contacts, k.square ≠ n → k ∈ t.dev.sns.contacts) ∧
        t.dev.get R.SNS_SENSE_STALE = 1 ∧ t.dev.pends 757 = true ∧ t.hbm = s.hbm ∧ s.Within [13] [.sns, .out] t)

/-- Telemetry and alarms (R625 to R629, R609): a plausible HEALTH frame gives its square its temperature, supply and light, one
out of its window is counted and takes nothing; silence is flagged; an alarm input follows its samples, and a latched alarm
whose input is inactive is cleared; the sense doorbell moves a report ring's consumer index. -/
def Obligations.TelemetryAndAlarmsFollowTheirInputs : Prop :=
  ∀ (s : State) (snake owner : Nat) (ws : List LinkWord) (h : Header) (pay : List LinkWord) (sq : Square),
    s.dev.hears snake owner ftHealth ws h pay → s.dev.square? (64 * snake + owner) = some sq → pay.length = 3 →
    bits (payWord pay 2) 5 0 = 0 → bits (payWord pay 1) 5 0 = 0 →
    let n := 64 * snake + owner
    let q := s.dev.sqSense n
    let temp := signed 16 (bits (payWord pay 0) 15 0)
    let vsup := bits (payWord pay 0) 31 16
    let lux := bits (payWord pay 0) 63 32
    (-640 ≤ temp → temp ≤ 2000 → q.temp = none → s.dev.vsupLo ≤ vsup → vsup ≤ s.dev.vsupHi → lux ≤ s.dev.luxMax → lux ≠ 0xFFFFFFFF →
      (Instr.healthFrameReceive snake owner ws).gives s fun t =>
        let q' := t.dev.sqSense n
        q'.temp = some temp ∧ q'.tempAt = s.dev.time.now ∧ q'.vsup = vsup ∧ q'.amb = lux ∧ q'.teleStale = false ∧
        Tab.get? t.dev.cal.amb n = some (lux, s.dev.time.now) ∧
        ((s.dev.tempWarn : Int) < temp → q'.hot = true) ∧
        ((s.dev.tempWarn : Int) < temp → q.hot = false → t.dev.get R.SNS_TEMP_WARN = 1 ∧ t.dev.pends 761 = true) ∧
        t.hbm = s.hbm ∧ s.Within [9, 13] [.snk, .sns, .cal] t) ∧
    (temp < -640 ∨ 2000 < temp → s.dev.vsupLo ≤ vsup → vsup ≤ s.dev.vsupHi → lux = 0xFFFFFFFF →
      (Instr.healthFrameReceive snake owner ws).gives s fun t =>
        (t.dev.sqSense n).temp = q.temp ∧ (t.dev.sqSense n).teleStale = q.teleStale ∧
        t.dev.get R.SNS_TELE_IMPL_CNT = (s.dev.get R.SNS_TELE_IMPL_CNT + 1) % 2 ^ 64 ∧ t.dev.get R.SNS_TELE_IMPL = 1 ∧
        t.dev.cal = s.dev.cal ∧ t.hbm = s.hbm ∧ s.Within [9, 13] [.snk, .sns] t) ∧
    ((Instr.teleStale n).gives s fun t =>
      (t.dev.sqSense n).teleStale = true ∧ t.dev.get R.SNS_TELE_STALE_C = 1 ∧ t.dev.pends 763 = true ∧
      Tab.get? t.dev.cal.amb n = none ∧ s.Noting [R.SNS_TELE_STALE_C] [.sns, .cal] t) ∧
    (∀ level0 level1 : Bool,
      (Instr.alarmSample level0 level1).gives s fun t =>
        t.dev.alarmOf 0 = (s.dev.alarmOf 0).sample (s.dev.alarmMode 0) (s.dev.alarmMs 0) (level0 != s.dev.alarmPol 0) ∧
        t.dev.alarmOf 1 = (s.dev.alarmOf 1).sample (s.dev.alarmMode 1) (s.dev.alarmMs 1) (level1 != s.dev.alarmPol 1) ∧
        t.dev.on R.SNS_ACT0 = (t.dev.alarmOf 0).active ∧ t.dev.on R.SNS_ON0 = t.dev.alarmOn 0 ∧
        t.dev.on R.SNS_ACT1 = (t.dev.alarmOf 1).active ∧ t.dev.on R.SNS_ON1 = t.dev.alarmOn 1 ∧
        ((s.dev.alarmOf 0).active = false → (t.dev.alarmOf 0).active = true →
          t.dev.get R.SNS_ALARM_CHG = 1 ∧ t.dev.pends 765 = true) ∧
        t.hbm = s.hbm ∧ t.pending = s.pending) ∧
    (∀ v : BitVec 32,
      (Instr.clear v).gives s fun t =>
        (∀ k, k < 2 → bit v.toNat k = 1 → s.dev.alarmMode k = 2 → (s.dev.alarmOf k).active = false →
          t.dev.alarmOf k = { s.dev.alarmOf k with on := false }) ∧
        (∀ k, k < 2 → bit v.toNat k = 0 ∨ s.dev.alarmMode k ≠ 2 ∨ (s.dev.alarmOf k).active = true → t.dev.alarmOf k = s.dev.alarmOf k) ∧
        t.hbm = s.hbm ∧ t.pending = s.pending) ∧
    (∀ fn i value bytes, fn < 32 → i < 256 →
      (∀ c, s.dev.live? clsSense i = some c → bytes = 4 → value < sEntries c.record → c.mayName fn = true →
        (Instr.senseDoorbell fn i value bytes).gives s fun t =>
          t.dev.get (R.SCH_CI i) = value % 2 ^ 32 ∧ s.Only [R.SCH_CI i] [] t) ∧
      (s.dev.live? clsSense i = none ∨ bytes ≠ 4 →
        (Instr.senseDoorbell fn i value bytes).gives s fun t =>
          t.dev.get R.QB_DB_ERR_CNT = (s.dev.get R.QB_DB_ERR_CNT + 1) % 2 ^ 64 ∧ t.dev.get R.QB_DB_ERR = 1 ∧
          s.Noting [R.QB_DB_ERR_CNT, R.QB_DB_ERR] [] t))

/-! ### Shovin, the mailbox, the dictionary -/

/-- Requests (R784 to R787): a request that is authentic, fresh and new is recorded and answered under its role's key with what
its operation gives; TIME needs no role; one that is not authentic or not fresh is counted and gets no answer, and a copy of
one that was answered gets that answer again. -/
def Obligations.RequestsAreAuthenticatedAndAnsweredOnce : Prop :=
  ∀ (s : State) (c : Instr) (v : Via) (m : ShMsg) (bytes key : List Byte), c.brings s.dev v m bytes →
    (s.dev.takesRequest v bytes m key → m.op = 1 ∨ m.op = 4 →
      let r := mkReq m.role v.transport m.client
      let e := s.dev.recorded m bytes
      let a := if m.op = 1 then e.opRead r.key m.body else e.opSegRead r.key m.body
      let resp := e.replyBytes (m.answer v (some key) a.1 a.2)
      c.gives s fun t =>
        OutMsg.response v.transport v.dest resp ∈ t.dev.out ∧ t.dev.bank.answered = s.dev.bank.answered + 1 ∧
        (∃ p ∈ t.dev.bank.replays, p.request = bytes ∧ p.response = some resp) ∧ t.dev.bank.objs = s.dev.bank.objs ∧
        s.Only [] [.bank, .ledger, .out] t) ∧
    (s.dev.bank.restarting = false → readMsg bytes = some m → m.role = 0xFF → m.status = 0 → allZero m.rsv = true → m.body = [] →
      m.len = 0 →
      c.gives s fun t =>
        OutMsg.response v.transport v.dest
          (s.dev.replyBytes (m.answer v none stOk (s.dev.time80Be ++ List.replicate 6 0 ++ deviceId))) ∈ t.dev.out ∧
        s.Only [] [.bank, .ledger, .out] t) ∧
    (s.dev.bank.restarting = false →
      readMsg bytes = none ∨
        (readMsg bytes = some m ∧ m.role ≠ 0xFF ∧ ∀ k, s.dev.keyFor v m = some k → hmacSha256 k m.signed ≠ m.mac) →
      c.gives s fun t =>
        t.dev.bank.authFailed = s.dev.bank.authFailed + 1 ∧ t.dev.bank.answered = s.dev.bank.answered ∧
        t.dev.bank.objs = s.dev.bank.objs ∧ t.dev.bank.replays = s.dev.bank.replays ∧ s.Noting [] [.bank] t) ∧
    (s.dev.bank.restarting = false → readMsg bytes = some m → m.role ≠ 0xFF → s.dev.keyFor v m = some key →
      hmacSha256 key m.signed = m.mac →
      (s.dev.fresh? m.timeNs = false →
        c.gives s fun t =>
          t.dev.bank.stale = s.dev.bank.stale + 1 ∧ t.dev.bank.answered = s.dev.bank.answered ∧
          t.dev.bank.objs = s.dev.bank.objs ∧ s.Noting [] [.bank] t) ∧
      (∀ p b, s.dev.fresh? m.timeNs = true →
        s.dev.purge.bank.replays.find? (fun p => p.role == m.role && p.client == m.client && p.seq == m.seq) = some p →
        p.request = bytes → p.response = some b →
        c.gives s fun t =>
          OutMsg.response v.transport v.dest b ∈ t.dev.out ∧ t.dev.bank.objs = s.dev.bank.objs ∧
          s.Only [] [.bank, .ledger, .out] t))

/-- Writes and transfers (R766, R768, R785, R789, R790): a write that a check refuses is answered with that status and changes
no object; one that passes is in force, and its answer waits for the commit; a first segment is staged and answered, and a
transfer with no further segment closes. -/
def Obligations.WritesTakeForceAndAnswerAtTheirCommit : Prop :=
  (∀ (s : State) (c : Instr) (v : Via) (m : ShMsg) (bytes key : List Byte) (idx sub typ : Nat) (raw : List Byte),
    c.brings s.dev v m bytes → s.dev.takesRequest v bytes m key → m.op = 2 → idx < 65536 → sub < 256 → typ < 256 → raw.length < 65536 →
    m.body = beBytes 2 idx ++ beBytes 1 sub ++ beBytes 1 typ ++ beBytes 2 raw.length ++ [0, 0] ++ pad4 raw →
    (0x6000 ≤ idx ∧ idx ≤ 0x6001) ∨ idx = 0x8010 →
    let e := s.dev.recorded m bytes
    let st := e.writeStatus m.role idx sub typ raw
    (st ≠ stOk → st ≠ stLocked → st ≠ stLimit →
      c.gives s fun t =>
        OutMsg.response v.transport v.dest (e.replyBytes (m.answer v (some key) st (writeBody idx sub (e.remaining (objKey idx sub))))) ∈
          t.dev.out ∧ t.dev.bank.objs = s.dev.bank.objs ∧ s.Only [] [.bank, .ledger, .out, .free] t) ∧
    (∀ o, st = stOk → objDef? idx sub = some o → o.acc = .rwp ∨ o.acc = .rwl → s.dev.running = true → s.dev.bank.staged = none →
      s.dev.bank.writeProtect = false →
      c.gives s fun t =>
        Tab.get? t.dev.bank.objs (objKey idx sub) = some raw ∧
        (∀ k, k ≠ objKey idx sub → Tab.get? t.dev.bank.objs k = Tab.get? s.dev.bank.objs k) ∧
        t.dev.bank.store = s.dev.bank.store ∧
        (∃ x, t.dev.bank.staged = some x ∧ x.objs = [(objKey idx sub, raw)] ∧ ∃ a, x.answer = some a ∧ a.status = stOk ∧ a.seq = m.seq) ∧
        t.dev.bank.answered = s.dev.bank.answered ∧ t.dev.get R.ST_JSTATE = 1 ∧ t.hbm = s.hbm ∧ t.pending = s.pending)) ∧
  (∀ (s : State) (c : Instr) (v : Via) (m : ShMsg) (bytes key : List Byte) (idx sub typ total : Nat) (data : List Byte) (o : ObjDef),
    c.brings s.dev v m bytes → s.dev.takesRequest v bytes m key → m.op = 3 → idx < 65536 → idx ≠ 0x9000 → sub < 256 → typ < 256 →
    total < 2 ^ 32 → data.length < 65536 →
    m.body = beBytes 2 idx ++ beBytes 1 sub ++ beBytes 1 typ ++ beBytes 4 0 ++ beBytes 4 total ++ beBytes 2 data.length ++ [0, 0] ++
      pad4 data →
    objDef? idx sub = some o → data.length < total → total ≤ o.maxLen →
    let others := s.dev.bank.segs.filter (fun x => !x.is m.role m.client idx sub)
    others.length < 4 →
    c.gives s fun t =>
      t.dev.bank.segs = others ++ [⟨m.role, m.client, idx, sub, total, data⟩] ∧ t.dev.bank.objs = s.dev.bank.objs ∧
      OutMsg.response v.transport v.dest
        ((s.dev.recorded m bytes).replyBytes (m.answer v (some key) stOk (writeBody idx sub 0xFFFF))) ∈ t.dev.out ∧
      s.Only [] [.bank, .ledger, .out] t) ∧
  ∀ (s : State) (role client idx sub : Nat), s.dev.bank.segs.any (fun x => x.is role client idx sub) = true →
    (Instr.segIdleTimeout role client idx sub).gives s fun t =>
      t.dev.bank.segs = s.dev.bank.segs.filter (fun x => !x.is role client idx sub) ∧ t.dev.pends 966 = true ∧ s.Noting [] [.bank] t

/-- The mailbox (R786, R791, R792): a READ that it takes ends DONE with its response in RESP; SEND of what is no request ends
DONE with AUTH_FAIL and no response; a SEND while it is BUSY or off is rejected; ABORT leaves it IDLE. ARP for a control
port is answered. -/
def Obligations.TheMailboxTakesOneRequestAtATime : Prop :=
  ∀ s : State, s.dev.bank.restarting = false →
    (s.dev.get R.MBX_EN = 1 → s.dev.get R.MBX_MBX_STATE ≠ 1 →
      (∀ bytes m key, s.dev.mbxBusy.takesRequest ⟨2, s.dev.bank.mbxTok + 1, none⟩ bytes m key → m.op = 1 →
        let v : Via := ⟨2, s.dev.bank.mbxTok + 1, none⟩
        let e := s.dev.mbxBusy.recorded m bytes
        let a := e.opRead (mkReq m.role 2 m.client).key m.body
        let resp := e.replyBytes (m.answer v (some key) a.1 a.2)
        (Instr.read 2 bytes).gives s fun t =>
          t.dev.get R.MBX_MBX_STATE = 2 ∧ t.dev.get R.MBX_RESP_LEN = resp.length % 2 ^ 11 ∧ t.dev.get R.MBX_DONE = 1 ∧
          t.dev.pends 964 = true ∧ t.dev.get R.MBX_MBX_REQ_CNT = (s.dev.get R.MBX_MBX_REQ_CNT + 1) % 2 ^ 64 ∧
          (∀ k, k < ceilDiv resp.length 4 → k < 512 → resp.length ≤ 2048 → t.dev.get (R.MBX_RESP k) = leAt resp (4 * k) 4) ∧
          t.hbm = s.hbm ∧ s.Within [17] [.bank] t) ∧
      (∀ len, 32 ≤ len → len ≤ 1088 → readMsg (s.dev.mbxReq len) = none →
        (Instr.send len).gives s fun t =>
          t.dev.get R.MBX_MBX_STATE = 2 ∧ t.dev.get R.MBX_RESP_LEN = 0 ∧ t.dev.get R.MBX_AUTH_FAIL = 1 ∧ t.dev.get R.MBX_DONE = 1 ∧
          t.dev.get R.MBX_MBX_AUTH_CNT = (s.dev.get R.MBX_MBX_AUTH_CNT + 1) % 2 ^ 64 ∧ t.dev.pends 964 = true ∧
          t.hbm = s.hbm ∧ s.Within [17] [.bank] t)) ∧
    (∀ len, 32 ≤ len → len ≤ 1088 → s.dev.get R.MBX_MBX_STATE = 1 ∨ s.dev.get R.MBX_EN = 0 →
      (Instr.send len).gives s fun t => t.dev.get R.MBX_REJ = 1 ∧ t.dev.pends 967 = true ∧ s.Noting [R.MBX_REJ] [] t) ∧
    (Instr.mbxAbort.gives s fun t =>
      t.dev.get R.MBX_MBX_STATE = 0 ∧ t.dev.bank.mbxTok = s.dev.bank.mbxTok + 1 ∧
      s.Only [R.MBX_MBX_STATE] [.bank, .ledger] t) ∧
    (∀ k f tag p, k < 2 → s.dev.ipAddr k ≠ 0 → s.dev.domOn (131 + k) = true → s.dev.untag k f = some (tag, p) → 30 ≤ p.length →
      beAt p 0 2 = 0x0806 → beAt p 2 2 = 1 → beAt p 4 2 = 0x0800 → beAt p 6 2 = 0x0604 → beAt p 8 2 = 1 →
      beAt p 26 4 = s.dev.ipAddr k →
      (Instr.ctrlFrameReceive k f).gives s fun t =>
        OutMsg.ctrlFrame k (slice p 10 6 ++ macOf k ++ tag ++ beBytes 2 0x0806 ++ slice p 2 6 ++ beBytes 2 2 ++ macOf k ++
          beBytes 4 (s.dev.ipAddr k) ++ slice p 10 6 ++ slice p 16 4) ∈ t.dev.out ∧ s.Only [] [.out] t)

/-! ### The banker -/

/-- Updates (R818, R820, R821): VERIFY stages an image whose header, signature and version pass and answers for one that does
not; ACTIVATE is followed by a restart on the other slot, which is then on trial; CONFIRM makes that slot the active one,
ABORT gives the update up, and a trial that is not confirmed in time, or meets a restart, is reverted. -/
def Obligations.UpdatesAreVerifiedTriedAndConfirmed : Prop :=
  ∀ (s : State) (role : Nat), role < 5 → s.dev.serves role 0x9000 = true →
    let allowed (cmd : Byte) : Prop := s.dev.writeStatus role 0x9000 2 tU8 [cmd] = stOk
    let img := s.dev.slotImage s.dev.spareSlot
    let spare := s.dev.spareSlot
    (allowed 1 → slotSigned img = true → s.dev.objNat 0x7040 1 0 ≤ leAt img 12 4 →
      (Instr.verify role).gives s fun t => t.dev.get R.ST_UPD_STATE = 2 ∧ t.dev.pends 978 = true ∧ s.Noting [] [] t) ∧
    (allowed 1 → slotSigned img = false ∨ leAt img 12 4 < s.dev.objNat 0x7040 1 0 → exec (.verify role) s = .next s) ∧
    (allowed 2 →
      (Instr.activate role).gives s fun t =>
        t.dev.bank.activating = true ∧ t.dev.get R.ST_UPD_STATE = s.dev.get R.ST_UPD_STATE ∧ s.Only [] [.bank, .ledger] t) ∧
    (allowed 3 →
      (Instr.confirm role).gives s fun t =>
        t.dev.get R.ST_UPD_STATE = 0 ∧ t.dev.get R.ST_ACTIVE_SLOT = spare ∧ t.dev.bank.selector = spare ∧ t.dev.pends 980 = true ∧
        s.Noting [] [.bank] t) ∧
    (allowed 4 →
      (Instr.abort role).gives s fun t =>
        t.dev.get R.ST_UPD_STATE = 0 ∧ (∀ x ∈ t.dev.bank.segs, x.index ≠ 0x9000) ∧ t.dev.bank.activating = false ∧
        t.dev.get R.ST_ACTIVE_SLOT = s.dev.get R.ST_ACTIVE_SLOT ∧ s.Noting [] [.bank] t) ∧
    (s.dev.bank.activating = true → s.dev.bank.staged = none →
      Instr.activateRestart.gives s fun t =>
        t.dev.bank.restarting = true ∧ t.dev.bank.boot = 1 ∧ t.hbm = s.hbm ∧ s.Within [17] [.bank] t) ∧
    (s.dev.get R.ST_UPD_STATE = 3 →
      Instr.trialConfirmTimeout.gives s fun t =>
        t.dev.bank.restarting = true ∧ t.dev.bank.boot = 2 ∧ t.hbm = s.hbm ∧ s.Within [17] [.bank] t)

/-- Restarts of the banker (R764, R769, R798, R799, R820, R824): the watchdog or a command begins one, which loses RW values,
transfers and recorded requests and keeps every other value in force; when the banker returns it serves again, and the slot
that it booted gives the update state. -/
def Obligations.BankerRestartsLoseWhatIsHeld : Prop :=
  (∀ (s : State) (c : Instr), s.dev.bank.restarting = false →
    c = .bankerWatchdog ∨ (∃ role, role < 5 ∧ c = .bankerRestartCmd role ∧ s.dev.serves role 0xA000 = true ∧
      s.dev.writeStatus role 0xA000 2 tBool [1] = stOk) →
    c.gives s fun t =>
      t.dev.bank.restarting = true ∧ t.dev.bank.segs = [] ∧ t.dev.bank.replays = [] ∧
      (∀ k, k ≠ objKey 0x7002 1 → Tab.get? t.dev.bank.rw k = none) ∧ t.dev.bank.objs = s.dev.bank.objs ∧
      t.dev.bank.store = s.dev.bank.store ∧ t.dev.bank.dictLock = s.dev.bank.dictLock ∧
      t.dev.bank.boot = (if s.dev.get R.ST_UPD_STATE = 3 then 2 else 0) ∧ t.dev.get R.MBX_MBX_STATE = 0 ∧
      t.hbm = s.hbm ∧ s.Within [17] [.bank] t) ∧
  (∀ s : State, s.dev.bank.restarting = true → s.dev.get R.PWR_SU_STATE ≠ suRecovery → s.dev.running = true →
    Instr.bankerRestartDone.gives s fun t =>
      t.dev.bank.restarting = false ∧ t.dev.bank.ledWait = [] ∧
      (s.dev.bank.boot = 1 → t.dev.get R.ST_UPD_STATE = 3 ∧ (s.dev.get R.ST_UPD_STATE ≠ 3 → t.dev.pends 979 = true)) ∧
      (s.dev.bank.boot ≠ 1 → t.dev.get R.ST_UPD_STATE = 0) ∧
      (s.dev.bank.boot = 2 → s.dev.get R.ST_UPD_STATE ≠ 0 → t.dev.pends 981 = true) ∧
      t.dev.pends 982 = true ∧ t.hbm = s.hbm ∧ t.pending = s.pending) ∧
  ∀ (s : State) (role : Nat), role < 5 →
    (s.dev.serves role 0x7002 = true → s.dev.writeStatus role 0x7002 1 tBool [1] = stOk →
      (Instr.dictLockSet role).gives s fun t =>
        t.dev.bank.dictLock = true ∧ t.dev.pends 965 = true ∧ t.dev.bank.objs = s.dev.bank.objs ∧ s.Noting [] [.bank] t) ∧
    (s.dev.serves role 0x7002 = true → s.dev.writeStatus role 0x7002 1 tBool [1] = stLocked →
      (Instr.dictLockSet role).gives s fun t =>
        t.dev.bank.dictLock = s.dev.bank.dictLock ∧ Tab.get? t.dev.bank.objs (objKey 0x7002 2) = some (beBytes 1 1) ∧
        t.dev.objNat 0x7002 3 0 = min (s.dev.objNat 0x7002 3 0 + 1) (2 ^ 64 - 1) ∧ t.dev.pends 1011 = true ∧ s.Noting [] [.bank] t)

/-- Commands of the dictionary that act on the block (R92, R96, R189, R808, R824, R851): a pip that is failed by command is
FAILED as by a fault; a chain is verified from its SEQ and the first entry that does not follow is told; an image that
passes its checks is staged for its turn, and one that does not changes nothing but its status.

The persistent store (R809, R811, R812): a worn block moves at most once a second; a scrub counts the lines it rewrites and
retires the block of a line that fails; the end of a second restarts the rate of general entries and tells what was dropped. -/
def Obligations.DictionaryCommandsAndTheStore : Prop :=
  (∀ (s : State) (role : Nat), role < 5 →
     (∀ p env, p < 256 → s.dev.serves role 0xA000 = true →
       (s.dev.writeStatus role 0xA000 3 tU8 (beBytes 1 p) = stOk → s.dev.pipActive p = true →
         (Instr.pipFailCmd role p).gives s fun t =>
           t.dev.get (R.PIP_STATE p) = pipFailed ∧ tbit (t.dev.get (R.CUP_ACTIVE (cupOf p))) (p % 8) = false ∧
           t.dev.pends (96 + p) = true ∧ t.dev.todo p = [] ∧ t.hbm = s.hbm ∧ s.Within [3, 4] [.pip] t) ∧
       (s.dev.writeStatus role 0xA000 4 tBool (beBytes 1 1) = stOk → s.dev.get R.PWR_SU_STATE ≠ suPfail →
         (Instr.warmResetCmd role 1 env).gives s fun t =>
           t.dev.get R.PWR_RESET_CAUSE = 1 ∧ t.dev.get R.PWR_WARM_CNT = (s.dev.get R.PWR_WARM_CNT + 1) % 2 ^ 64 ∧
           (∀ i, i < 1024 → t.dev.chan? clsLayer i = none) ∧ t.hbm = s.hbm ∧ t.pending = s.pending)) ∧
     (∀ seq, seq < 2 ^ 64 → s.dev.serves role 0x8002 = true → s.dev.writeStatus role 0x8002 1 tU64 (beBytes 8 seq) = stOk →
       let prot := (s.dev.cursorOf (reqOf role).key).2 == 1
       let ring := (s.dev.ledgerRing prot).reverse
       (Instr.chainVerify role seq).gives s fun t =>
         (∀ l rest, ring = l :: rest → l.seq = 1 →
           t.dev.bank.firstFail = chainFail (l :: rest) (List.replicate 16 0) seq) ∧
         (∀ l rest, ring = l :: rest → l.seq ≠ 1 → t.dev.bank.firstFail = chainFail rest l.lmac seq) ∧
         (t.dev.bank.firstFail ≠ 0 → t.dev.pends 985 = true) ∧ s.Noting [] [.bank] t) ∧
     (∀ img, s.dev.serves role 0x2001 = true → s.dev.bank.writeProtect = false →
       s.dev.writeStatus role 0x2001 0 tBlob img = stOk →
       (∀ st, s.dev.checkImage img = (st, none) → st ≠ stOk → st ≠ stLocked → st ≠ stLimit →
         (Instr.imageLoad role img).gives s fun t =>
           t.dev.bank.imageStatus = st ∧ t.dev.sched = s.dev.sched ∧ t.dev.bank.objs = s.dev.bank.objs ∧
           t.dev.bank.staged = s.dev.bank.staged ∧ s.Only [] [.bank, .ledger] t) ∧
       (∀ im, s.dev.checkImage img = (stOk, some im) → s.dev.grouped = false → s.dev.running = true → s.dev.bank.staged = none →
         (Instr.imageLoad role img).gives s fun t =>
           t.dev.bank.imageStatus = stOk ∧ t.dev.bank.imageTurn = s.dev.time.turn + s.dev.lead ∧
           (∃ x, t.dev.bank.staged = some x ∧ x.image = some img) ∧
           (∃ y, t.dev.sched.timing = some y ∧ y.ne = s.dev.time.turn + s.dev.lead) ∧ t.dev.geo = s.dev.geo ∧
           t.hbm = s.hbm ∧ t.pending = s.pending))) ∧
  (∀ s : State, s.dev.bank.restarting = false → s.dev.bank.writeProtect = false →
     (s.dev.bank.lastMove ≠ some s.dev.sec →
       Instr.wearMove.gives s fun t =>
         t.dev.bank.lastMove = some s.dev.sec ∧
         (s.dev.bank.wearWarned = false → 80000 < s.dev.get R.ST_WORST_WRITES_K →
           t.dev.bank.wearWarned = true ∧ t.dev.pends 975 = true) ∧ s.Noting [] [.bank] t) ∧
     (s.dev.bank.lastMove = some s.dev.sec → exec .wearMove s = .next s) ∧
     (∀ corrected, s.dev.get R.ST_SCRUB_EN = 1 →
       ((Instr.mramScrub corrected none).gives s fun t =>
         t.dev.get R.ST_MRAM_WR_LINES = (s.dev.get R.ST_MRAM_WR_LINES + corrected.length) % 2 ^ 64 ∧ s.Noting [] [] t) ∧
       (∀ line, (Instr.mramScrub corrected (some line)).gives s fun t =>
         t.dev.get R.ST_RETIRED_BLOCKS = (s.dev.get R.ST_RETIRED_BLOCKS + 1) % 2 ^ 13 ∧ t.dev.get R.ST_RETIRE = 1 ∧
         t.dev.pends 974 = true ∧ s.Noting [] [] t)) ∧
     (Instr.ledgerSecondEnd.gives s fun t =>
       t.dev.bank.second = s.dev.sec ∧ t.dev.bank.droppedSecond = 0 ∧
       t.dev.bank.inSecond = (if s.dev.bank.droppedSecond = 0 then 0 else 1) ∧ s.Noting [] [.bank] t))

/-! ### Power and resets -/

/-- Power readings (R800, R836, R837, R849): a VCORE sample gives its registers and limits the pace loop at PMAX, three failed
PMBus transactions limit it too, and none for 10 ms is a device-level fault; three die readings running at 115 °C and a rail
that is twice running outside its absolute window are trips.

Domains (R830, R831): a domain that fails is flagged; a vital one is a device-level fault, one that stays off is off and not
wanted again, one of snake ports takes its four ports, one of a cup's hub takes the hub; a request to switch off a domain
that is not switched is discarded whole. -/
def Obligations.PowerReadingsAndDomains : Prop :=
  (∀ s : State, s.dev.running = true →
     (∀ mv ma : Nat,
       (Instr.vcorePowerSample mv ma).gives s fun t =>
         t.dev.get R.PWR_VCORE_MV = mv % 2 ^ 10 ∧ t.dev.get R.PWR_VC_PWR = mv * ma * 16 / 1000000 % 2 ^ 16 ∧
         t.dev.pwr.limPower = decide (s.dev.get R.PWR_VC_PMAX_W * 1000000 ≤ mv * ma) ∧ t.dev.pwr.limPmb = false ∧
         (s.dev.get R.PWR_VC_PMAX_W * 1000000 ≤ mv * ma → t.dev.get R.PWR_VC_LIMITED = 1 ∧ t.dev.get R.ADM_VCEIL = 1) ∧
         (mv * ma < s.dev.get R.PWR_VC_PMAX_W * 1000000 → s.dev.pwr.limTemp = false → t.dev.get R.PWR_VC_LIMITED = 0) ∧
         s.Noting [R.PWR_VCORE_MV, R.PWR_VC_PWR, R.PWR_VC_LIMITED, R.PWR_VC_LIMIT, R.ADM_VCEIL] [.pwr] t) ∧
     (Instr.pmbErr.gives s fun t =>
       t.dev.get R.PWR_PMB_ERR = 1 ∧ t.dev.pends 935 = true ∧ t.dev.pwr.limPmb = true ∧ t.dev.get R.PWR_VC_LIMITED = 1 ∧
       s.Noting [R.PWR_PMB_ERR, R.PWR_VC_LIMITED, R.PWR_VC_LIMIT, R.ADM_VCEIL] [.pwr] t) ∧
     (Instr.pmbusTimeout.gives s fun t =>
       t.dev.get R.PWR_SU_STATE = suFaulted ∧ t.dev.get R.ADM_STATE = 0 ∧ t.dev.pends 0 = true ∧ t.hbm = s.hbm ∧ t.pending = s.pending) ∧
     (∀ temps : List Int,
       (maxInt temps < 1840 ∨ s.dev.pwr.hotRuns < 2 →
         (Instr.dieTempRead temps).gives s fun t =>
           t.dev.bank.hottest = maxInt temps ∧ t.dev.bank.hottestEver = max (maxInt temps) s.dev.bank.hottestEver ∧
           t.dev.pwr.dieTemps = temps ∧ t.dev.pwr.hotRuns = (if 1840 ≤ maxInt temps then s.dev.pwr.hotRuns + 1 else 0) ∧
           (((s.dev.get R.PWR_TJ_LIMIT * 16 : Nat) : Int) ≤ maxInt temps → t.dev.get R.PWR_VC_LIMITED = 1) ∧
           t.dev.running = true ∧ s.Noting [R.PWR_VC_LIMITED, R.PWR_VC_LIMIT, R.ADM_VCEIL] [.pwr, .bank] t) ∧
       (1840 ≤ maxInt temps → s.dev.pwr.hotRuns = 2 →
         (Instr.dieTempRead temps).gives s fun t =>
           t.dev.get R.PWR_THERM_TRIP = 1 ∧ t.dev.pends 4 = true ∧ t.dev.get R.PWR_SU_STATE = suFaulted ∧
           (∀ j, j < 136 → thermalKeeps j = false → t.dev.domOn j = false) ∧ t.hbm = s.hbm ∧ t.pending = s.pending)) ∧
     (∀ (mv : List Nat) (j : Nat), j < mv.length →
       let w := s.dev.railWindow (Config.monitorRail j)
       10 * mv.getD j 0 < w.2.2.1 ∨ w.2.2.2 < 10 * mv.getD j 0 → s.dev.get R.PWR_RAIL_TRIP = 0 →
       (j ∈ s.dev.pwr.outside →
         (Instr.voltageRead mv).gives s fun t =>
           t.dev.get R.PWR_RAIL_TRIP = 1 ∧ t.dev.pends 5 = true ∧ t.dev.get R.PWR_SU_STATE = suFaulted ∧ t.hbm = s.hbm ∧
           t.pending = s.pending) ∧
       (s.dev.pwr.outside = [] →
         (Instr.voltageRead mv).gives s fun t =>
           j ∈ t.dev.pwr.outside ∧ t.dev.running = true ∧ t.dev.get R.PWR_RAIL_TRIP = 0 ∧ s.Noting [] [.pwr] t))) ∧
  (∀ s : State,
     (∀ j, j < 136 → s.dev.running = true →
       (domVital j = true →
         (Instr.domErr j).gives s fun t =>
           t.dev.get R.PWR_DOM_ERR = 1 ∧ t.dev.pends 937 = true ∧ t.dev.get R.PWR_SU_STATE = suFaulted ∧ t.hbm = s.hbm ∧
           t.pending = s.pending) ∧
       (domStaysOff j = true →
         (Instr.domErr j).gives s fun t =>
           t.dev.get R.PWR_DOM_ERR = 1 ∧ t.dev.pends 937 = true ∧ t.dev.domOn j = false ∧ t.dev.domWanted j = false ∧
           (∀ i, i < 136 → i ≠ j → t.dev.domOn i = s.dev.domOn i) ∧ t.dev.running = true ∧ t.hbm = s.hbm ∧ t.pending = s.pending) ∧
       (55 ≤ j → j < 119 →
         (Instr.domErr j).gives s fun t =>
           t.dev.get R.PWR_DOM_ERR = 1 ∧ (∀ i, i < 4 → t.dev.port (4 * (j - 55) + i) = psFatal) ∧ t.dev.running = true ∧
           t.hbm = s.hbm ∧ t.pending = s.pending) ∧
       (j < 32 →
         (Instr.domErr j).gives s fun t =>
           t.dev.get R.PWR_DOM_ERR = 1 ∧ t.dev.get (R.CUP_HUB_FAULT j) = 1 ∧ t.dev.pends (352 + j) = true ∧
           s.Noting [R.PWR_DOM_ERR, R.CUP_HUB_FAULT j] [] t)) ∧
     ∀ (req word : Nat) (v : BitVec 32), req < 33 → word < 5 → fullAccess req = true →
       ((∀ k, k < 32 → bit v.toNat k = 1 → domSwitchable (32 * word + k) = true) →
         (Instr.domOffReqWrite req word v).gives s fun t =>
           t.dev.get (R.PWR_DOM_OFF_REQ word) = v.toNat ∧ s.Only [R.PWR_DOM_OFF_REQ word] [] t) ∧
       ((∃ k, k < 32 ∧ bit v.toNat k = 1 ∧ domSwitchable (32 * word + k) = false) →
         (Instr.domOffReqWrite req word v).gives s fun t =>
           t.dev.get (R.PWR_DOM_OFF_REQ word) = s.dev.get (R.PWR_DOM_OFF_REQ word) ∧ t.dev.get R.PWR_WRANGE = 1 ∧
           s.Noting [R.PWR_WRANGE] [] t))

/-- Power-fail and its end (R813, R844 to R846): the device stops, what waits for the ledger of admission is BUSY, the staged
transaction commits and MRAM takes no more writes; a device that is FAULTED only records it; when power is back the device
starts warm, with cause 3.

Resets (R838, R839, R841, R843, R851): a warm reset by command or after a fault gives its cause, leaves no channel of a host
and keeps HBM, and start-up runs again; at three automatic ones in 600 s there is no further one; a power-on reset keeps no
byte of HBM, and with no valid banker slot stays in RECOVERY. -/
def Obligations.PowerFailAndResetsStartTheDeviceAgain : Prop :=
  (∀ (s : State) (env : StartEnv),
     (s.dev.get R.PWR_SU_STATE ≠ suFaulted → s.dev.get R.PWR_SU_STATE ≠ suPfail →
       Instr.pfail.gives s fun t =>
         t.dev.get R.PWR_SU_STATE = suPfail ∧ t.dev.get R.PWR_PFAIL_LVL = 1 ∧ t.dev.get R.PWR_PFAIL = 1 ∧ t.dev.pends 3 = true ∧
         t.dev.get R.PWR_PFAIL_CNT = (s.dev.get R.PWR_PFAIL_CNT + 1) % 2 ^ 64 ∧ t.dev.get R.ADM_STATE = 0 ∧
         t.dev.bank.writeProtect = true ∧ t.dev.bank.staged = none ∧ t.dev.bank.waiting = [] ∧ t.hbm = s.hbm ∧ t.pending = s.pending) ∧
     (s.dev.get R.PWR_SU_STATE = suFaulted →
       Instr.pfail.gives s fun t =>
         t.dev.get R.PWR_SU_STATE = suFaulted ∧ t.dev.get R.PWR_PFAIL_LVL = 1 ∧ t.dev.get R.PWR_PFAIL = 1 ∧ t.dev.pends 3 = true ∧
         s.Noting [R.PWR_PFAIL_LVL, R.PWR_PFAIL, R.PWR_PFAIL_CNT] [] t) ∧
     (s.dev.get R.PWR_SU_STATE = suPfail →
       (Instr.pfailClear env).gives s fun t =>
         t.dev.get R.PWR_PFAIL_LVL = 0 ∧ t.dev.get R.PWR_RESET_CAUSE = 3 ∧ t.dev.pends 11 = true ∧
         t.dev.get R.PWR_WARM_CNT = (s.dev.get R.PWR_WARM_CNT + 1) % 2 ^ 64 ∧ t.dev.bank.writeProtect = false ∧ t.hbm = s.hbm ∧
         t.pending = s.pending) ∧
     (s.dev.get R.PWR_SU_STATE ≠ suPfail →
       (Instr.pfailClear env).gives s fun t => t.dev.get R.PWR_PFAIL_LVL = 0 ∧ s.Only [R.PWR_PFAIL_LVL] [] t)) ∧
  (∀ (s : State) (env : StartEnv),
     let warmed (cause : Nat) (t : State) : Prop :=
       t.dev.get R.PWR_RESET_CAUSE = cause ∧ t.dev.get R.PWR_WARM_CNT = (s.dev.get R.PWR_WARM_CNT + 1) % 2 ^ 64 ∧
       (∀ cls i, cls ≠ clsTable → i < 2 ^ 20 → t.dev.chan? cls i = none) ∧ t.dev.time.turn = 1 ∧
       (env.badDomains = [] → env.badStacks = [] → s.dev.get R.PWR_SU_STATE ≠ suRecovery → t.dev.get R.PWR_SU_STATE = suRun ∧
         t.dev.get R.PWR_SU_MS = env.suMs % 2 ^ 32 ∧ t.dev.pends 8 = true) ∧
       (45 ∈ env.badDomains → s.dev.get R.PWR_SU_STATE ≠ suRecovery →
         t.dev.get R.PWR_SU_STATE = suFaulted ∧ t.dev.pends 9 = true) ∧
       t.hbm = s.hbm ∧ t.pending = s.pending
     (∀ req, req < 33 → fullAccess req = true →
       (s.dev.get R.PWR_SU_STATE ≠ suPfail → (Instr.warm req env).gives s (warmed 1)) ∧
       (s.dev.get R.PWR_SU_STATE = suPfail →
         (Instr.warm req env).gives s fun t => t.dev.get R.PWR_WRANGE = 1 ∧ s.Noting [R.PWR_WRANGE] [] t)) ∧
     (s.dev.autoWarmDue = true →
       (s.dev.recentWarms.length < 3 → (Instr.autoWarmTimeout env).gives s (warmed 2)) ∧
       (3 ≤ s.dev.recentWarms.length →
         (Instr.autoWarmTimeout env).gives s fun t =>
           t.dev.get R.PWR_WARM_LIMIT = 1 ∧ t.dev.pends 10 = true ∧ s.Noting [R.PWR_WARM_LIMIT] [] t)) ∧
     (s.dev.autoWarmDue = false → exec (.autoWarmTimeout env) s = .next s) ∧
     ((Instr.powerOnReset env).gives s fun t =>
       t.hbm = [] ∧ t.pending = s.pending ∧ (∀ cls i, cls ≠ clsTable → i < 2 ^ 20 → t.dev.chan? cls i = none) ∧
       t.dev.bank.store = s.dev.bank.store ∧
       (env.badDomains = [] → env.badStacks = [] → env.slotAValid = true → env.slotBValid = true → s.dev.bank.selector < 2 →
         t.dev.get R.PWR_SU_STATE = suRun ∧ t.dev.get R.ST_ACTIVE_SLOT = s.dev.bank.selector ∧ t.dev.pends 8 = true) ∧
       (env.badDomains = [] → env.slotAValid = false → env.slotBValid = false →
         t.dev.get R.PWR_SU_STATE = suRecovery ∧ t.dev.pends 977 = true)))

/-! ### The whole block -/

/-- Commands are taken first in, first out: a step of a state with command c in front is what exec does with c and the rest of
the queue, and the next state's queue is that rest. -/
def Obligations.AStepRunsTheFrontCommand : Prop :=
  ∀ (s : State) (c : Instr) (rest : List Instr),
    step { s with pending := c :: rest } = exec c { s with pending := rest } ∧
    ∀ t, step { s with pending := c :: rest } = .next t → t.pending = rest

/-- DESIGN CHOICE (log entry 1): where no command waits, 1.28 ns pass and nothing else happens. -/
def Obligations.AnEmptyQueueLetsOneCyclePass : Prop :=
  ∀ s : State, s.pending = [] →
    ∃ t, step s = .next t ∧ t.dev.time.now = s.dev.time.now + perTick ∧ t.dev.time.dev = s.dev.time.dev + perTick ∧
      s.Only [] [.time] t

/-- After reset (R838): the device is in BOOT with turn 1, the mailbox and the journal are IDLE, no channel is held, every
square is UNSENSED, AUTO_WARM and the sensing enable are 1. The model's choices (log entries 3, 5 and 6): no command waits
and no byte of HBM is listed. -/
def Obligations.ResetLeavesTheValuesOfTheSpec : Prop :=
  State.reset.pending = [] ∧ State.reset.canonical ∧ State.reset.hbm = [] ∧ State.reset.dev.time.turn = 1 ∧ State.reset.dev.get R.PWR_SU_STATE = 0 ∧ State.reset.dev.get R.ADM_STATE = 0 ∧
    State.reset.dev.get R.PUSH_TABLE = 0 ∧ State.reset.dev.get R.MBX_MBX_STATE = 0 ∧ State.reset.dev.get R.ST_JSTATE = 0 ∧
    (∀ p, State.reset.dev.get (R.PIP_STATE p) = 0) ∧ (∀ cls i, State.reset.dev.chan? cls i = none) ∧
    (∀ n, (State.reset.dev.sqSense n).state = 0) ∧ State.reset.dev.get R.PWR_AUTO_WARM = 1 ∧ State.reset.dev.get R.SNS_EN = 1

/-- Every step keeps HBM in its canonical form: addresses strictly rising, no entry that an unlisted byte reads as. -/
def Obligations.EveryStepKeepsMemoryCanonical : Prop :=
  ∀ s t : State, s.canonical → step s = .next t → t.canonical

/-- Every command that the outside world can send completes in every state, and the only fault is a read beyond the stacks. -/
def Obligations.EverySendableCommandCompletes : Prop :=
  (∀ (c : Instr) (s : State), sendable c s = true → ∃ t, exec c s = .next t ∧ t.pending = s.pending) ∧
  ∀ (c : Instr) (s : State) (f : Fault), exec c s = .fault f →
    ∃ a e reader, c = .hbmReadReturn a e reader ∧ f = .hbmAddress a ∧ hbmBytes ≤ a

/-- HBM changes under the commands of memoryCommand alone (composed patches with a capture, the two units that write it, the
block engine, what a port, a table link or a drive brings in, the opening of a compose window and a power-on reset): every
other command leaves every byte of it as it was. -/
def Obligations.OnlyMemoryCommandsChangeHbm : Prop :=
  ∀ (c : Instr) (s t : State), memoryCommand c = false → exec c s = .next t → t.hbm = s.hbm

/-- BAR0 of a virtual function holds only doorbells and its own queues and rings (R678): a command that another function than 0
writes to a register of function 0 changes nothing. -/
def Obligations.OtherFunctionsCommandNothing : Prop :=
  ∀ (s : State) (req : Nat) (env : StartEnv) (word : Nat) (v : BitVec 32), req < 33 → fullAccess req = false → word < 5 →
    ∀ c ∈ [Instr.trial req, .resume req, .step req, .slew req, .atSecond req, .snap req, .warm req env, .domOffReqWrite req word v],
      exec c s = .next s

/-! ### Arithmetic -/

/-- R302: mul(x, a) is the floor of (x × a + 32,767) / 65,535, which is the integer nearest to x × a / 65,535, never tied; full
scale leaves x as it is and 0 gives 0. -/
def Obligations.AProductIsRoundedToTheNearest : Prop :=
  ∀ x a : Nat, x < 2 ^ 20 → a < 2 ^ 16 →
    mul x a = (x * a + 32767) / 65535 ∧ mul x 0xFFFF = x ∧ mul x 0 = 0 ∧
    2 * (x * a) < 65535 * (2 * mul x a + 1) ∧ 65535 * (2 * mul x a) < 2 * (x * a) + 65535 ∧ 2 * (x * a) % (2 * 65535) ≠ 65535

/-- R571: each bit of a ROP's result word is the bit of its code that the bits of FILL, source and destination number; COPY
takes the source's bit and FILL that of FILL, and neither reads the destination. -/
def Obligations.ARopCombinesItsOperandsBitByBit : Prop :=
  ∀ (j : BlitJob) (s : State) (x y i : Nat), i < 8 * bppOf j.dst.fmt →
    let out := leOf (j.pixel s s x y)
    let p := bit j.fill i
    let sb := match j.src with | some u => bit (s.word u (j.sx + x) (j.sy + y)) i | none => 0
    let db := bit (s.word j.dst (j.dx + x) (j.dy + y)) i
    (j.op = 3 → bit out i = bit j.rop (4 * p + 2 * sb + db)) ∧ (j.op = 1 → bit out i = sb) ∧ (j.op = 2 → bit out i = p) ∧
    (j.op = 1 ∨ j.op = 2 → ∀ dx dy, BlitJob.pixel { j with dx := dx, dy := dy } s s x y = j.pixel s s x y)
end

