-- ==== Sys2Proof/Laws/Tab.lean ====
section
/-! SUPPORT. The laws of sparse tables: what a table reads after it is set, and that setting keeps its form. -/

namespace Sys2Proof.Machine

variable {α : Type}

@[simp] theorem Tab.get?_nil (k : Nat) : Tab.get? ([] : Tab α) k = none := rfl

/-- A key that was set reads the value set. -/
@[simp] theorem Tab.get?_set_same (t : Tab α) (k : Nat) (v : α) : Tab.get? (Tab.set t k v) k = some v := by
  induction t with
  | nil => simp [Tab.set, Tab.get?]
  | cons p t ih =>
    obtain ⟨a, w⟩ := p
    unfold Tab.set
    split_ifs with h1 h2
    · simp [Tab.get?]
    · simp [Tab.get?]
    · simp [Tab.get?, h1, ih]

/-- Every other key reads as before. -/
theorem Tab.get?_set_ne (t : Tab α) (k j : Nat) (v : α) (h : j ≠ k) : Tab.get? (Tab.set t k v) j = Tab.get? t j := by
  induction t with
  | nil => simp [Tab.set, Tab.get?, h]
  | cons p t ih =>
    obtain ⟨a, w⟩ := p
    unfold Tab.set
    split_ifs with h1 h2
    · subst h1; simp [Tab.get?, h]
    · simp [Tab.get?, h]
    · simp [Tab.get?, ih]

theorem Tab.get?_set (t : Tab α) (k j : Nat) (v : α) :
    Tab.get? (Tab.set t k v) j = if j = k then some v else Tab.get? t j := by
  by_cases h : j = k
  · subst h; simp
  · simp [h, Tab.get?_set_ne]

@[simp] theorem Tab.getD_set_same (t : Tab α) (k : Nat) (v d : α) : Tab.getD (Tab.set t k v) k d = v := by
  simp [Tab.getD]

theorem Tab.getD_set_ne (t : Tab α) (k j : Nat) (v d : α) (h : j ≠ k) :
    Tab.getD (Tab.set t k v) j d = Tab.getD t j d := by
  simp [Tab.getD, Tab.get?_set_ne _ _ _ _ h]

/-- A key taken out of a table is not listed. -/
@[simp] theorem Tab.get?_erase_same (t : Tab α) (k : Nat) : Tab.get? (Tab.erase t k) k = none := by
  induction t with
  | nil => rfl
  | cons p t ih =>
    obtain ⟨a, w⟩ := p
    by_cases h : a = k
    · subst h; simpa [Tab.erase] using ih
    · have : Tab.erase ((a, w) :: t) k = (a, w) :: Tab.erase t k := by simp [Tab.erase, h]
      rw [this, Tab.get?, if_neg (fun e => h e.symm)]
      exact ih

/-- Taking a key out leaves the others. -/
theorem Tab.get?_erase_ne (t : Tab α) (k j : Nat) (h : j ≠ k) : Tab.get? (Tab.erase t k) j = Tab.get? t j := by
  induction t with
  | nil => rfl
  | cons p t ih =>
    obtain ⟨a, w⟩ := p
    by_cases ha : a = k
    · subst ha
      have : Tab.erase ((a, w) :: t) a = Tab.erase t a := by simp [Tab.erase]
      rw [this, ih, Tab.get?, if_neg h]
    · have : Tab.erase ((a, w) :: t) k = (a, w) :: Tab.erase t k := by simp [Tab.erase, ha]
      rw [this]
      simp [Tab.get?, ih]

/-- Keys that are not dropped read as before. -/
theorem Tab.get?_drop_ne (t : Tab α) (p : Nat → Bool) (j : Nat) (h : p j = false) :
    Tab.get? (Tab.drop t p) j = Tab.get? t j := by
  induction t with
  | nil => rfl
  | cons x t ih =>
    obtain ⟨a, w⟩ := x
    by_cases ha : p a = true
    · have hj : j ≠ a := fun e => by rw [e, ha] at h; cases h
      have : Tab.drop ((a, w) :: t) p = Tab.drop t p := by simp [Tab.drop, ha]
      rw [this, ih, Tab.get?, if_neg hj]
    · have : Tab.drop ((a, w) :: t) p = (a, w) :: Tab.drop t p := by simp [Tab.drop, ha]
      rw [this]
      simp [Tab.get?, ih]

/-- Dropped keys are not listed. -/
theorem Tab.get?_drop_same (t : Tab α) (p : Nat → Bool) (j : Nat) (h : p j = true) :
    Tab.get? (Tab.drop t p) j = none := by
  induction t with
  | nil => rfl
  | cons x t ih =>
    obtain ⟨a, w⟩ := x
    by_cases ha : p a = true
    · have : Tab.drop ((a, w) :: t) p = Tab.drop t p := by simp [Tab.drop, ha]
      rw [this, ih]
    · have hj : j ≠ a := fun e => ha (e ▸ h)
      have : Tab.drop ((a, w) :: t) p = (a, w) :: Tab.drop t p := by simp [Tab.drop, ha]
      rw [this, Tab.get?, if_neg hj, ih]

end Sys2Proof.Machine
end

