-- ==== Sys2Proof/Laws/State.lean ====
section
/-! SUPPORT. What each update of the state leaves alone: one lemma for each field and update, and the laws of register
fields, which later proofs cite in place of unfolding a record update. -/

namespace Sys2Proof.Machine

/-! ### The whole state -/

@[simp] theorem State.upd_dev (s : State) (f : Dev → Dev) : (s.upd f).dev = f s.dev := rfl
@[simp] theorem State.upd_hbm (s : State) (f : Dev → Dev) : (s.upd f).hbm = s.hbm := rfl
@[simp] theorem State.upd_pending (s : State) (f : Dev → Dev) : (s.upd f).pending = s.pending := rfl
@[simp] theorem State.withCommand_pending (s : State) (c : Instr) : (s.withCommand c).pending = c :: s.pending := rfl
@[simp] theorem State.withCommand_dev (s : State) (c : Instr) : (s.withCommand c).dev = s.dev := rfl
@[simp] theorem State.withCommand_hbm (s : State) (c : Instr) : (s.withCommand c).hbm = s.hbm := rfl

/-! ### `put` changes `regs` alone -/

@[simp] theorem Dev.put_acc (d : Dev) (f : Fld) (v : Nat) : (d.put f v).acc = d.acc := rfl
@[simp] theorem Dev.put_time (d : Dev) (f : Fld) (v : Nat) : (d.put f v).time = d.time := rfl
@[simp] theorem Dev.put_ev (d : Dev) (f : Fld) (v : Nat) : (d.put f v).ev = d.ev := rfl
@[simp] theorem Dev.put_q (d : Dev) (f : Fld) (v : Nat) : (d.put f v).q = d.q := rfl
@[simp] theorem Dev.put_ch (d : Dev) (f : Fld) (v : Nat) : (d.put f v).ch = d.ch := rfl
@[simp] theorem Dev.put_bank (d : Dev) (f : Fld) (v : Nat) : (d.put f v).bank = d.bank := rfl
@[simp] theorem Dev.put_pwr (d : Dev) (f : Fld) (v : Nat) : (d.put f v).pwr = d.pwr := rfl
@[simp] theorem Dev.put_geo (d : Dev) (f : Fld) (v : Nat) : (d.put f v).geo = d.geo := rfl
@[simp] theorem Dev.put_sched (d : Dev) (f : Fld) (v : Nat) : (d.put f v).sched = d.sched := rfl
@[simp] theorem Dev.put_adm (d : Dev) (f : Fld) (v : Nat) : (d.put f v).adm = d.adm := rfl
@[simp] theorem Dev.put_pip (d : Dev) (f : Fld) (v : Nat) : (d.put f v).pip = d.pip := rfl
@[simp] theorem Dev.put_mem (d : Dev) (f : Fld) (v : Nat) : (d.put f v).mem = d.mem := rfl
@[simp] theorem Dev.put_comp (d : Dev) (f : Fld) (v : Nat) : (d.put f v).comp = d.comp := rfl
@[simp] theorem Dev.put_cal (d : Dev) (f : Fld) (v : Nat) : (d.put f v).cal = d.cal := rfl
@[simp] theorem Dev.put_push (d : Dev) (f : Fld) (v : Nat) : (d.put f v).push = d.push := rfl
@[simp] theorem Dev.put_snk (d : Dev) (f : Fld) (v : Nat) : (d.put f v).snk = d.snk := rfl
@[simp] theorem Dev.put_ing (d : Dev) (f : Fld) (v : Nat) : (d.put f v).ing = d.ing := rfl
@[simp] theorem Dev.put_blt (d : Dev) (f : Fld) (v : Nat) : (d.put f v).blt = d.blt := rfl
@[simp] theorem Dev.put_sns (d : Dev) (f : Fld) (v : Nat) : (d.put f v).sns = d.sns := rfl
@[simp] theorem Dev.put_tbl (d : Dev) (f : Fld) (v : Nat) : (d.put f v).tbl = d.tbl := rfl
@[simp] theorem Dev.put_free (d : Dev) (f : Fld) (v : Nat) : (d.put f v).free = d.free := rfl
@[simp] theorem Dev.put_out (d : Dev) (f : Fld) (v : Nat) : (d.put f v).out = d.out := rfl

/-! ### `flag` changes `regs` alone -/

@[simp] theorem Dev.flag_acc (d : Dev) (f : Fld) : (d.flag f).acc = d.acc := rfl
@[simp] theorem Dev.flag_time (d : Dev) (f : Fld) : (d.flag f).time = d.time := rfl
@[simp] theorem Dev.flag_ev (d : Dev) (f : Fld) : (d.flag f).ev = d.ev := rfl
@[simp] theorem Dev.flag_q (d : Dev) (f : Fld) : (d.flag f).q = d.q := rfl
@[simp] theorem Dev.flag_ch (d : Dev) (f : Fld) : (d.flag f).ch = d.ch := rfl
@[simp] theorem Dev.flag_bank (d : Dev) (f : Fld) : (d.flag f).bank = d.bank := rfl
@[simp] theorem Dev.flag_pwr (d : Dev) (f : Fld) : (d.flag f).pwr = d.pwr := rfl
@[simp] theorem Dev.flag_geo (d : Dev) (f : Fld) : (d.flag f).geo = d.geo := rfl
@[simp] theorem Dev.flag_sched (d : Dev) (f : Fld) : (d.flag f).sched = d.sched := rfl
@[simp] theorem Dev.flag_adm (d : Dev) (f : Fld) : (d.flag f).adm = d.adm := rfl
@[simp] theorem Dev.flag_pip (d : Dev) (f : Fld) : (d.flag f).pip = d.pip := rfl
@[simp] theorem Dev.flag_mem (d : Dev) (f : Fld) : (d.flag f).mem = d.mem := rfl
@[simp] theorem Dev.flag_comp (d : Dev) (f : Fld) : (d.flag f).comp = d.comp := rfl
@[simp] theorem Dev.flag_cal (d : Dev) (f : Fld) : (d.flag f).cal = d.cal := rfl
@[simp] theorem Dev.flag_push (d : Dev) (f : Fld) : (d.flag f).push = d.push := rfl
@[simp] theorem Dev.flag_snk (d : Dev) (f : Fld) : (d.flag f).snk = d.snk := rfl
@[simp] theorem Dev.flag_ing (d : Dev) (f : Fld) : (d.flag f).ing = d.ing := rfl
@[simp] theorem Dev.flag_blt (d : Dev) (f : Fld) : (d.flag f).blt = d.blt := rfl
@[simp] theorem Dev.flag_sns (d : Dev) (f : Fld) : (d.flag f).sns = d.sns := rfl
@[simp] theorem Dev.flag_tbl (d : Dev) (f : Fld) : (d.flag f).tbl = d.tbl := rfl
@[simp] theorem Dev.flag_free (d : Dev) (f : Fld) : (d.flag f).free = d.free := rfl
@[simp] theorem Dev.flag_out (d : Dev) (f : Fld) : (d.flag f).out = d.out := rfl

/-! ### `bump` changes `regs` alone -/

@[simp] theorem Dev.bump_acc (d : Dev) (f : Fld) (n : Nat) : (d.bump f n).acc = d.acc := rfl
@[simp] theorem Dev.bump_time (d : Dev) (f : Fld) (n : Nat) : (d.bump f n).time = d.time := rfl
@[simp] theorem Dev.bump_ev (d : Dev) (f : Fld) (n : Nat) : (d.bump f n).ev = d.ev := rfl
@[simp] theorem Dev.bump_q (d : Dev) (f : Fld) (n : Nat) : (d.bump f n).q = d.q := rfl
@[simp] theorem Dev.bump_ch (d : Dev) (f : Fld) (n : Nat) : (d.bump f n).ch = d.ch := rfl
@[simp] theorem Dev.bump_bank (d : Dev) (f : Fld) (n : Nat) : (d.bump f n).bank = d.bank := rfl
@[simp] theorem Dev.bump_pwr (d : Dev) (f : Fld) (n : Nat) : (d.bump f n).pwr = d.pwr := rfl
@[simp] theorem Dev.bump_geo (d : Dev) (f : Fld) (n : Nat) : (d.bump f n).geo = d.geo := rfl
@[simp] theorem Dev.bump_sched (d : Dev) (f : Fld) (n : Nat) : (d.bump f n).sched = d.sched := rfl
@[simp] theorem Dev.bump_adm (d : Dev) (f : Fld) (n : Nat) : (d.bump f n).adm = d.adm := rfl
@[simp] theorem Dev.bump_pip (d : Dev) (f : Fld) (n : Nat) : (d.bump f n).pip = d.pip := rfl
@[simp] theorem Dev.bump_mem (d : Dev) (f : Fld) (n : Nat) : (d.bump f n).mem = d.mem := rfl
@[simp] theorem Dev.bump_comp (d : Dev) (f : Fld) (n : Nat) : (d.bump f n).comp = d.comp := rfl
@[simp] theorem Dev.bump_cal (d : Dev) (f : Fld) (n : Nat) : (d.bump f n).cal = d.cal := rfl
@[simp] theorem Dev.bump_push (d : Dev) (f : Fld) (n : Nat) : (d.bump f n).push = d.push := rfl
@[simp] theorem Dev.bump_snk (d : Dev) (f : Fld) (n : Nat) : (d.bump f n).snk = d.snk := rfl
@[simp] theorem Dev.bump_ing (d : Dev) (f : Fld) (n : Nat) : (d.bump f n).ing = d.ing := rfl
@[simp] theorem Dev.bump_blt (d : Dev) (f : Fld) (n : Nat) : (d.bump f n).blt = d.blt := rfl
@[simp] theorem Dev.bump_sns (d : Dev) (f : Fld) (n : Nat) : (d.bump f n).sns = d.sns := rfl
@[simp] theorem Dev.bump_tbl (d : Dev) (f : Fld) (n : Nat) : (d.bump f n).tbl = d.tbl := rfl
@[simp] theorem Dev.bump_free (d : Dev) (f : Fld) (n : Nat) : (d.bump f n).free = d.free := rfl
@[simp] theorem Dev.bump_out (d : Dev) (f : Fld) (n : Nat) : (d.bump f n).out = d.out := rfl

/-! ### `bumpSat` changes `regs` alone -/

@[simp] theorem Dev.bumpSat_acc (d : Dev) (f : Fld) (n : Nat) : (d.bumpSat f n).acc = d.acc := rfl
@[simp] theorem Dev.bumpSat_time (d : Dev) (f : Fld) (n : Nat) : (d.bumpSat f n).time = d.time := rfl
@[simp] theorem Dev.bumpSat_ev (d : Dev) (f : Fld) (n : Nat) : (d.bumpSat f n).ev = d.ev := rfl
@[simp] theorem Dev.bumpSat_q (d : Dev) (f : Fld) (n : Nat) : (d.bumpSat f n).q = d.q := rfl
@[simp] theorem Dev.bumpSat_ch (d : Dev) (f : Fld) (n : Nat) : (d.bumpSat f n).ch = d.ch := rfl
@[simp] theorem Dev.bumpSat_bank (d : Dev) (f : Fld) (n : Nat) : (d.bumpSat f n).bank = d.bank := rfl
@[simp] theorem Dev.bumpSat_pwr (d : Dev) (f : Fld) (n : Nat) : (d.bumpSat f n).pwr = d.pwr := rfl
@[simp] theorem Dev.bumpSat_geo (d : Dev) (f : Fld) (n : Nat) : (d.bumpSat f n).geo = d.geo := rfl
@[simp] theorem Dev.bumpSat_sched (d : Dev) (f : Fld) (n : Nat) : (d.bumpSat f n).sched = d.sched := rfl
@[simp] theorem Dev.bumpSat_adm (d : Dev) (f : Fld) (n : Nat) : (d.bumpSat f n).adm = d.adm := rfl
@[simp] theorem Dev.bumpSat_pip (d : Dev) (f : Fld) (n : Nat) : (d.bumpSat f n).pip = d.pip := rfl
@[simp] theorem Dev.bumpSat_mem (d : Dev) (f : Fld) (n : Nat) : (d.bumpSat f n).mem = d.mem := rfl
@[simp] theorem Dev.bumpSat_comp (d : Dev) (f : Fld) (n : Nat) : (d.bumpSat f n).comp = d.comp := rfl
@[simp] theorem Dev.bumpSat_cal (d : Dev) (f : Fld) (n : Nat) : (d.bumpSat f n).cal = d.cal := rfl
@[simp] theorem Dev.bumpSat_push (d : Dev) (f : Fld) (n : Nat) : (d.bumpSat f n).push = d.push := rfl
@[simp] theorem Dev.bumpSat_snk (d : Dev) (f : Fld) (n : Nat) : (d.bumpSat f n).snk = d.snk := rfl
@[simp] theorem Dev.bumpSat_ing (d : Dev) (f : Fld) (n : Nat) : (d.bumpSat f n).ing = d.ing := rfl
@[simp] theorem Dev.bumpSat_blt (d : Dev) (f : Fld) (n : Nat) : (d.bumpSat f n).blt = d.blt := rfl
@[simp] theorem Dev.bumpSat_sns (d : Dev) (f : Fld) (n : Nat) : (d.bumpSat f n).sns = d.sns := rfl
@[simp] theorem Dev.bumpSat_tbl (d : Dev) (f : Fld) (n : Nat) : (d.bumpSat f n).tbl = d.tbl := rfl
@[simp] theorem Dev.bumpSat_free (d : Dev) (f : Fld) (n : Nat) : (d.bumpSat f n).free = d.free := rfl
@[simp] theorem Dev.bumpSat_out (d : Dev) (f : Fld) (n : Nat) : (d.bumpSat f n).out = d.out := rfl

/-! ### `putMap` changes `regs` alone -/

@[simp] theorem Dev.putMap_acc (d : Dev) (f : Nat → Fld) (i : Nat) (b : Bool) : (d.putMap f i b).acc = d.acc := rfl
@[simp] theorem Dev.putMap_time (d : Dev) (f : Nat → Fld) (i : Nat) (b : Bool) : (d.putMap f i b).time = d.time := rfl
@[simp] theorem Dev.putMap_ev (d : Dev) (f : Nat → Fld) (i : Nat) (b : Bool) : (d.putMap f i b).ev = d.ev := rfl
@[simp] theorem Dev.putMap_q (d : Dev) (f : Nat → Fld) (i : Nat) (b : Bool) : (d.putMap f i b).q = d.q := rfl
@[simp] theorem Dev.putMap_ch (d : Dev) (f : Nat → Fld) (i : Nat) (b : Bool) : (d.putMap f i b).ch = d.ch := rfl
@[simp] theorem Dev.putMap_bank (d : Dev) (f : Nat → Fld) (i : Nat) (b : Bool) : (d.putMap f i b).bank = d.bank := rfl
@[simp] theorem Dev.putMap_pwr (d : Dev) (f : Nat → Fld) (i : Nat) (b : Bool) : (d.putMap f i b).pwr = d.pwr := rfl
@[simp] theorem Dev.putMap_geo (d : Dev) (f : Nat → Fld) (i : Nat) (b : Bool) : (d.putMap f i b).geo = d.geo := rfl
@[simp] theorem Dev.putMap_sched (d : Dev) (f : Nat → Fld) (i : Nat) (b : Bool) : (d.putMap f i b).sched = d.sched := rfl
@[simp] theorem Dev.putMap_adm (d : Dev) (f : Nat → Fld) (i : Nat) (b : Bool) : (d.putMap f i b).adm = d.adm := rfl
@[simp] theorem Dev.putMap_pip (d : Dev) (f : Nat → Fld) (i : Nat) (b : Bool) : (d.putMap f i b).pip = d.pip := rfl
@[simp] theorem Dev.putMap_mem (d : Dev) (f : Nat → Fld) (i : Nat) (b : Bool) : (d.putMap f i b).mem = d.mem := rfl
@[simp] theorem Dev.putMap_comp (d : Dev) (f : Nat → Fld) (i : Nat) (b : Bool) : (d.putMap f i b).comp = d.comp := rfl
@[simp] theorem Dev.putMap_cal (d : Dev) (f : Nat → Fld) (i : Nat) (b : Bool) : (d.putMap f i b).cal = d.cal := rfl
@[simp] theorem Dev.putMap_push (d : Dev) (f : Nat → Fld) (i : Nat) (b : Bool) : (d.putMap f i b).push = d.push := rfl
@[simp] theorem Dev.putMap_snk (d : Dev) (f : Nat → Fld) (i : Nat) (b : Bool) : (d.putMap f i b).snk = d.snk := rfl
@[simp] theorem Dev.putMap_ing (d : Dev) (f : Nat → Fld) (i : Nat) (b : Bool) : (d.putMap f i b).ing = d.ing := rfl
@[simp] theorem Dev.putMap_blt (d : Dev) (f : Nat → Fld) (i : Nat) (b : Bool) : (d.putMap f i b).blt = d.blt := rfl
@[simp] theorem Dev.putMap_sns (d : Dev) (f : Nat → Fld) (i : Nat) (b : Bool) : (d.putMap f i b).sns = d.sns := rfl
@[simp] theorem Dev.putMap_tbl (d : Dev) (f : Nat → Fld) (i : Nat) (b : Bool) : (d.putMap f i b).tbl = d.tbl := rfl
@[simp] theorem Dev.putMap_free (d : Dev) (f : Nat → Fld) (i : Nat) (b : Bool) : (d.putMap f i b).free = d.free := rfl
@[simp] theorem Dev.putMap_out (d : Dev) (f : Nat → Fld) (i : Nat) (b : Bool) : (d.putMap f i b).out = d.out := rfl

/-! ### `resetRegs` changes `regs` alone -/

@[simp] theorem Dev.resetRegs_acc (d : Dev) (lo hi : Nat) : (d.resetRegs lo hi).acc = d.acc := rfl
@[simp] theorem Dev.resetRegs_time (d : Dev) (lo hi : Nat) : (d.resetRegs lo hi).time = d.time := rfl
@[simp] theorem Dev.resetRegs_ev (d : Dev) (lo hi : Nat) : (d.resetRegs lo hi).ev = d.ev := rfl
@[simp] theorem Dev.resetRegs_q (d : Dev) (lo hi : Nat) : (d.resetRegs lo hi).q = d.q := rfl
@[simp] theorem Dev.resetRegs_ch (d : Dev) (lo hi : Nat) : (d.resetRegs lo hi).ch = d.ch := rfl
@[simp] theorem Dev.resetRegs_bank (d : Dev) (lo hi : Nat) : (d.resetRegs lo hi).bank = d.bank := rfl
@[simp] theorem Dev.resetRegs_pwr (d : Dev) (lo hi : Nat) : (d.resetRegs lo hi).pwr = d.pwr := rfl
@[simp] theorem Dev.resetRegs_geo (d : Dev) (lo hi : Nat) : (d.resetRegs lo hi).geo = d.geo := rfl
@[simp] theorem Dev.resetRegs_sched (d : Dev) (lo hi : Nat) : (d.resetRegs lo hi).sched = d.sched := rfl
@[simp] theorem Dev.resetRegs_adm (d : Dev) (lo hi : Nat) : (d.resetRegs lo hi).adm = d.adm := rfl
@[simp] theorem Dev.resetRegs_pip (d : Dev) (lo hi : Nat) : (d.resetRegs lo hi).pip = d.pip := rfl
@[simp] theorem Dev.resetRegs_mem (d : Dev) (lo hi : Nat) : (d.resetRegs lo hi).mem = d.mem := rfl
@[simp] theorem Dev.resetRegs_comp (d : Dev) (lo hi : Nat) : (d.resetRegs lo hi).comp = d.comp := rfl
@[simp] theorem Dev.resetRegs_cal (d : Dev) (lo hi : Nat) : (d.resetRegs lo hi).cal = d.cal := rfl
@[simp] theorem Dev.resetRegs_push (d : Dev) (lo hi : Nat) : (d.resetRegs lo hi).push = d.push := rfl
@[simp] theorem Dev.resetRegs_snk (d : Dev) (lo hi : Nat) : (d.resetRegs lo hi).snk = d.snk := rfl
@[simp] theorem Dev.resetRegs_ing (d : Dev) (lo hi : Nat) : (d.resetRegs lo hi).ing = d.ing := rfl
@[simp] theorem Dev.resetRegs_blt (d : Dev) (lo hi : Nat) : (d.resetRegs lo hi).blt = d.blt := rfl
@[simp] theorem Dev.resetRegs_sns (d : Dev) (lo hi : Nat) : (d.resetRegs lo hi).sns = d.sns := rfl
@[simp] theorem Dev.resetRegs_tbl (d : Dev) (lo hi : Nat) : (d.resetRegs lo hi).tbl = d.tbl := rfl
@[simp] theorem Dev.resetRegs_free (d : Dev) (lo hi : Nat) : (d.resetRegs lo hi).free = d.free := rfl
@[simp] theorem Dev.resetRegs_out (d : Dev) (lo hi : Nat) : (d.resetRegs lo hi).out = d.out := rfl

/-! ### `resetBlock` changes `regs` alone -/

@[simp] theorem Dev.resetBlock_acc (d : Dev) (b : Nat) : (d.resetBlock b).acc = d.acc := rfl
@[simp] theorem Dev.resetBlock_time (d : Dev) (b : Nat) : (d.resetBlock b).time = d.time := rfl
@[simp] theorem Dev.resetBlock_ev (d : Dev) (b : Nat) : (d.resetBlock b).ev = d.ev := rfl
@[simp] theorem Dev.resetBlock_q (d : Dev) (b : Nat) : (d.resetBlock b).q = d.q := rfl
@[simp] theorem Dev.resetBlock_ch (d : Dev) (b : Nat) : (d.resetBlock b).ch = d.ch := rfl
@[simp] theorem Dev.resetBlock_bank (d : Dev) (b : Nat) : (d.resetBlock b).bank = d.bank := rfl
@[simp] theorem Dev.resetBlock_pwr (d : Dev) (b : Nat) : (d.resetBlock b).pwr = d.pwr := rfl
@[simp] theorem Dev.resetBlock_geo (d : Dev) (b : Nat) : (d.resetBlock b).geo = d.geo := rfl
@[simp] theorem Dev.resetBlock_sched (d : Dev) (b : Nat) : (d.resetBlock b).sched = d.sched := rfl
@[simp] theorem Dev.resetBlock_adm (d : Dev) (b : Nat) : (d.resetBlock b).adm = d.adm := rfl
@[simp] theorem Dev.resetBlock_pip (d : Dev) (b : Nat) : (d.resetBlock b).pip = d.pip := rfl
@[simp] theorem Dev.resetBlock_mem (d : Dev) (b : Nat) : (d.resetBlock b).mem = d.mem := rfl
@[simp] theorem Dev.resetBlock_comp (d : Dev) (b : Nat) : (d.resetBlock b).comp = d.comp := rfl
@[simp] theorem Dev.resetBlock_cal (d : Dev) (b : Nat) : (d.resetBlock b).cal = d.cal := rfl
@[simp] theorem Dev.resetBlock_push (d : Dev) (b : Nat) : (d.resetBlock b).push = d.push := rfl
@[simp] theorem Dev.resetBlock_snk (d : Dev) (b : Nat) : (d.resetBlock b).snk = d.snk := rfl
@[simp] theorem Dev.resetBlock_ing (d : Dev) (b : Nat) : (d.resetBlock b).ing = d.ing := rfl
@[simp] theorem Dev.resetBlock_blt (d : Dev) (b : Nat) : (d.resetBlock b).blt = d.blt := rfl
@[simp] theorem Dev.resetBlock_sns (d : Dev) (b : Nat) : (d.resetBlock b).sns = d.sns := rfl
@[simp] theorem Dev.resetBlock_tbl (d : Dev) (b : Nat) : (d.resetBlock b).tbl = d.tbl := rfl
@[simp] theorem Dev.resetBlock_free (d : Dev) (b : Nat) : (d.resetBlock b).free = d.free := rfl
@[simp] theorem Dev.resetBlock_out (d : Dev) (b : Nat) : (d.resetBlock b).out = d.out := rfl

/-! ### `send` changes `out` alone -/

@[simp] theorem Dev.send_regs (d : Dev) (m : OutMsg) : (d.send m).regs = d.regs := rfl
@[simp] theorem Dev.send_acc (d : Dev) (m : OutMsg) : (d.send m).acc = d.acc := rfl
@[simp] theorem Dev.send_time (d : Dev) (m : OutMsg) : (d.send m).time = d.time := rfl
@[simp] theorem Dev.send_ev (d : Dev) (m : OutMsg) : (d.send m).ev = d.ev := rfl
@[simp] theorem Dev.send_q (d : Dev) (m : OutMsg) : (d.send m).q = d.q := rfl
@[simp] theorem Dev.send_ch (d : Dev) (m : OutMsg) : (d.send m).ch = d.ch := rfl
@[simp] theorem Dev.send_bank (d : Dev) (m : OutMsg) : (d.send m).bank = d.bank := rfl
@[simp] theorem Dev.send_pwr (d : Dev) (m : OutMsg) : (d.send m).pwr = d.pwr := rfl
@[simp] theorem Dev.send_geo (d : Dev) (m : OutMsg) : (d.send m).geo = d.geo := rfl
@[simp] theorem Dev.send_sched (d : Dev) (m : OutMsg) : (d.send m).sched = d.sched := rfl
@[simp] theorem Dev.send_adm (d : Dev) (m : OutMsg) : (d.send m).adm = d.adm := rfl
@[simp] theorem Dev.send_pip (d : Dev) (m : OutMsg) : (d.send m).pip = d.pip := rfl
@[simp] theorem Dev.send_mem (d : Dev) (m : OutMsg) : (d.send m).mem = d.mem := rfl
@[simp] theorem Dev.send_comp (d : Dev) (m : OutMsg) : (d.send m).comp = d.comp := rfl
@[simp] theorem Dev.send_cal (d : Dev) (m : OutMsg) : (d.send m).cal = d.cal := rfl
@[simp] theorem Dev.send_push (d : Dev) (m : OutMsg) : (d.send m).push = d.push := rfl
@[simp] theorem Dev.send_snk (d : Dev) (m : OutMsg) : (d.send m).snk = d.snk := rfl
@[simp] theorem Dev.send_ing (d : Dev) (m : OutMsg) : (d.send m).ing = d.ing := rfl
@[simp] theorem Dev.send_blt (d : Dev) (m : OutMsg) : (d.send m).blt = d.blt := rfl
@[simp] theorem Dev.send_sns (d : Dev) (m : OutMsg) : (d.send m).sns = d.sns := rfl
@[simp] theorem Dev.send_tbl (d : Dev) (m : OutMsg) : (d.send m).tbl = d.tbl := rfl
@[simp] theorem Dev.send_free (d : Dev) (m : OutMsg) : (d.send m).free = d.free := rfl

/-! ### `advance` changes `time` alone -/

@[simp] theorem Dev.advance_regs (d : Dev) (n : Nat) : (d.advance n).regs = d.regs := rfl
@[simp] theorem Dev.advance_acc (d : Dev) (n : Nat) : (d.advance n).acc = d.acc := rfl
@[simp] theorem Dev.advance_ev (d : Dev) (n : Nat) : (d.advance n).ev = d.ev := rfl
@[simp] theorem Dev.advance_q (d : Dev) (n : Nat) : (d.advance n).q = d.q := rfl
@[simp] theorem Dev.advance_ch (d : Dev) (n : Nat) : (d.advance n).ch = d.ch := rfl
@[simp] theorem Dev.advance_bank (d : Dev) (n : Nat) : (d.advance n).bank = d.bank := rfl
@[simp] theorem Dev.advance_pwr (d : Dev) (n : Nat) : (d.advance n).pwr = d.pwr := rfl
@[simp] theorem Dev.advance_geo (d : Dev) (n : Nat) : (d.advance n).geo = d.geo := rfl
@[simp] theorem Dev.advance_sched (d : Dev) (n : Nat) : (d.advance n).sched = d.sched := rfl
@[simp] theorem Dev.advance_adm (d : Dev) (n : Nat) : (d.advance n).adm = d.adm := rfl
@[simp] theorem Dev.advance_pip (d : Dev) (n : Nat) : (d.advance n).pip = d.pip := rfl
@[simp] theorem Dev.advance_mem (d : Dev) (n : Nat) : (d.advance n).mem = d.mem := rfl
@[simp] theorem Dev.advance_comp (d : Dev) (n : Nat) : (d.advance n).comp = d.comp := rfl
@[simp] theorem Dev.advance_cal (d : Dev) (n : Nat) : (d.advance n).cal = d.cal := rfl
@[simp] theorem Dev.advance_push (d : Dev) (n : Nat) : (d.advance n).push = d.push := rfl
@[simp] theorem Dev.advance_snk (d : Dev) (n : Nat) : (d.advance n).snk = d.snk := rfl
@[simp] theorem Dev.advance_ing (d : Dev) (n : Nat) : (d.advance n).ing = d.ing := rfl
@[simp] theorem Dev.advance_blt (d : Dev) (n : Nat) : (d.advance n).blt = d.blt := rfl
@[simp] theorem Dev.advance_sns (d : Dev) (n : Nat) : (d.advance n).sns = d.sns := rfl
@[simp] theorem Dev.advance_tbl (d : Dev) (n : Nat) : (d.advance n).tbl = d.tbl := rfl
@[simp] theorem Dev.advance_free (d : Dev) (n : Nat) : (d.advance n).free = d.free := rfl
@[simp] theorem Dev.advance_out (d : Dev) (n : Nat) : (d.advance n).out = d.out := rfl

/-! ### `putChan` changes `ch` alone -/

@[simp] theorem Dev.putChan_regs (d : Dev) (cls idx : Nat) (c : Chan) : (d.putChan cls idx c).regs = d.regs := rfl
@[simp] theorem Dev.putChan_acc (d : Dev) (cls idx : Nat) (c : Chan) : (d.putChan cls idx c).acc = d.acc := rfl
@[simp] theorem Dev.putChan_time (d : Dev) (cls idx : Nat) (c : Chan) : (d.putChan cls idx c).time = d.time := rfl
@[simp] theorem Dev.putChan_ev (d : Dev) (cls idx : Nat) (c : Chan) : (d.putChan cls idx c).ev = d.ev := rfl
@[simp] theorem Dev.putChan_q (d : Dev) (cls idx : Nat) (c : Chan) : (d.putChan cls idx c).q = d.q := rfl
@[simp] theorem Dev.putChan_bank (d : Dev) (cls idx : Nat) (c : Chan) : (d.putChan cls idx c).bank = d.bank := rfl
@[simp] theorem Dev.putChan_pwr (d : Dev) (cls idx : Nat) (c : Chan) : (d.putChan cls idx c).pwr = d.pwr := rfl
@[simp] theorem Dev.putChan_geo (d : Dev) (cls idx : Nat) (c : Chan) : (d.putChan cls idx c).geo = d.geo := rfl
@[simp] theorem Dev.putChan_sched (d : Dev) (cls idx : Nat) (c : Chan) : (d.putChan cls idx c).sched = d.sched := rfl
@[simp] theorem Dev.putChan_adm (d : Dev) (cls idx : Nat) (c : Chan) : (d.putChan cls idx c).adm = d.adm := rfl
@[simp] theorem Dev.putChan_pip (d : Dev) (cls idx : Nat) (c : Chan) : (d.putChan cls idx c).pip = d.pip := rfl
@[simp] theorem Dev.putChan_mem (d : Dev) (cls idx : Nat) (c : Chan) : (d.putChan cls idx c).mem = d.mem := rfl
@[simp] theorem Dev.putChan_comp (d : Dev) (cls idx : Nat) (c : Chan) : (d.putChan cls idx c).comp = d.comp := rfl
@[simp] theorem Dev.putChan_cal (d : Dev) (cls idx : Nat) (c : Chan) : (d.putChan cls idx c).cal = d.cal := rfl
@[simp] theorem Dev.putChan_push (d : Dev) (cls idx : Nat) (c : Chan) : (d.putChan cls idx c).push = d.push := rfl
@[simp] theorem Dev.putChan_snk (d : Dev) (cls idx : Nat) (c : Chan) : (d.putChan cls idx c).snk = d.snk := rfl
@[simp] theorem Dev.putChan_ing (d : Dev) (cls idx : Nat) (c : Chan) : (d.putChan cls idx c).ing = d.ing := rfl
@[simp] theorem Dev.putChan_blt (d : Dev) (cls idx : Nat) (c : Chan) : (d.putChan cls idx c).blt = d.blt := rfl
@[simp] theorem Dev.putChan_sns (d : Dev) (cls idx : Nat) (c : Chan) : (d.putChan cls idx c).sns = d.sns := rfl
@[simp] theorem Dev.putChan_tbl (d : Dev) (cls idx : Nat) (c : Chan) : (d.putChan cls idx c).tbl = d.tbl := rfl
@[simp] theorem Dev.putChan_free (d : Dev) (cls idx : Nat) (c : Chan) : (d.putChan cls idx c).free = d.free := rfl
@[simp] theorem Dev.putChan_out (d : Dev) (cls idx : Nat) (c : Chan) : (d.putChan cls idx c).out = d.out := rfl

/-! ### `modChan` changes `ch` alone -/

@[simp] theorem Dev.modChan_regs (d : Dev) (cls idx : Nat) (f : Chan → Chan) : (d.modChan cls idx f).regs = d.regs := rfl
@[simp] theorem Dev.modChan_acc (d : Dev) (cls idx : Nat) (f : Chan → Chan) : (d.modChan cls idx f).acc = d.acc := rfl
@[simp] theorem Dev.modChan_time (d : Dev) (cls idx : Nat) (f : Chan → Chan) : (d.modChan cls idx f).time = d.time := rfl
@[simp] theorem Dev.modChan_ev (d : Dev) (cls idx : Nat) (f : Chan → Chan) : (d.modChan cls idx f).ev = d.ev := rfl
@[simp] theorem Dev.modChan_q (d : Dev) (cls idx : Nat) (f : Chan → Chan) : (d.modChan cls idx f).q = d.q := rfl
@[simp] theorem Dev.modChan_bank (d : Dev) (cls idx : Nat) (f : Chan → Chan) : (d.modChan cls idx f).bank = d.bank := rfl
@[simp] theorem Dev.modChan_pwr (d : Dev) (cls idx : Nat) (f : Chan → Chan) : (d.modChan cls idx f).pwr = d.pwr := rfl
@[simp] theorem Dev.modChan_geo (d : Dev) (cls idx : Nat) (f : Chan → Chan) : (d.modChan cls idx f).geo = d.geo := rfl
@[simp] theorem Dev.modChan_sched (d : Dev) (cls idx : Nat) (f : Chan → Chan) : (d.modChan cls idx f).sched = d.sched := rfl
@[simp] theorem Dev.modChan_adm (d : Dev) (cls idx : Nat) (f : Chan → Chan) : (d.modChan cls idx f).adm = d.adm := rfl
@[simp] theorem Dev.modChan_pip (d : Dev) (cls idx : Nat) (f : Chan → Chan) : (d.modChan cls idx f).pip = d.pip := rfl
@[simp] theorem Dev.modChan_mem (d : Dev) (cls idx : Nat) (f : Chan → Chan) : (d.modChan cls idx f).mem = d.mem := rfl
@[simp] theorem Dev.modChan_comp (d : Dev) (cls idx : Nat) (f : Chan → Chan) : (d.modChan cls idx f).comp = d.comp := rfl
@[simp] theorem Dev.modChan_cal (d : Dev) (cls idx : Nat) (f : Chan → Chan) : (d.modChan cls idx f).cal = d.cal := rfl
@[simp] theorem Dev.modChan_push (d : Dev) (cls idx : Nat) (f : Chan → Chan) : (d.modChan cls idx f).push = d.push := rfl
@[simp] theorem Dev.modChan_snk (d : Dev) (cls idx : Nat) (f : Chan → Chan) : (d.modChan cls idx f).snk = d.snk := rfl
@[simp] theorem Dev.modChan_ing (d : Dev) (cls idx : Nat) (f : Chan → Chan) : (d.modChan cls idx f).ing = d.ing := rfl
@[simp] theorem Dev.modChan_blt (d : Dev) (cls idx : Nat) (f : Chan → Chan) : (d.modChan cls idx f).blt = d.blt := rfl
@[simp] theorem Dev.modChan_sns (d : Dev) (cls idx : Nat) (f : Chan → Chan) : (d.modChan cls idx f).sns = d.sns := rfl
@[simp] theorem Dev.modChan_tbl (d : Dev) (cls idx : Nat) (f : Chan → Chan) : (d.modChan cls idx f).tbl = d.tbl := rfl
@[simp] theorem Dev.modChan_free (d : Dev) (cls idx : Nat) (f : Chan → Chan) : (d.modChan cls idx f).free = d.free := rfl
@[simp] theorem Dev.modChan_out (d : Dev) (cls idx : Nat) (f : Chan → Chan) : (d.modChan cls idx f).out = d.out := rfl

/-! ### `owe` changes `q` alone -/

@[simp] theorem Dev.owe_regs (d : Dev) (o : Owed) : (d.owe o).regs = d.regs := rfl
@[simp] theorem Dev.owe_acc (d : Dev) (o : Owed) : (d.owe o).acc = d.acc := rfl
@[simp] theorem Dev.owe_time (d : Dev) (o : Owed) : (d.owe o).time = d.time := rfl
@[simp] theorem Dev.owe_ev (d : Dev) (o : Owed) : (d.owe o).ev = d.ev := rfl
@[simp] theorem Dev.owe_ch (d : Dev) (o : Owed) : (d.owe o).ch = d.ch := rfl
@[simp] theorem Dev.owe_bank (d : Dev) (o : Owed) : (d.owe o).bank = d.bank := rfl
@[simp] theorem Dev.owe_pwr (d : Dev) (o : Owed) : (d.owe o).pwr = d.pwr := rfl
@[simp] theorem Dev.owe_geo (d : Dev) (o : Owed) : (d.owe o).geo = d.geo := rfl
@[simp] theorem Dev.owe_sched (d : Dev) (o : Owed) : (d.owe o).sched = d.sched := rfl
@[simp] theorem Dev.owe_adm (d : Dev) (o : Owed) : (d.owe o).adm = d.adm := rfl
@[simp] theorem Dev.owe_pip (d : Dev) (o : Owed) : (d.owe o).pip = d.pip := rfl
@[simp] theorem Dev.owe_mem (d : Dev) (o : Owed) : (d.owe o).mem = d.mem := rfl
@[simp] theorem Dev.owe_comp (d : Dev) (o : Owed) : (d.owe o).comp = d.comp := rfl
@[simp] theorem Dev.owe_cal (d : Dev) (o : Owed) : (d.owe o).cal = d.cal := rfl
@[simp] theorem Dev.owe_push (d : Dev) (o : Owed) : (d.owe o).push = d.push := rfl
@[simp] theorem Dev.owe_snk (d : Dev) (o : Owed) : (d.owe o).snk = d.snk := rfl
@[simp] theorem Dev.owe_ing (d : Dev) (o : Owed) : (d.owe o).ing = d.ing := rfl
@[simp] theorem Dev.owe_blt (d : Dev) (o : Owed) : (d.owe o).blt = d.blt := rfl
@[simp] theorem Dev.owe_sns (d : Dev) (o : Owed) : (d.owe o).sns = d.sns := rfl
@[simp] theorem Dev.owe_tbl (d : Dev) (o : Owed) : (d.owe o).tbl = d.tbl := rfl
@[simp] theorem Dev.owe_free (d : Dev) (o : Owed) : (d.owe o).free = d.free := rfl
@[simp] theorem Dev.owe_out (d : Dev) (o : Owed) : (d.owe o).out = d.out := rfl

end Sys2Proof.Machine
end

