-- ==== Sys2Proof/Laws/Regs.lean ====
section
/-! SUPPORT. What a register field reads after a field is written. -/

namespace Sys2Proof.Machine

/-- A field reads what was written to it, cut to its width. -/
@[simp] theorem Dev.get_put_same (d : Dev) (f : Fld) (v : Nat) : (d.put f v).get f = v % f.size := by
  simp [Dev.get, Dev.put]

/-- A field holds no more than its width. -/
theorem Dev.get_lt (d : Dev) (f : Fld) : d.get f < f.size := Nat.mod_lt _ (by unfold Fld.size; positivity)

/-- A write leaves every other field alone. -/
theorem Dev.get_put_ne (d : Dev) (f g : Fld) (v : Nat) (h : g.key ≠ f.key) : (d.put f v).get g = d.get g := by
  simp [Dev.get, Dev.put, Tab.getD_set_ne _ _ _ _ _ h]

/-- A field reads its table alone. -/
theorem Dev.get_congr {d e : Dev} (h : e.regs = d.regs) (f : Fld) : e.get f = d.get f := by simp [Dev.get, h]

@[simp] theorem Dev.get_flag_same (d : Dev) (f : Fld) : (d.flag f).get f = 1 % f.size := by simp [Dev.flag]

theorem Dev.get_flag_ne (d : Dev) (f g : Fld) (h : g.key ≠ f.key) : (d.flag f).get g = d.get g :=
  Dev.get_put_ne d f g 1 h

@[simp] theorem Dev.get_bump_same (d : Dev) (f : Fld) (n : Nat) : (d.bump f n).get f = (d.get f + n) % f.size := by
  simp [Dev.bump]

theorem Dev.get_bump_ne (d : Dev) (f g : Fld) (n : Nat) (h : g.key ≠ f.key) : (d.bump f n).get g = d.get g :=
  Dev.get_put_ne d f g _ h

theorem Dev.get_putMap_ne (d : Dev) (f : Nat → Fld) (g : Fld) (i : Nat) (b : Bool) (h : g.key ≠ (f (i / 32)).key) :
    (d.putMap f i b).get g = d.get g := Dev.get_put_ne d _ g _ h

/-- Two fields of different registers are two fields. -/
theorem Fld.key_ne_of_addr {f g : Fld} (hf : f.lo < 64) (hg : g.lo < 64) (h : f.addr ≠ g.addr) : f.key ≠ g.key := by
  unfold Fld.key; omega

/-- Two fields that begin at different bits are two fields. -/
theorem Fld.key_ne_of_lo {f g : Fld} (hf : f.lo < 64) (hg : g.lo < 64) (h : f.lo ≠ g.lo) : f.key ≠ g.key := by
  unfold Fld.key; omega

/-- A field of width w holds less than 2^w. -/
theorem Fld.size_pos (f : Fld) : 0 < f.size := by unfold Fld.size; positivity

/-- After reset every field reads its reset value. -/
theorem Dev.get_reset (f : Fld) (h : f.rst < f.size) : State.reset.dev.get f = f.rst := Nat.mod_eq_of_lt h

end Sys2Proof.Machine
end

