-- ==== Sys2Proof/Laws/Only.lean ====
section
/-! SUPPORT. How changes compose: the laws of `Only`, by which a frame is proved one operation at a time. -/

namespace Sys2Proof

open Machine

namespace Only

/-- Every part is itself. -/
theorem same_refl (p : Part) (d : Dev) : p.same d d := by cases p <;> rfl

theorem same_trans {p : Part} {a b c : Dev} (h : p.same a b) (k : p.same b c) : p.same a c := by
  cases p <;> exact Eq.trans k h

theorem refl (r : Nat → Bool) (l : List Part) (d : Dev) : d.Only r l d := ⟨fun _ _ => rfl, fun p _ => same_refl p d⟩

theorem trans {r : Nat → Bool} {l : List Part} {a b c : Dev} (h : a.Only r l b) (k : b.Only r l c) : a.Only r l c :=
  ⟨fun f hf => (k.1 f hf).trans (h.1 f hf), fun p hp => same_trans (h.2 p hp) (k.2 p hp)⟩

/-- A frame may be widened. -/
theorem mono {r r' : Nat → Bool} {l l' : List Part} {a b : Dev} (h : a.Only r l b) (hr : ∀ x, r' x = false → r x = false)
    (hl : ∀ p, p ∈ l → p ∈ l') : a.Only r' l' b :=
  ⟨fun f hx => h.1 f (hr _ hx), fun p hp => h.2 p (fun hm => hp (hl p hm))⟩

/-- A write of a register that the frame names. -/
theorem put {r : Nat → Bool} {l : List Part} (d : Dev) (f : Fld) (v : Nat) (h : r f.key = true) :
    d.Only r l (d.put f v) := by
  constructor
  · intro g hg
    refine Dev.get_put_ne d f g v ?_
    intro e; rw [e, h] at hg; cases hg
  · intro p _; cases p <;> rfl

theorem flag {r : Nat → Bool} {l : List Part} (d : Dev) (f : Fld) (h : r f.key = true) :
    d.Only r l (d.flag f) := put d f 1 h

theorem bump {r : Nat → Bool} {l : List Part} (d : Dev) (f : Fld) (n : Nat) (h : r f.key = true) :
    d.Only r l (d.bump f n) := put d f _ h

theorem putMap {r : Nat → Bool} {l : List Part} (d : Dev) (f : Nat → Fld) (i : Nat) (b : Bool)
    (h : r (f (i / 32)).key = true) : d.Only r l (d.putMap f i b) := put d _ _ h

/-- Both branches stay within the frame. -/
theorem ite {r : Nat → Bool} {l : List Part} {d : Dev} {c : Prop} [Decidable c] {x y : Dev} (h : d.Only r l x)
    (k : d.Only r l y) : d.Only r l (if c then x else y) := by split_ifs <;> assumption

/-- A change of parts that the frame names, registers left alone. -/
theorem parts {r : Nat → Bool} {l : List Part} {d e : Dev} (hr : e.regs = d.regs) (h : ∀ p, p ∉ l → p.same d e) :
    d.Only r l e := ⟨fun f _ => Dev.get_congr hr f, h⟩

theorem mapEv {r : Nat → Bool} {l : List Part} (d : Dev) (f : EvSt → EvSt) (h : (f d.ev).still = d.ev.still)
    (hl : Part.events ∈ l) : d.Only r l (d.mapEv f) := by
  refine parts rfl fun p hp => ?_
  cases p <;> first | rfl | exact absurd hl hp | exact h

theorem mapBank {r : Nat → Bool} {l : List Part} (d : Dev) (f : BankSt → BankSt) (h : (f d.bank).still = d.bank.still)
    (hl : Part.ledger ∈ l) : d.Only r l (d.mapBank f) := by
  refine parts rfl fun p hp => ?_
  cases p <;> first | rfl | exact absurd hl hp | exact h

theorem send {r : Nat → Bool} {l : List Part} (d : Dev) (m : OutMsg) (hl : Part.out ∈ l) : d.Only r l (d.send m) := by
  refine parts rfl fun p hp => ?_
  cases p <;> first | rfl | exact absurd hl hp

/-- A loop of steps that each stay within the frame stays within it. -/
theorem foldl {r : Nat → Bool} {l : List Part} {α : Type} (f : Dev → α → Dev) (xs : List α)
    (h : ∀ d : Dev, ∀ x ∈ xs, d.Only r l (f d x)) (d : Dev) : d.Only r l (xs.foldl f d) := by
  induction xs generalizing d with
  | nil => exact refl r l d
  | cons x t ih =>
    exact trans (h d x (List.mem_cons_self ..)) (ih (fun d y hy => h d y (List.mem_cons_of_mem x hy)) _)

end Only

end Sys2Proof
end

