-- ==== Sys2Proof/Laws/Events.lean ====
section
/-! SUPPORT. What raising an event and writing the ledger can change: the registers of the event controller and of
the persistent store, the events, the ledger and what is sent out, and nothing else. -/

namespace Sys2Proof.Machine

/-- The registers that telling of an event changes: those of the two blocks but `PEND`. -/
def tellBlock (k : Nat) : Bool := noteBlock k && !(decide (0x4008000 ≤ k) && decide (k < 0x400A000))

/-- e differs from d in what telling of an event changes alone. -/
abbrev Dev.Told (d e : Dev) : Prop := d.Only tellBlock notes e

/-- e differs from d in events raised and ledger entries made alone. -/
abbrev Dev.Noted (d e : Dev) : Prop := d.Only noteBlock notes e

namespace Telling

theorem refl (d : Dev) : d.Told d := Only.refl _ _ d

theorem trans {a b c : Dev} (h : a.Told b) (k : b.Told c) : a.Told c := Only.trans h k

theorem put (d : Dev) (f : Fld) (v : Nat) (h : tellBlock f.key = true) : d.Told (d.put f v) :=
  Only.put d f v h

theorem flag (d : Dev) (f : Fld) (h : tellBlock f.key = true) : d.Told (d.flag f) := put d f 1 h
theorem bump (d : Dev) (f : Fld) (n : Nat) (h : tellBlock f.key = true) : d.Told (d.bump f n) :=
  put d f _ h

/-- A change of the events that raising makes. -/
theorem mapEv (d : Dev) (f : EvSt → EvSt) (h : (f d.ev).still = d.ev.still := by rfl) : d.Told (d.mapEv f) :=
  Only.mapEv d f h (by decide)

/-- Something sent out. -/
theorem send (d : Dev) (m : OutMsg) : d.Told (d.send m) := Only.send d m (by decide)

theorem ite_of {d : Dev} {c : Prop} [Decidable c] {x y : Dev} (h : d.Told x) (k : d.Told y) :
    d.Told (if c then x else y) := Only.ite h k

theorem msi (d : Dev) (fn vec : Nat) : d.Told (d.msi fn vec) := by
  unfold Dev.msi
  split_ifs
  · exact trans (bump d _ 1 (by decide)) (flag _ _ (by decide))
  · exact mapEv d _
  · exact send d _

theorem ering_put (d : Dev) (r : Nat) (hr : r < 32) (f : Fld) (v : Nat)
    (hf : 0x100400 + 0x20 * r ≤ f.addr ∧ f.addr < 0x100420 + 0x20 * r) (hl : f.lo < 64) : d.Told (d.put f v) := by
  refine put d f v ?_
  have h1 : f.key / 0x4000000 = 1 := by unfold Fld.key; omega
  have h2 : ¬ f.key < 0x400A000 := by unfold Fld.key; omega
  simp [tellBlock, noteBlock, h1, h2]

theorem eringCount (d : Dev) (r : Nat) : d.Told (d.eringCount r) := by
  unfold Dev.eringCount
  dsimp only
  split_ifs
  · exact trans (mapEv d _) (msi _ _ _)
  · exact mapEv d _

theorem eringLose (d : Dev) (r : Nat) : d.Told (d.eringLose r) :=
  trans (trans (bump d _ 1 (by decide)) (flag _ _ (by decide))) (mapEv _ _)

theorem eringStep (d : Dev) (r tail phase : Nat) (hr : r < 32) : d.Told (d.eringStep r tail phase) := by
  have h1 : d.Told (d.put (R.ERING_TAIL r) tail) :=
    ering_put _ r hr (R.ERING_TAIL r) _ (by simp only [R.ERING_TAIL]; omega) (by simp only [R.ERING_TAIL]; omega)
  unfold Dev.eringStep
  dsimp only
  split_ifs
  · exact trans h1 (ering_put _ r hr (R.ERING_PHASE r) _ (by simp only [R.ERING_PHASE]; omega) (by simp only [R.ERING_PHASE]; omega))
  · exact h1

theorem eringWrite (d : Dev) (r : Nat) (hr : r < 32) (rec : EvRec) : d.Told (d.eringWrite r rec) := by
  unfold Dev.eringWrite
  dsimp only
  split_ifs
  · exact eringLose d r
  · exact trans (ering_put d r hr (R.ERING_FULL r) 1 (by simp only [R.ERING_FULL]; omega) (by simp only [R.ERING_FULL]; omega)) (eringLose _ r)
  all_goals exact trans (trans (trans (send d _) (mapEv _ _)) (eringStep _ r _ _ hr)) (eringCount _ r)

theorem bankRecord (d : Dev) (rec : EvRec) : d.Told (d.bankRecord rec) := by
  unfold Dev.bankRecord
  split_ifs
  · exact refl d
  · exact trans (bump d _ 1 (by decide)) (flag _ _ (by decide))
  · exact mapEv d _

theorem deliver (d : Dev) (rec : EvRec) (b : Bool) : d.Told (d.deliver rec b) := by
  have h1 : d.Told (d.bump R.EV_DELIVERED 1) := bump d _ 1 (by decide)
  have h2 (d : Dev) : d.Told (if d.on (R.EVC_MSI_EN rec.event) then d.msi (d.get (R.EVC_FUNC rec.event)) (d.get (R.EVC_VEC rec.event)) else d) :=
    ite_of (msi _ _ _) (refl d)
  have h3 (d : Dev) : d.Told (if d.on (R.EVC_RING_EN rec.event) then d.eringWrite (d.get (R.EVC_RING rec.event)) rec else d) :=
    ite_of (eringWrite _ _ (Dev.get_lt d (R.EVC_RING rec.event)) _) (refl d)
  have h4 (d : Dev) : d.Told (if b && d.on (R.EVC_BANKER rec.event) then d.bankRecord rec else d) :=
    ite_of (bankRecord _ _) (refl d)
  exact trans (trans (trans h1 (h2 _)) (h3 _)) (h4 _)

theorem deliverHold (d : Dev) (r : EvRec) : d.Told (d.deliverHold r) :=
  ite_of (deliver _ _ _) (trans (deliver _ _ _) (mapEv _ _))

theorem raiseOut (d : Dev) (r : EvRec) : d.Told (d.raiseOut r) := by
  unfold Dev.raiseOut
  refine ite_of (refl _) ?_
  split
  · exact mapEv _ _
  · exact deliverHold _ _

end Telling

namespace Noting

theorem refl (d : Dev) : d.Noted d := Only.refl _ _ d

theorem trans {a b c : Dev} (h : a.Noted b) (k : b.Noted c) : a.Noted c := Only.trans h k

/-- To tell is to note. -/
theorem told {a b : Dev} (h : a.Told b) : a.Noted b :=
  Only.mono h (fun x hx => by simp [tellBlock, hx]) (fun _ h => h)

theorem put (d : Dev) (f : Fld) (v : Nat) (h : noteBlock f.key = true) : d.Noted (d.put f v) :=
  Only.put d f v h

theorem flag (d : Dev) (f : Fld) (h : noteBlock f.key = true) : d.Noted (d.flag f) := put d f 1 h
theorem bump (d : Dev) (f : Fld) (n : Nat) (h : noteBlock f.key = true) : d.Noted (d.bump f n) :=
  put d f _ h

theorem mapEv (d : Dev) (f : EvSt → EvSt) (h : (f d.ev).still = d.ev.still := by rfl) : d.Noted (d.mapEv f) :=
  Only.mapEv d f h (by decide)

theorem send (d : Dev) (m : OutMsg) : d.Noted (d.send m) := Only.send d m (by decide)

theorem msi (d : Dev) (fn vec : Nat) : d.Noted (d.msi fn vec) := told (Telling.msi d fn vec)

theorem ite_of {d : Dev} {c : Prop} [Decidable c] {x y : Dev} (h : d.Noted x) (k : d.Noted y) :
    d.Noted (if c then x else y) := Only.ite h k

theorem bankRecord (d : Dev) (rec : EvRec) : d.Noted (d.bankRecord rec) := told (Telling.bankRecord d rec)

theorem deliver (d : Dev) (rec : EvRec) (b : Bool) : d.Noted (d.deliver rec b) := told (Telling.deliver d rec b)

theorem pend_put (d : Dev) (e : Nat) (he : e < 1024) (b : Bool) : d.Noted (d.putMap R.EV_PEND e b) := by
  refine put d _ _ ?_
  unfold noteBlock
  have : (R.EV_PEND (e / 32)).key / 0x4000000 = 1 := by simp only [R.EV_PEND, Fld.key]; omega
  simp [this]

theorem raiseOut (d : Dev) (r : EvRec) : d.Noted (d.raiseOut r) := told (Telling.raiseOut d r)

/-- Raising an event notes it. -/
theorem raiseCore (d : Dev) (e x : Nat) (he : e < 1024) : d.Noted (d.raiseCore e x) :=
  trans (trans (pend_put d e he true) (ite_of (bankRecord _ _) (refl _))) (raiseOut _ _)

theorem raiseCoreOnce (d : Dev) (e : Nat) (he : e < 1024) : d.Noted (d.raiseCoreOnce e) :=
  ite_of (refl d) (trans (mapEv d _) (raiseCore _ _ _ he))

/-- A change of the ledger. -/
theorem mapBank (d : Dev) (f : BankSt → BankSt) (h : (f d.bank).still = d.bank.still := by rfl) : d.Noted (d.mapBank f) :=
  Only.mapBank d f h (by decide)

theorem seqF (prot : Bool) : noteBlock (ledgerSeqF prot).key = true := by
  cases prot <;> decide

theorem unreadLoss (d : Dev) (prot : Bool) (seq : Nat) : d.Noted (d.unreadLoss prot seq) :=
  ite_of (trans (flag d _ (by decide)) (raiseCoreOnce _ _ (by decide))) (refl d)

theorem ledgerLine (d : Dev) (prot : Bool) (tail : List Byte) : d.Noted (d.ledgerLine prot tail) := by
  refine trans (trans (trans (trans (mapBank d _ ?_) (put _ _ _ (seqF prot))) (bump _ _ 1 (by decide)))
    (bump _ _ 1 (by decide))) (unreadLoss _ _ _)
  cases prot <;> rfl

theorem ledgerMore (prot : Bool) (n : Nat) : ∀ (d : Dev) (data : List Byte), d.Noted (d.ledgerMore prot n data) := by
  induction n with
  | zero => intro d _; exact refl d
  | succ n ih => intro d data; exact trans (ledgerLine d prot _) (ih _ _)

theorem ledgerWrite (d : Dev) (r : LedReq) : d.Noted (d.ledgerWrite r) := trans (ledgerLine d _ _) (ledgerMore _ _ _ _)

theorem ledgerSecond (d : Dev) : d.Noted d.ledgerSecond :=
  ite_of (mapBank d _)
    (trans (trans (mapBank d _) (ledgerWrite _ _)) (mapBank _ _))

/-- A ledger entry is no more than noted. -/
theorem ledger (d : Dev) (r : LedReq) : d.Noted (d.ledger r) := by
  unfold Dev.ledger
  refine ite_of (refl d) (ite_of (mapBank d _) ?_)
  refine trans (ite_of (refl d) (ledgerSecond d)) (ite_of (ledgerWrite _ _) (ite_of ?_ ?_))
  · exact trans (mapBank _ _) (ledgerWrite _ _)
  · exact trans (trans (trans (mapBank _ _) (bump _ _ 1 (by decide)))
      (flag _ _ (by decide))) (raiseCoreOnce _ _ (by decide))

theorem ledgerEvent (d : Dev) (e x b : Nat) : d.Noted (d.ledgerEvent e x b) := ledger _ _

theorem raiseD (d : Dev) (e x : Nat) (he : e < 1024) : d.Noted (d.raiseD e x) :=
  ite_of (trans (raiseCore d e x he) (ledgerEvent _ _ _ _)) (raiseCore d e x he)

theorem raise (d : Dev) (e : Nat) (he : e < 1024) : d.Noted (d.raise e) := raiseD d e 0 he

theorem raiseOnceD (d : Dev) (e x : Nat) (he : e < 1024) : d.Noted (d.raiseOnceD e x) :=
  ite_of (refl d) (trans (mapEv d _) (raiseD _ e x he))

theorem raiseOnce (d : Dev) (e : Nat) (he : e < 1024) : d.Noted (d.raiseOnce e) := raiseOnceD d e 0 he

theorem raiseLedger (d : Dev) (e x b : Nat) (he : e < 1024) : d.Noted (d.raiseLedger e x b) :=
  ite_of (raiseD d e x he) (trans (raiseD d e x he) (ledgerEvent _ _ _ _))

end Noting

/-! ### Pending bits -/

/-- Every event pending in d is pending in e. -/
def Dev.PendLe (d e : Dev) : Prop := ∀ x, x < 1024 → d.mapBit R.EV_PEND x = true → e.mapBit R.EV_PEND x = true

/-- A bit set reads 1. -/
theorem tbit_setBit (v i : Nat) : tbit (setBit v i) i = true := by
  unfold setBit
  split_ifs with h
  · exact h
  · have h1 : v / 2 ^ i % 2 = 0 := by
      have : v / 2 ^ i % 2 ≠ 1 := by simpa [tbit, bit] using h
      omega
    have hp : 0 < 2 ^ i := by positivity
    have h2 : (v + 2 ^ i) / 2 ^ i = v / 2 ^ i + 1 := Nat.add_div_right _ hp
    simp [tbit, bit, h2]; omega

/-- Setting a bit leaves the other bits. -/
theorem tbit_setBit_ne (v i j : Nat) (h : j ≠ i) : tbit (setBit v i) j = tbit v j := by
  unfold setBit
  split_ifs with hb
  · rfl
  · have h0 : v / 2 ^ i % 2 = 0 := by
      have : v / 2 ^ i % 2 ≠ 1 := by simpa [tbit, bit] using hb
      omega
    have key : (v + 2 ^ i) / 2 ^ j % 2 = v / 2 ^ j % 2 := by
      rcases Nat.lt_or_ge j i with hj | hj
      · obtain ⟨k, rfl⟩ : ∃ k, i = j + k + 1 := ⟨i - j - 1, by omega⟩
        have e : v + 2 ^ (j + k + 1) = v + 2 ^ j * (2 * 2 ^ k) := by ring
        rw [e, Nat.add_mul_div_left _ _ (by positivity)]
        omega
      · obtain ⟨k, rfl⟩ : ∃ k, j = i + 1 + k := ⟨j - i - 1, by omega⟩
        have e (w : Nat) : w / 2 ^ (i + 1 + k) = w / 2 ^ i / 2 / 2 ^ k := by
          rw [Nat.pow_add, Nat.pow_add, ← Nat.div_div_eq_div_mul, ← Nat.div_div_eq_div_mul, Nat.pow_one]
        have e2 : (v + 2 ^ i) / 2 ^ i = v / 2 ^ i + 1 := Nat.add_div_right _ (by positivity)
        rw [e, e, e2]
        have e3 : (v / 2 ^ i + 1) / 2 = v / 2 ^ i / 2 := by omega
        rw [e3]
    simp [tbit, bit, key]

theorem setBit_lt (v i w : Nat) (hv : v < 2 ^ w) (hi : i < w) : setBit v i < 2 ^ w := by
  unfold setBit
  split_ifs with hb
  · exact hv
  · have h0 : v / 2 ^ i % 2 = 0 := by
      have : v / 2 ^ i % 2 ≠ 1 := by simpa [tbit, bit] using hb
      omega
    obtain ⟨k, rfl⟩ : ∃ k, w = i + 1 + k := ⟨w - i - 1, by omega⟩
    have h1 : v / 2 ^ i < 2 * 2 ^ k := by
      rw [Nat.div_lt_iff_lt_mul (by positivity)]
      calc v < 2 ^ (i + 1 + k) := hv
        _ = 2 * 2 ^ k * 2 ^ i := by ring
    have h2 : (v + 2 ^ i) / 2 ^ i < 2 * 2 ^ k := by
      rw [Nat.add_div_right _ (by positivity)]
      show v / 2 ^ i + 1 < 2 * 2 ^ k
      omega
    rw [Nat.div_lt_iff_lt_mul (by positivity)] at h2
    calc v + 2 ^ i < 2 * 2 ^ k * 2 ^ i := h2
      _ = 2 ^ (i + 1 + k) := by ring

/-- A bit of a map register set reads 1. -/
theorem Dev.mapBit_putMap_same (d : Dev) (f : Nat → Fld) (i : Nat) (hf : (f (i / 32)).size = 2 ^ 32) :
    (d.putMap f i true).mapBit f i = true := by
  have h1 : setBit (d.get (f (i / 32))) (i % 32) < 2 ^ 32 :=
    setBit_lt _ _ 32 (hf ▸ Dev.get_lt d _) (Nat.mod_lt _ (by decide))
  simp only [Dev.mapBit, Dev.putMap, Dev.get_put_same, putBit, if_true, hf, Nat.mod_eq_of_lt h1, tbit_setBit]

/-- Setting a bit of a map register leaves the bits that are set. -/
theorem Dev.mapBit_putMap_le (d : Dev) (f : Nat → Fld) (i j : Nat) (hf : (f (i / 32)).size = 2 ^ 32)
    (hk : ∀ a b, f a = f b ∨ (f a).key ≠ (f b).key) (h : d.mapBit f j = true) : (d.putMap f i true).mapBit f j = true := by
  rcases hk (j / 32) (i / 32) with hw | hw
  · by_cases hb : j % 32 = i % 32
    · have := Dev.mapBit_putMap_same d f i hf
      simp only [Dev.mapBit, Dev.putMap, hw, hb] at *
      exact this
    · have h1 : setBit (d.get (f (i / 32))) (i % 32) < 2 ^ 32 :=
        setBit_lt _ _ 32 (hf ▸ Dev.get_lt d _) (Nat.mod_lt _ (by decide))
      simp only [Dev.mapBit, Dev.putMap, hw, Dev.get_put_same, putBit, if_true, hf, Nat.mod_eq_of_lt h1] at *
      rw [tbit_setBit_ne _ _ _ hb]; exact h
  · unfold Dev.mapBit Dev.putMap at *
    rw [Dev.get_put_ne _ _ _ _ hw]; exact h

namespace Pending

theorem refl (d : Dev) : d.PendLe d := fun _ _ h => h

theorem trans {a b c : Dev} (h : a.PendLe b) (k : b.PendLe c) : a.PendLe c := fun x hx hp => k x hx (h x hx hp)

/-- What leaves the registers of `PEND` alone leaves every pending bit. -/
theorem of_only {r : Nat → Bool} {l : List Part} {a b : Dev} (h : a.Only r l b)
    (hr : ∀ k, 0x4008000 ≤ k → k < 0x400A000 → r k = false) : a.PendLe b := by
  intro x hx hp
  have e : b.get (R.EV_PEND (x / 32)) = a.get (R.EV_PEND (x / 32)) :=
    h.1 _ (hr _ (by simp only [R.EV_PEND, Fld.key]; omega) (by simp only [R.EV_PEND, Fld.key]; omega))
  unfold Dev.mapBit at *
  rw [e]; exact hp

theorem told {a b : Dev} (h : a.Told b) : a.PendLe b :=
  of_only h fun x h1 h2 => by simp [tellBlock, h1, h2]

theorem pend_key (a b : Nat) : R.EV_PEND a = R.EV_PEND b ∨ (R.EV_PEND a).key ≠ (R.EV_PEND b).key := by
  by_cases h : a % 32 = b % 32
  · exact .inl (by simp only [R.EV_PEND, h])
  · exact .inr (by simp only [R.EV_PEND, Fld.key]; omega)

theorem put_pend (d : Dev) (e : Nat) : d.PendLe (d.putMap R.EV_PEND e true) := fun x _ hp =>
  Dev.mapBit_putMap_le d R.EV_PEND e x rfl pend_key hp

theorem ite_of {d : Dev} {c : Prop} [Decidable c] {x y : Dev} (h : d.PendLe x) (k : d.PendLe y) :
    d.PendLe (if c then x else y) := by split_ifs <;> assumption

/-- Telling of an event after its bit is set. -/
theorem afterPend (d : Dev) (e x : Nat) : (d.putMap R.EV_PEND e true).PendLe (d.raiseCore e x) :=
  trans (ite_of (told (Telling.bankRecord _ _)) (refl _)) (told (Telling.raiseOut _ _))

theorem raiseCore (d : Dev) (e x : Nat) : d.PendLe (d.raiseCore e x) := trans (put_pend d e) (afterPend d e x)

theorem raiseCoreOnce (d : Dev) (e : Nat) : d.PendLe (d.raiseCoreOnce e) :=
  ite_of (refl d) (trans (told (Telling.mapEv d _)) (raiseCore _ _ _))

theorem put (d : Dev) (f : Fld) (v : Nat) (h : f.key < 0x4008000 ∨ 0x400A000 ≤ f.key) : d.PendLe (d.put f v) :=
  of_only (r := fun k => k == f.key) (l := []) (Only.put d f v (by simp)) fun x h1 h2 => by
    simp only [beq_eq_false_iff_ne, ne_eq]; omega

theorem mapBank (d : Dev) (f : BankSt → BankSt) : d.PendLe (d.mapBank f) := fun _ _ h => h

theorem bump (d : Dev) (f : Fld) (n : Nat) (h : f.key < 0x4008000 ∨ 0x400A000 ≤ f.key) :
    d.PendLe (d.bump f n) := put d f _ h

theorem flag (d : Dev) (f : Fld) (h : f.key < 0x4008000 ∨ 0x400A000 ≤ f.key) : d.PendLe (d.flag f) :=
  put d f 1 h

theorem unreadLoss (d : Dev) (prot : Bool) (seq : Nat) : d.PendLe (d.unreadLoss prot seq) :=
  ite_of (trans (flag _ _ (by decide)) (raiseCoreOnce _ _)) (refl _)

theorem ledgerLine (d : Dev) (prot : Bool) (tail : List Byte) : d.PendLe (d.ledgerLine prot tail) := by
  refine trans (trans (trans (trans (mapBank d _) (put _ _ _ ?_)) (bump _ _ 1 (by decide)))
    (bump _ _ 1 (by decide))) (unreadLoss _ _ _)
  cases prot <;> decide

theorem ledgerMore (prot : Bool) (n : Nat) : ∀ (d : Dev) (data : List Byte), d.PendLe (d.ledgerMore prot n data) := by
  induction n with
  | zero => intro d _; exact refl d
  | succ n ih => intro d data; exact trans (ledgerLine d prot _) (ih _ _)

theorem ledgerWrite (d : Dev) (r : LedReq) : d.PendLe (d.ledgerWrite r) := trans (ledgerLine d _ _) (ledgerMore _ _ _ _)

theorem ledgerSecond (d : Dev) : d.PendLe d.ledgerSecond :=
  ite_of (mapBank d _) (trans (trans (mapBank d _) (ledgerWrite _ _)) (mapBank _ _))

theorem ledger (d : Dev) (r : LedReq) : d.PendLe (d.ledger r) := by
  unfold Dev.ledger
  refine ite_of (refl d) (ite_of (mapBank d _) ?_)
  refine trans (ite_of (refl d) (ledgerSecond d)) (ite_of (ledgerWrite _ _) (ite_of ?_ ?_))
  · exact trans (mapBank _ _) (ledgerWrite _ _)
  · exact trans (trans (trans (mapBank _ _) (bump _ _ 1 (by decide))) (flag _ _ (by decide))) (raiseCoreOnce _ _)

theorem raiseD (d : Dev) (e x : Nat) : d.PendLe (d.raiseD e x) :=
  ite_of (trans (raiseCore d e x) (ledger _ _)) (raiseCore d e x)

theorem raiseOnceD (d : Dev) (e x : Nat) : d.PendLe (d.raiseOnceD e x) :=
  ite_of (refl d) (trans (told (Telling.mapEv d _)) (raiseD _ _ _))

/-- A raise leaves its event pending. -/
theorem raised (d : Dev) (e x : Nat) (he : e < 1024) : (d.raiseD e x).mapBit R.EV_PEND e = true := by
  have h1 : (d.putMap R.EV_PEND e true).mapBit R.EV_PEND e = true := Dev.mapBit_putMap_same d R.EV_PEND e rfl
  have h2 : (d.putMap R.EV_PEND e true).PendLe (d.raiseD e x) :=
    ite_of (trans (afterPend d e x) (ledger _ _)) (afterPend d e x)
  exact h2 e he h1

end Pending

/-- A flag with its event reads 1 in the flag and leaves every other field outside the two blocks alone. -/
theorem Dev.get_flagRaise_ne (d : Dev) (f g : Fld) (e : Nat) (he : e < 1024) (hg : noteBlock g.key = false)
    (h : g.key ≠ f.key) : (d.flagRaise f e).get g = d.get g :=
  ((Noting.raiseD (d.flag f) e _ he).1 g hg).trans (Dev.get_flag_ne d f g h)

theorem Dev.get_flagRaise_same (d : Dev) (f : Fld) (e : Nat) (he : e < 1024) (hf : noteBlock f.key = false) :
    (d.flagRaise f e).get f = 1 % f.size :=
  ((Noting.raiseD (d.flag f) e _ he).1 f hf).trans (Dev.get_flag_same d f)

end Sys2Proof.Machine
end

