-- ==== Sys2Proof/Laws/Memory.lean ====
section
/-! SUPPORT. The laws of HBM as a list of bytes: a byte written reads back, every other byte is left alone, and every
operation keeps the canonical form. -/

namespace Sys2Proof.Machine

/-- The canonical form, by its first entry. -/
theorem Memory.wf_cons : ∀ (k : Nat) (v : Byte) (t : List Host.Cell),
    Memory.wf ((k, v) :: t) = true ↔ v ≠ memDefault k ∧ (∀ c ∈ t, k < c.1) ∧ Memory.wf t = true := by
  intro k v t
  induction t generalizing k v with
  | nil => simp [Memory.wf]
  | cons c t ih =>
    obtain ⟨b, w⟩ := c
    simp only [Memory.wf, Bool.and_eq_true, decide_eq_true_eq, List.mem_cons, forall_eq_or_imp]
    constructor
    · rintro ⟨⟨h1, h2⟩, h3⟩
      exact ⟨h1, ⟨h2, fun c hc => lt_trans h2 (((ih b w).1 h3).2.1 c hc)⟩, h3⟩
    · rintro ⟨h1, ⟨h2, _⟩, h3⟩
      exact ⟨⟨h1, h2⟩, h3⟩

/-- An address below every entry reads as an unlisted one. -/
theorem Memory.get_below (m : List Host.Cell) (a : Nat) (h : ∀ c ∈ m, a < c.1) : Memory.get m a = memDefault a := by
  induction m with
  | nil => rfl
  | cons c t ih =>
    obtain ⟨k, w⟩ := c
    have hk : a < k := h (k, w) (List.mem_cons_self ..)
    rw [Memory.get, if_neg (by omega)]
    exact ih fun c hc => h c (List.mem_cons_of_mem _ hc)

/-- The byte written reads back. -/
theorem Memory.get_put_same (m : List Host.Cell) (a : Nat) (v : Byte) (hw : Memory.wf m = true) :
    Memory.get (Memory.put m a v) a = v := by
  induction m with
  | nil => by_cases h : v = memDefault a <;> simp [Memory.put, Memory.get, h]
  | cons c t ih =>
    obtain ⟨k, w⟩ := c
    obtain ⟨_, hgt, ht⟩ := (Memory.wf_cons k w t).1 hw
    unfold Memory.put
    split_ifs with h1 h2 h3 h4
    · subst h1; rw [Memory.get_below t a hgt, h2]
    · simp [Memory.get]
    · rw [Memory.get, if_neg h1, Memory.get_below t a fun c hc => lt_trans h3 (hgt c hc), h4]
    · simp [Memory.get]
    · rw [Memory.get, if_neg h1]; exact ih ht

/-- Every other byte reads as before. -/
theorem Memory.get_put_ne (m : List Host.Cell) (a b : Nat) (v : Byte) (hw : Memory.wf m = true) (hb : b ≠ a) :
    Memory.get (Memory.put m a v) b = Memory.get m b := by
  induction m with
  | nil => by_cases h : v = memDefault a <;> simp [Memory.put, Memory.get, h, hb]
  | cons c t ih =>
    obtain ⟨k, w⟩ := c
    obtain ⟨_, hgt, ht⟩ := (Memory.wf_cons k w t).1 hw
    unfold Memory.put
    split_ifs with h1 h2 h3 h4
    · subst h1; simp [Memory.get, hb]
    · subst h1; simp [Memory.get, hb]
    · rfl
    · simp [Memory.get, hb]
    · simp [Memory.get, ih ht]

/-- The entries of a memory with a byte written are among the ones before and the new one. -/
theorem Memory.mem_put (m : List Host.Cell) (a : Nat) (v : Byte) :
    ∀ c ∈ Memory.put m a v, c ∈ m ∨ c.1 = a := by
  induction m with
  | nil =>
    intro c hc
    by_cases h : v = memDefault a
    · simp [Memory.put, h] at hc
    · simp [Memory.put, h] at hc; right; rw [hc]
  | cons p t ih =>
    obtain ⟨k, w⟩ := p
    intro c hc
    unfold Memory.put at hc
    split_ifs at hc with h1 h2 h3 h4
    · exact .inl (List.mem_cons_of_mem _ hc)
    · rcases List.mem_cons.1 hc with e | e
      · right; rw [e]
      · exact .inl (List.mem_cons_of_mem _ e)
    · exact .inl hc
    · rcases List.mem_cons.1 hc with e | e
      · right; rw [e]
      · exact .inl e
    · rcases List.mem_cons.1 hc with e | e
      · left; rw [e]; exact List.mem_cons_self ..
      · rcases ih c e with i | i
        · exact .inl (List.mem_cons_of_mem _ i)
        · exact .inr i

/-- A byte written keeps the canonical form. -/
theorem Memory.wf_put (m : List Host.Cell) (a : Nat) (v : Byte) (hw : Memory.wf m = true) :
    Memory.wf (Memory.put m a v) = true := by
  induction m with
  | nil => by_cases h : v = memDefault a <;> simp [Memory.put, Memory.wf, h]
  | cons c t ih =>
    obtain ⟨k, w⟩ := c
    obtain ⟨hne, hgt, ht⟩ := (Memory.wf_cons k w t).1 hw
    unfold Memory.put
    split_ifs with h1 h2 h3 h4
    · exact ht
    · exact (Memory.wf_cons _ _ _).2 ⟨h2, h1 ▸ hgt, ht⟩
    · exact hw
    · refine (Memory.wf_cons _ _ _).2 ⟨h4, ?_, hw⟩
      intro c hc
      rcases List.mem_cons.1 hc with e | e
      · rw [e]; exact h3
      · exact lt_trans h3 (hgt c e)
    · refine (Memory.wf_cons _ _ _).2 ⟨hne, ?_, ih ht⟩
      intro c hc
      rcases Memory.mem_put t a v c hc with e | e
      · exact hgt c e
      · rw [e]; omega

/-- Bytes written keep the canonical form. -/
theorem Memory.wf_putAll (bs : List Byte) : ∀ (m : List Host.Cell) (a : Nat), Memory.wf m = true →
    Memory.wf (Memory.putAll m a bs) = true := by
  induction bs with
  | nil => intro m a h; exact h
  | cons b t ih => intro m a h; exact ih _ _ (Memory.wf_put m a b h)

/-- A byte outside the ones written reads as before. -/
theorem Memory.get_putAll_ne (bs : List Byte) : ∀ (m : List Host.Cell) (a x : Nat), Memory.wf m = true →
    (x < a ∨ a + bs.length ≤ x) → Memory.get (Memory.putAll m a bs) x = Memory.get m x := by
  induction bs with
  | nil => intros; rfl
  | cons b t ih =>
    intro m a x h hx
    simp only [List.length_cons] at hx
    rw [Memory.putAll, ih _ _ x (Memory.wf_put m a b h) (by omega), Memory.get_put_ne m a x b h (by omega)]

/-- Byte i of the ones written reads back. -/
theorem Memory.get_putAll_same (bs : List Byte) : ∀ (m : List Host.Cell) (a i : Nat) (hi : i < bs.length), Memory.wf m = true →
    Memory.get (Memory.putAll m a bs) (a + i) = bs[i] := by
  induction bs with
  | nil => intro m a i hi; simp at hi
  | cons b t ih =>
    intro m a i hi h
    cases i with
    | zero =>
      simp only [Memory.putAll, Nat.add_zero, List.getElem_cons_zero]
      rw [Memory.get_putAll_ne t _ _ _ (Memory.wf_put m a b h) (by omega), Memory.get_put_same m a b h]
    | succ i =>
      have e : a + (i + 1) = (a + 1) + i := by omega
      simp only [Memory.putAll, List.getElem_cons_succ, e]
      exact ih _ _ i (by simpa using hi) (Memory.wf_put m a b h)

/-- A part of the entries keeps the canonical form. -/
theorem Memory.wf_filter (p : Host.Cell → Bool) (m : List Host.Cell) (hw : Memory.wf m = true) :
    Memory.wf (m.filter p) = true := by
  induction m with
  | nil => rfl
  | cons c t ih =>
    obtain ⟨k, w⟩ := c
    obtain ⟨hne, hgt, ht⟩ := (Memory.wf_cons k w t).1 hw
    by_cases h : p (k, w) = true
    · rw [List.filter_cons_of_pos h]
      exact (Memory.wf_cons _ _ _).2 ⟨hne, fun c hc => hgt c (List.mem_of_mem_filter hc), ih ht⟩
    · rw [List.filter_cons_of_neg h]
      exact ih ht

/-- Bytes put back to what unlisted bytes read as keep the canonical form. -/
theorem Memory.wf_clear (m : List Host.Cell) (lo n : Nat) (hw : Memory.wf m = true) : Memory.wf (Memory.clear m lo n) = true :=
  Memory.wf_filter _ m hw

/-- A piece of a flit written keeps the canonical form. -/
theorem State.wf_writePiece (s : State) (a : Nat) (bs : List Byte) (hw : Memory.wf s.hbm = true) :
    Memory.wf (s.writePiece a bs).2.hbm = true := by
  unfold State.writePiece
  dsimp only
  split_ifs <;> exact Memory.wf_putAll bs s.hbm a hw

end Sys2Proof.Machine
end

