-- ==== Sys2Proof/Laws/Sound.lean ====
section
/-! SUPPORT. Operations over HBM keep its canonical form and leave the queue of commands alone. -/

namespace Sys2Proof.Machine

/-- t is as sound as s: a canonical HBM stays canonical, and the queue is the same. -/
def State.Sound (s t : State) : Prop := (s.canonical → t.canonical) ∧ t.pending = s.pending

namespace Sound

theorem refl (s : State) : s.Sound s := ⟨id, rfl⟩

theorem trans {a b c : State} (h : a.Sound b) (k : b.Sound c) : a.Sound c := ⟨fun x => k.1 (h.1 x), k.2.trans h.2⟩

/-- A change of the block alone. -/
theorem upd (s : State) (f : Dev → Dev) : s.Sound (s.upd f) := ⟨id, rfl⟩

theorem dev (s : State) (d : Dev) : s.Sound { s with dev := d } := ⟨id, rfl⟩

theorem ite {s : State} {c : Prop} [Decidable c] {x y : State} (h : s.Sound x) (k : s.Sound y) : s.Sound (if c then x else y) := by
  split_ifs <;> assumption

/-- A loop of sound steps is sound. -/
theorem foldl {α : Type} (f : State → α → State) (xs : List α) (h : ∀ s : State, ∀ x ∈ xs, s.Sound (f s x)) (s : State) :
    s.Sound (xs.foldl f s) := by
  induction xs generalizing s with
  | nil => exact refl s
  | cons x t ih =>
    exact trans (h s x (List.mem_cons_self ..)) (ih (fun s y hy => h s y (List.mem_cons_of_mem x hy)) _)

theorem writePiece (s : State) (a : Nat) (bs : List Byte) : s.Sound (s.writePiece a bs).2 := by
  refine ⟨State.wf_writePiece s a bs, ?_⟩
  unfold State.writePiece
  dsimp only
  split_ifs <;> rfl

theorem zeroSurface (s : State) (u : Surf) : s.Sound (s.zeroSurface u) := by
  unfold State.zeroSurface
  refine foldl _ _ (fun s x _ => ?_) s
  exact ⟨fun h => Memory.wf_clear s.hbm x.2.1 x.2.2 h, rfl⟩

theorem putPieces (u : Surf) (stop : Bool) (l : List (Nat × List Byte)) : ∀ s : State, s.Sound (s.putPieces u stop l).2 := by
  induction l with
  | nil => intro s; exact refl s
  | cons p t ih =>
    intro s
    obtain ⟨o, bs⟩ := p
    unfold State.putPieces
    split_ifs
    · exact refl s
    · exact trans (writePiece s _ _) (ih _)

theorem surfPut (s : State) (u : Surf) (stop : Bool) (off : Nat) (bs : List Byte) : s.Sound (s.surfPut u stop off bs).2 :=
  trans (putPieces u stop _ s) (upd _ _)

theorem kamWrite (s : State) (u : Surf) (stop : Bool) (b : Nat) (bs : List Byte) : s.Sound (s.kamWrite u stop b bs).2 := by
  unfold State.kamWrite
  dsimp only
  split
  · exact surfPut s u stop _ _
  · exact trans (surfPut s u stop _ _) (trans (surfPut _ u stop _ _) (upd _ _))

theorem blitPut (s : State) (u : Surf) (back : Bool) (off : Nat) (bs : List Byte) : s.Sound (s.blitPut u back off bs).2 :=
  trans (foldl _ _ (fun s _ _ => writePiece s _ _) s) (upd _ _)

theorem calPut (s : State) (a : Nat) (bs : List Byte) : s.Sound (s.calPut a bs) :=
  ⟨fun h => Memory.wf_putAll bs s.hbm a h, rfl⟩

end Sound

end Sys2Proof.Machine
end

