-- ==== Sys2Proof/Tests/Slice0.lean ====
section
/-! SUPPORT. Tests: the spec's own worked examples, an ill-formed command for every check of WellFormed, and for every statement
with hypotheses a state and operands that meet them. -/

open Sys2Proof Sys2Proof.Machine

/-- Start-up in which nothing fails: eight stacks at 45 °C, both slots valid, the synthesizers of the band table. -/
def envT : StartEnv where
  slotAValid := true
  slotBValid := true
  badSlots := []
  badDomains := []
  badStacks := []
  stackTemps := List.replicate 8 45
  bands := []
  trialPaces := []
  peers := []
  devIndex := 0
  drives := []
  suMs := 0

/-! ### The spec's worked examples -/

/-- "Example: decoding a handle" (00_scope): 0x1330_0A2F. -/
theorem test_handle_fields :
    handleGen 0x13300A2F = 19 ∧ handleCls 0x13300A2F = 3 ∧ handleIdx 0x13300A2F = 2607 ∧ mkHandle 19 3 2607 = 0x13300A2F := by decide

/-- "Example: first PTP lock at 120 Hz" (13): 3,000,123 ns step by 3,000,320 ns, which leaves −197 ns. -/
theorem test_step_of_the_first_lock : stepJump 3000123 = 3000320 := by decide

/-- R652: halves are rounded toward zero, on both sides. -/
theorem test_step_halves : stepJump 512 = 0 ∧ stepJump 513 = 1024 ∧ stepJump (-512) = 0 ∧ stepJump (-1537) = -2048 := by decide

/-- "Example: a deal in quarter 1" (04) in small: classes of 5 and of 4 entries on 3 pips go round from where the last one ended. -/
theorem test_deal_goes_round : buildPlan 3 [[0, 1, 2, 3, 4], [5, 6, 7, 8]] = [[0, 1, 5], [2, 3, 6], [4, 7, 8]] := by decide

/-- "Example: a soft green key" (06): its three pixels. -/
theorem test_soft_green_key :
    let r := putLe (putLe (putLe (putLe (List.replicate 104 0) 48 1 1) 49 1 15) 56 4 0x40000) 64 4 32768
    (keyPixel r ⟨16448, 246724, 24672, 65535⟩).alpha = 0 ∧ (keyPixel r ⟨49345, 226163, 32897, 65535⟩).alpha = 33153 ∧
      (keyPixel r ⟨65793, 205603, 41121, 65535⟩).alpha = 0xFFFF := by decide +kernel

/-- "Example: a half-transparent layer over a fill" (06): its accumulator. -/
theorem test_blend_over_a_fill :
    let lower := putLe (List.replicate 104 0) 46 2 0xFFFF
    let upper := putLe (List.replicate 104 0) 46 2 0xC000
    (blendPix upper ⟨262144, 65793, 0, 32896⟩ (blendPix lower ⟨262144, 131072, 0, 65535⟩ ⟨0, 0, 0, 0⟩).1).1 =
      ⟨262144, 106496, 0, 65535⟩ := by decide +kernel

/-- "Example: one pixel at drive level 0.625" (07): the sets and their weight, one coefficient, and the codes at both depths. -/
theorem test_pixel_at_drive_level_0_625 :
    let led : Led := ⟨[15700, 455, -70, 240, 16050, 105, -30, 320, 15300], [33423, 32768, 33751], [-12, 0, 8]⟩
    driveOf 40960 0x1000 0xFFFF = (40960, 65535) ∧ selectSets [0x4000, 0x8000, 0xC000] 40960 = (1, 2, 32768, none) ∧
      between 15800 15600 32768 = 15700 ∧ pixelCode led 65535 false ⟨131072, 65536, 26214, 0⟩ = (⟨32460, 16572, 6573⟩, false) ∧
      pixelCode led 65535 true ⟨131072, 65536, 26214, 0⟩ = (⟨2028, 1035, 411⟩, false) := by decide +kernel

/-- The same example below and above the captured range: EXTRAP_LOW with SET0, EXTRAP with SET2. -/
theorem test_drive_outside_the_captured_range :
    selectSets [0x4000, 0x8000, 0xC000] 12288 = (0, 0, 0, some false) ∧
      selectSets [0x4000, 0x8000, 0xC000] 57344 = (2, 2, 0, some true) := by decide

/-- "Example: a PUSH header" (09). -/
theorem test_push_header : (Header.word { ftype := 1, pos := 14, seq := 0x2A7, len := 768, arg := 17 }).toNat = 0xD1000113002A70E1 := by
  decide +kernel

/-- "Example: a pinned overlay created from P0" (14): the completion entry. -/
theorem test_completion_entry :
    (Compl.bytes { tag := 0x31, status := 0, isTime := false, async := false, handle := 0x0100000E, turn := 1000002, queue := 1024, reason := 0 } 1) =
      [0x31, 0x00, 0x00, 0x01, 0x0E, 0x00, 0x00, 0x01, 0x42, 0x42, 0x0F, 0x00, 0x00, 0x04, 0x00, 0x00] := by decide

/-- "Example: a ceiling change" (16): the request's header and body are read. -/
theorem test_ceiling_request_is_read :
    ((readMsg ([0x53, 0x56, 1, 2, 3, 0, 0, 0x0C, 0, 0, 1, 0x2C, 0, 0, 0, 0x2A, 0, 0, 0x65, 0x53, 0xF1, 0, 0x0E, 0xE6, 0xB2, 0x80,
      0, 0, 0, 0, 0, 0, 0x70, 0x10, 1, 3, 0, 2, 0, 0, 0x80, 0, 0, 0] ++ List.replicate 32 0)).map
      (fun m => (m.op, m.role, m.client, m.seq))) = some (2, 3, 300, 42) := by decide +kernel

/-- R571: the code 0x96 is the exclusive or of FILL, source and destination bits. -/
theorem test_rop_code : (List.range 8).map (fun i => bit 0x96 i) = [0, 1, 1, 0, 1, 0, 0, 1] := by decide

/-! ### Every check of WellFormed refuses a term -/

theorem test_wf_refuses_fabric_units :
    ∀ c ∈ [Instr.rebandDone 85 0 0 0, .retrainDone 8 true, .reserveSelftestDone 32 true, .patchComposed 256 0, .patchCalibrate 4,
      .stealAttempt 256, .pipFail 256 .storeError, .handshakeTimeout (.pip 256), .handshakeTimeout (.cupHub 32),
      .handshakeTimeout (.quarterHub 4), .handshakeTimeout (.xbar 2), .shortfall 4, .planRebuildDone 4, .trial 33, .resume 33,
      .hbmReadReturn 0 .clean (.pip 256), .hbmReadReturn hbmBytes .clean .scrubber, .hbmUnlockTimeout 8, .substitution 256,
      .hubOut 32 false 0], c.wf = false := by decide +kernel

theorem test_wf_refuses_squares_and_snakes :
    ∀ c ∈ [Instr.commit 256, .ageReading 4, .calLoadBodyRead 4 none, .calLoadWriteDone 4, .pushFrameStart 256, .underrun 256,
      .presentFrameStart 256 0, .presentFrameStart 0 64, .cadenceFrameStart 256 0, .cadenceFrameStart 0 64, .ackReceived 256 0,
      .ackTimeout 256 0 0, .ackTimeout 0 64 0, .nak 256 0 [], .echo 0 64 [], .holdTimeExpiry 16384, .codewordLock 256,
      .codewordLockLost 256, .releaseWaitDone 256], c.wf = false := by decide +kernel

theorem test_wf_refuses_enumeration_and_maintenance :
    ∀ c ∈ [Instr.enumReply 256 0 [], .enumReplyTimeout 256, .rttMeasureDone 256 0, .sqLost 256 0, .sqLost 0 64, .restart 256 0,
      .measure 256, .maintSend 256, .maintReply 0 64 [], .maintTimeout 256, .snakeSynthTimeout 64, .fiCtlWrite 256 0x40 0,
      .fiCtlWrite 0 0x48 0, .snkSenseWrite 256 0, .senseFrameReceive 256 0 [], .senseStale 16384, .healthFrameReceive 0 64 [],
      .teleStale 16384], c.wf = false := by decide +kernel

/-- A frame of another row's type that a square sends is that row's. -/
theorem test_wf_refuses_another_frame_type :
    Instr.wf (.echo 0 0 (frameOf { ftype := ftNak, pos := 0 } [] false)) = false ∧
      Instr.wf (.nak 0 0 (frameOf { ftype := ftNak, pos := 0 } [] false)) = true := by decide +kernel

theorem test_wf_refuses_table_ingest_and_clips :
    ∀ c ∈ [Instr.turnMessage 8 [2], .turnMessage 0 [1], .tablePeerLost 8, .hello 8 [1], .hello 0 [2], .frame 8 [5], .frame 0 [1],
      .ingestFrameReceive 8 [], .frameReady 512, .xsSliceDecoded 512 .failed, .legLost 512 0, .legLost 0 2, .stale 512,
      .ingestLinkChange 8 true, .driveTimeout 8, .driveLinkLoss 8, .driveLinkUp ⟨8, 0, 0, 0⟩, .clipFrameRead 128 []],
      c.wf = false := by decide +kernel

theorem test_wf_refuses_blit_commands :
    ∀ c ∈ [Instr.nop 4096 [], .nop 0 [1], .copy 4096 [1], .copy 0 [], .fill 0 [], .rop 0 [], .waitPl 0 [], .waitTurn 0 [],
      .blitOwnPoll 4096 true, .blitWaitTimeout 4096], c.wf = false := by decide +kernel

theorem test_wf_refuses_time_and_synthesizers :
    ∀ c ∈ [Instr.ptpMessage 10 (.followUp 0 0 0), .refInEdge 2 0 0, .refWindowEnd 2 0, .refEdgeMissing 2, .step 33, .slew 33, .atSecond 33,
      .lock 85, .refLost 85, .unlock 85, .range90 85 0, .hop 85 0, .hop 0 4, .hopDone 85 0 0 0, .refModeWrite 85 0,
      .fullSearch 85 0 0 0, .delayReq 10, .domErr 136, .domOffReqWrite 33 0 0, .domOffReqWrite 0 5 0], c.wf = false := by decide +kernel

theorem test_wf_refuses_registers_and_events :
    ∀ c ∈ [Instr.snap 33, .registerWrite 33 0 0 4, .registerWrite 0 0 0 9, .registerWrite 0 0 256 1, .lockSet 33 0, .rcRead 33 0 4,
      .rcRead 0 0 9, .lowWordRead 33 0, .timeNsRead 33 false, .postedWriteApply 0, .pendClear 33 0 0, .pendClear 0 32 0,
      .eventHoldoffEnd 1024, .eventRingHeadWrite 33 0 0, .eventRingHeadWrite 0 32 0, .eventRingConfigWrite 0 32 0 0,
      .coalTimeout (.completion 256), .coalTimeout (.event 32), .warm 33 envT], c.wf = false := by decide +kernel

theorem test_wf_refuses_queues_and_functions :
    ∀ c ∈ [Instr.sqDoorbell 32 1024 0 4, .sqDoorbell 1 0 0 4, .pqPiWrite 8 0, .cqHeadDoorbell 0 8 0 4, .blitDoorbell 32 0 0 4,
      .blitDoorbell 0 4096 0 4, .senseDoorbell 32 0 0 4, .senseDoorbell 0 256 0 4, .sqCfgWrite 0 1032 0 0, .cqCfgWrite 0 256 0 0,
      .ownPoll 1024 true false, .fetchErr 1032, .flr 32, .pcieLinkUp 0 1, .pcieLinkUp 7 1, .pcieLinkUp 1 0, .pcieLinkUp 1 17,
      .configurationSpaceWrite (.busMaster 32 true), .configurationSpaceWrite (.msixVectorMask 0 2048 true)],
      c.wf = false := by decide +kernel

/-- An entry on a queue that does not exist, and one that spells another row's opcode. -/
theorem test_wf_refuses_another_opcode :
    ∀ c ∈ [Instr.fence 1032 [1], .fence 0 [2], .destroy 0 [1], .readmit 0 [1], .layerCreate 0 [1], .layerUpdate 0 [1],
      .ingestCreate 0 [1], .clipCreate 0 [1], .clipUpdate 0 [1], .blitCreate 0 [1], .senseCreate 0 [1], .surfaceCreate 0 [1],
      .checkCreate 0 [1], .storeLoad 0 [1] none, .calLoad 0 [1], .clipWrite 0 [1] none, .clipDelete 0 [1], .surfaceWrite 0 [1],
      .surfaceRead 0 [1]], c.wf = false := by decide +kernel

theorem test_wf_refuses_dictionary_commands :
    ∀ c ∈ [Instr.ctrlFrameReceive 2 [], .read 3 [0, 0, 0, 1], .read 0 [0, 0, 0, 2], .write 0 [], .segWrite 0 [], .segRead 0 [],
      .time 0 [], .imageLoad 5 [], .dictLockSet 5, .verify 5, .activate 5, .confirm 5, .abort 5, .bankerRestartCmd 5,
      .pipFailCmd 5 0, .pipFailCmd 0 256, .warmResetCmd 5 1 envT, .chainVerify 5 0, .chainVerify 0 (2 ^ 64)], c.wf = false := by
  decide +kernel
end

section
/-! SUPPORT. What the shared operations of a turn leave alone: events of every number, the block engine, table messages and the
journal change neither the turn shown in `PRES_TURN` nor `QUIET_HOLD`. -/

namespace Sys2Proof.Machine

-- One theorem after the other: the checks of the text above are still under way where this file begins, and each theorem that
-- waits for them holds a thread of its own, of which the whole text may not have as many at once as it has theorems.
set_option Elab.async false

/-! ### Events of every number -/

namespace Noting

/-- The pending bit of an event lies in the block of the event controller, whatever its number. -/
theorem pend_any (d : Dev) (e : Nat) (b : Bool) : d.Noted (d.putMap R.EV_PEND e b) := by
  refine put d _ _ ?_
  have : (R.EV_PEND (e / 32)).key / 0x4000000 = 1 := by simp only [R.EV_PEND, Fld.key]; omega
  simp [noteBlock, this]

theorem raiseD_any (d : Dev) (e x : Nat) : d.Noted (d.raiseD e x) :=
  have core : d.Noted (d.raiseCore e x) := trans (trans (pend_any d e true) (ite_of (bankRecord _ _) (refl _))) (raiseOut _ _)
  ite_of (trans core (ledgerEvent _ _ _ _)) core

theorem raiseOnceD_any (d : Dev) (e x : Nat) : d.Noted (d.raiseOnceD e x) :=
  ite_of (refl d) (trans (mapEv d _) (raiseD_any _ e x))

end Noting

/-! ### The two registers that a turn's own operations alone write -/

/-- A field that is neither `PRES_TURN` nor `QUIET_HOLD`. -/
def spare (k : Nat) : Bool := k != R.PUSH_PRES_TURN.key && k != R.BLT_QUIET_HOLD.key

theorem spare_iff {k : Nat} : spare k = true ↔ k ≠ 0x800038 * 64 ∧ k ≠ 0xc00014 * 64 + 1 := by
  simp [spare, R.PUSH_PRES_TURN, R.BLT_QUIET_HOLD, Fld.key]

theorem spare_of_noteBlock {k : Nat} (h : noteBlock k = true) : spare k = true := by
  simp only [noteBlock, Bool.or_eq_true, beq_iff_eq] at h
  exact spare_iff.2 (by omega)

/-- From d to e the listed parts are changed, and of the registers neither `PRES_TURN` nor `QUIET_HOLD`. -/
abbrev Dev.Spares (l : List Part) (d e : Dev) : Prop := d.Only spare l e

/-- The parts that a completion posted to a ring changes. -/
def postParts : List Part := [.events, .ledger, .out, .q]

/-- The parts that a blit command's end changes before its channel goes on or retires. -/
def doneParts : List Part := .blt :: postParts

/-- The parts that the end of a blit command changes. -/
def blitParts : List Part := .ch :: doneParts

namespace Dev.Spares

variable {l : List Part} {d e : Dev}

theorem noted (h : d.Noted e) (hl : notes ⊆ l := by decide) : d.Spares l e :=
  Only.mono h (fun k hk => by
    cases hn : noteBlock k
    · rfl
    · rw [spare_of_noteBlock hn] at hk; cases hk) hl

theorem refl (d : Dev) : d.Spares l d := Only.refl _ _ d

theorem mono {l' : List Part} (h : d.Spares l e) (hl : l ⊆ l' := by decide) : d.Spares l' e :=
  Only.mono h (fun _ hk => hk) hl

theorem put {f : Fld} {v : Nat} (h : d.Spares l e) (hf : spare f.key = true) : d.Spares l (e.put f v) :=
  Only.trans h (Only.put e f v hf)

/-- Something noted: an event raised, a ledger entry made. -/
theorem note {e' : Dev} (h : d.Spares l e) (k : e.Noted e') (hl : notes ⊆ l := by decide) : d.Spares l e' :=
  Only.trans h (noted k hl)

theorem flag {f : Fld} (h : d.Spares l e) (hf : spare f.key = true) : d.Spares l (e.flag f) := h.put hf

theorem bump {f : Fld} {n : Nat} (h : d.Spares l e) (hf : spare f.key = true) : d.Spares l (e.bump f n) := h.put hf

theorem ite {p : Prop} {_ : Decidable p} {x y : Dev} (h : d.Spares l x) (k : d.Spares l y) : d.Spares l (if p then x else y) :=
  Only.ite h k

/-- A change made under a condition. -/
theorem when {p : Prop} {_ : Decidable p} {x : Dev} (h : d.Spares l e) (hx : d.Spares l e → d.Spares l x) :
    d.Spares l (if p then x else e) := ite (hx h) h

/-- One of two changes. -/
theorem branch {p : Prop} {_ : Decidable p} {x y : Dev} (h : d.Spares l e) (hx : d.Spares l e → d.Spares l x)
    (hy : d.Spares l e → d.Spares l y) : d.Spares l (if p then x else y) := ite (hx h) (hy h)

theorem send {m : OutMsg} (h : d.Spares l e) (hl : Part.out ∈ l := by decide) : d.Spares l (e.send m) :=
  Only.trans h (Only.send e m hl)

/-- A change of parts that the frame names. -/
theorem parts {e' : Dev} (h : d.Spares l e) (hr : e'.regs = e.regs) (hp : ∀ p, p ∉ l → p.same e e') : d.Spares l e' :=
  Only.trans h (Only.parts hr hp)

theorem foldl {α : Type} {f : Dev → α → Dev} (h : d.Spares l e) (hf : ∀ (e : Dev) (x : α), e.Spares l (f e x)) (xs : List α) :
    d.Spares l (xs.foldl f e) :=
  Only.trans h (Only.foldl f xs (fun e x _ => hf e x) e)

theorem setQ {x : QSt} (h : d.Spares l e) (hl : Part.q ∈ l := by decide) : d.Spares l { e with q := x } :=
  h.parts rfl fun p hp => by
    cases p with
    | q => exact absurd hl hp
    | _ => rfl

theorem setCh {x : ChanSt} (h : d.Spares l e) (hl : Part.ch ∈ l := by decide) : d.Spares l { e with ch := x } :=
  h.parts rfl fun p hp => by
    cases p with
    | ch => exact absurd hl hp
    | _ => rfl

theorem setBlt {x : BltSt} (h : d.Spares l e) (hl : Part.blt ∈ l := by decide) : d.Spares l { e with blt := x } :=
  h.parts rfl fun p hp => by
    cases p with
    | blt => exact absurd hl hp
    | _ => rfl

theorem setPush {x : PushSt} (h : d.Spares l e) (hl : Part.push ∈ l := by decide) : d.Spares l { e with push := x } :=
  h.parts rfl fun p hp => by
    cases p with
    | push => exact absurd hl hp
    | _ => rfl

theorem setBank {x : BankSt} (h : d.Spares l e) (hl : Part.bank ∈ l ∧ Part.ledger ∈ l := by decide) :
    d.Spares l { e with bank := x } :=
  h.parts rfl fun p hp => by
    cases p with
    | bank => exact absurd hl.1 hp
    | ledger => exact absurd hl.2 hp
    | _ => rfl

theorem setTbl {x : TblSt} (h : d.Spares l e) (hl : Part.tbl ∈ l := by decide) : d.Spares l { e with tbl := x } :=
  h.parts rfl fun p hp => by
    cases p with
    | tbl => exact absurd hl hp
    | _ => rfl

/-! ### The end of a blit command -/

theorem ringWrite {c : Nat} {m : Compl} (h : d.Spares postParts e) : d.Spares postParts (e.ringWrite c m) := by
  unfold Dev.ringWrite
  dsimp only
  have tail {v : Nat} {o : OutMsg} : d.Spares postParts ((e.send o).put (R.CQ_TAIL c) v) :=
    h.send.put (spare_iff.2 (by simp only [R.CQ_TAIL, Fld.key]; omega))
  have phase {v w : Nat} {o : OutMsg} : d.Spares postParts (((e.send o).put (R.CQ_TAIL c) v).put (R.CQ_PHASE c) w) :=
    tail.put (spare_iff.2 (by simp only [R.CQ_PHASE, Fld.key]; omega))
  exact ite ((ite phase tail).setQ.note (Noting.msi _ _ _)) (ite phase tail).setQ

theorem ringDrop {c : Nat} (h : d.Spares postParts e) : d.Spares postParts (e.ringDrop c) :=
  h.flag (spare_iff.2 (by simp only [R.CQ_DROPPED, Fld.key]; omega))

theorem postOwed {c : Nat} {m : Compl} (h : d.Spares postParts e) : d.Spares postParts (e.postOwed c m) :=
  ite h.ringDrop h.ringWrite

theorem postAsync {c : Nat} {m : Compl} (h : d.Spares postParts e) : d.Spares postParts (e.postAsync c m) :=
  ite h.ringDrop (ite h.ringWrite (ite h.ringDrop
    ((h.setQ.put (spare_iff.2 (by simp only [R.CQ_HELD, Fld.key]; omega))).bump (by decide))))

theorem countStatus {st : Nat} (h : d.Spares postParts e) : d.Spares postParts (e.countStatus st) :=
  ite (h.bump (by decide)) (ite (h.bump (by decide)) (ite (h.bump (by decide)) h))

theorem blitPost {i st : Nat} {cmd : List Byte} (h : d.Spares postParts e) : d.Spares postParts (e.blitPost i cmd st) := by
  unfold Dev.blitPost
  split
  · exact ite (h.countStatus.put (spare_iff.2 (by simp only [R.CQ_RESV, Fld.key]; omega))).postOwed h.countStatus.postAsync
  · exact h

theorem blitRings (h : d.Spares blitParts e) : d.Spares blitParts e.blitRings := h.put (by decide)

theorem blitRetire {i : Nat} (h : d.Spares blitParts e) : d.Spares blitParts (e.blitRetire i) :=
  ((h.setCh.put (spare_iff.2 (by simp only [R.BCH_STATE, Fld.key]; omega))).put
    (spare_iff.2 (by simp only [R.BCH_WAIT, Fld.key]; omega))).blitRings

theorem blitAdvance {i : Nat} {c : Chan} {cmd : List Byte} (h : d.Spares blitParts e) :
    d.Spares blitParts (e.blitAdvance i c cmd) := by
  have consumed {m : OutMsg} {v : Nat} : d.Spares blitParts ((e.send m).put (R.BCH_CONS i) v) :=
    h.send.put (spare_iff.2 (by simp only [R.BCH_CONS, Fld.key]; omega))
  exact ite consumed consumed.send

/-- At its end a command of a channel leaves its slot and is answered; then its channel retires, or goes on. -/
theorem blitDone_of_chan {i st : Nat} {cmd : List Byte} {b : BlitChan} {c : Chan} (hb : Tab.get? d.blt.chans i = some b)
    (hc : d.chan? clsBlit i = some c) :
    ∃ e, d.Spares doneParts e ∧
      d.blitDone i cmd st = if bkOneshot c.record = true then e.blitRetire i else e.blitAdvance i c cmd := by
  unfold Dev.blitDone
  rw [hb, hc]
  refine ⟨_, ?_, rfl⟩
  have taken {x : BltSt} : d.Spares doneParts (({ d with blt := x } : Dev).put (R.BCH_WAIT i) 0) :=
    put (setBlt (refl d)) (spare_iff.2 (by simp only [R.BCH_WAIT, Fld.key]; omega))
  refine when (when (branch taken id fun h => ?_) fun h => h.note (Noting.raiseD_any _ _ _)) fun h =>
    Only.trans h (mono (blitPost (refl _)))
  exact ((h.flag (spare_iff.2 (by simp only [R.BCH_ERR, Fld.key]; omega))).flag (by decide)).note (Noting.raiseOnceD_any _ _ _)

theorem blitDone {i st : Nat} {cmd : List Byte} (h : d.Spares blitParts e) : d.Spares blitParts (e.blitDone i cmd st) := by
  cases hb : Tab.get? e.blt.chans i with
  | none => simpa only [Dev.blitDone, hb] using h
  | some b =>
    cases hc : e.chan? clsBlit i with
    | none => simpa only [Dev.blitDone, hb, hc] using h
    | some c =>
      obtain ⟨x, hx, heq⟩ := blitDone_of_chan (st := st) (cmd := cmd) hb hc
      rw [heq]
      exact branch (Only.trans h hx.mono) blitRetire blitAdvance

theorem blitWaitEnds {i st : Nat} (h : d.Spares blitParts e) : d.Spares blitParts (e.blitWaitEnds i st) := by
  unfold Dev.blitWaitEnds
  split
  · split
    · exact ite h.blitDone h
    · exact h
  · exact h

theorem blitFire {slot : Nat} (h : d.Spares blitParts e) : d.Spares blitParts (e.blitFire slot) :=
  h.foldl (fun e _ => ite (blitWaitEnds (refl e)) (refl e)) _

/-! ### Push lines -/

/-- The parts that a push line changes as it fires. -/
def plParts : List Part := .push :: blitParts

theorem plShot {i : Nat} (h : d.Spares plParts e) : d.Spares plParts (e.plShot i) :=
  Only.trans ((h.setPush.put (spare_iff.2 (by simp only [R.PUSH_PL_FIRE_TURN, Fld.key]; omega))).note (Noting.raiseD_any _ _ _))
    (blitFire (refl _)).mono

theorem plFire (h : d.Spares plParts e) : d.Spares plParts e.plFire := ite h (h.foldl (fun e _ => (refl e).when plShot) _)

/-! ### Answers, and the journal -/

/-- The parts that a committed transaction changes. -/
def bankParts : List Part := [.events, .bank, .ledger, .out]

theorem mbxDone {bytes : List Byte} {auth stale : Bool} (h : d.Spares bankParts e) :
    d.Spares bankParts (e.mbxDone bytes auth stale) := by
  have resp : d.Spares bankParts (e.putResp bytes) :=
    h.foldl (fun e k => put (refl e) (spare_iff.2 (by simp only [R.MBX_RESP, Fld.key]; omega))) _
  exact (((((resp.put (by decide)).put (by decide)).flag (by decide)).when fun h => h.flag (by decide)).when
    fun h => h.flag (by decide)).note (Noting.raiseD_any _ _ _)

theorem respond {transport tok : Nat} {dest : Option (Nat × Nat × Nat)} {bytes : List Byte} (h : d.Spares bankParts e) :
    d.Spares bankParts (e.respond transport tok dest bytes) := by
  unfold Dev.respond
  split
  · exact ite h.setBank.mbxDone h
  · split
    · exact h
    · exact h.setBank.send

theorem reply {r : Reply} (h : d.Spares bankParts e) : d.Spares bankParts (e.reply r) :=
  h.setBank.respond.foldl (fun e _ => respond (refl e)) _

theorem reply? {r : Option Reply} (h : d.Spares bankParts e) : d.Spares bankParts (e.reply? r) := by
  cases r with
  | some r => exact h.reply
  | none => exact h

theorem commitTxn {t : Txn} (h : d.Spares bankParts e) : d.Spares bankParts (e.commitTxn t) :=
  setBank (reply? (foldl (bump (bump h.setBank (by decide)) (by decide)) (fun e r => noted (Noting.ledger e r)) _))

theorem journalRegs (h : d.Spares bankParts e) : d.Spares bankParts e.journalRegs := (h.put (by decide)).put (by decide)

theorem journal {t : Txn} (h : d.Spares bankParts e) : d.Spares bankParts (e.journal t) := by
  unfold Dev.journal
  refine ite h (ite h.commitTxn (journalRegs ?_))
  split <;> exact h.setBank

/-! ### Table messages -/

theorem sendTable {dst : Nat} {mk : Nat → TableHdr → OutMsg} (h : d.Spares [.tbl, .out] e) :
    d.Spares [.tbl, .out] (e.sendTable dst mk) :=
  h.foldl (fun e _ => send (setTbl (refl e))) _

theorem decree {ds : List TableDecision} (h : d.Spares [.tbl, .out] e) : d.Spares [.tbl, .out] (e.decree ds) :=
  ite h.sendTable h

end Dev.Spares

end Sys2Proof.Machine
end

section
/-! SUPPORT. The compose deadline, and a blit channel of a stray index. -/

namespace Sys2Proof.Machine

/-! ### The window closed -/

/-- The fields of the pips and their scheduler. -/
def fabricBlock (k : Nat) : Bool := k / 0x4000000 == 4

/-- Stopping the pips changes nothing but them. -/
theorem Dev.pipsStop_only (d : Dev) : d.Only fabricBlock [.pip] d.pipsStop := by
  have pip {r : Nat → Bool} (e : Dev) (x : PipSt) : e.Only r [.pip] { e with pip := x } :=
    Only.parts rfl fun p hp => by
      cases p with
      | pip => exact absurd (List.mem_singleton_self _) hp
      | _ => rfl
  have todo (e : Dev) (p : Nat) : e.Only fabricBlock [.pip] (e.putTodo p []) :=
    Only.trans (pip e _) (Only.put _ _ _ (beq_iff_eq.2 (by simp only [R.PIP_REMAIN, Fld.key]; omega)))
  have park (e : Dev) (p : Nat) : e.Only fabricBlock [.pip] (e.park p) :=
    Only.trans (pip e _) (Only.put _ _ _ (beq_iff_eq.2 (by simp only [R.PIP_STATE, Fld.key]; omega)))
  exact Only.trans (Only.foldl _ _ (fun e p _ => Only.ite (Only.trans (todo e p) (park _ p)) (todo e p)) d) (pip _ _)

/-- Where no channel retires, none is reaped. -/
theorem Dev.reapRetired_of_none {d : Dev} (h : ∀ x ∈ d.ch.chans, x.2.retiring = false) : d.reapRetired = d := by
  have none_reaped (p : Nat × Chan → Bool) : (d.chansOf clsBlit).filter (fun x => x.2.retiring && p x) = [] := by
    refine List.filter_eq_nil_iff.2 fun x hx => ?_
    obtain ⟨y, hy, rfl⟩ := List.mem_map.1 hx
    simp [h y (List.mem_filter.1 hy).1]
  have none_retires : d.ch.chans.filter (fun p => p.2.retiring && p.1 / 2 ^ 20 != clsBlit) = [] :=
    List.filter_eq_nil_iff.2 fun x hx => by simp [h x hx]
  unfold Dev.reapRetired Dev.blitReap
  rw [none_retires]
  simp only [List.foldl_nil, none_reaped]

/-- Where nothing is late and nothing retires, closing the window stops the pips and fires the push lines. -/
theorem Dev.windowClose_of_idle {d : Dev} (hlatched : d.push.latched = []) (hchecks : d.comp.checks = [])
    (hretiring : ∀ x ∈ d.ch.chans, x.2.retiring = false) :
    ∃ e, d.Only fabricBlock [.pip, .sched] e ∧ e.sched.phase = .composed ∧ d.windowClose = e.plFire := by
  have closed {r : Nat → Bool} (e : Dev) (x : SchedSt) : e.Only r [.pip, .sched] { e with sched := x } :=
    Only.parts rfl fun p hp => by
      cases p with
      | sched => exact absurd (by decide) hp
      | _ => rfl
  have stopped := d.pipsStop_only
  have hpush : d.pipsStop.push = d.push := stopped.2 .push (by decide)
  have hcomp : d.pipsStop.comp = d.comp := stopped.2 .comp (by decide)
  have hch : d.pipsStop.ch = d.ch := stopped.2 .ch (by decide)
  have idle : d.windowClose = ({ d.pipsStop with sched := { d.pipsStop.sched with phase := .composed } } : Dev).reapRetired.plFire := by
    unfold Dev.windowClose
    rw [← hpush] at hlatched
    rw [← hcomp] at hchecks
    generalize d.pipsStop = e at hlatched hchecks ⊢
    simp only [hlatched, hchecks, List.filter_nil, List.map_nil, List.foldl_nil]
  rw [idle, reapRetired_of_none (by rw [hch]; exact hretiring)]
  exact ⟨_, Only.trans (Only.mono stopped (fun _ h => h) (by decide)) (closed _ _), rfl, rfl⟩

/-- What a key reads is listed. -/
theorem Tab.mem_of_get? {α : Type} {t : Tab α} {k : Nat} {v : α} (h : Tab.get? t k = some v) : (k, v) ∈ t := by
  induction t with
  | nil => cases h
  | cons x t ih =>
    obtain ⟨a, w⟩ := x
    rw [Tab.get?] at h
    split_ifs at h with hk
    · rw [hk, Option.some.inj h]
      exact List.mem_cons_self ..
    · exact List.mem_cons_of_mem _ (ih h)

/-! ### A command that retires its channel -/

theorem Dev.blitRetire_retires {d : Dev} {i : Nat} {c : Chan} (hc : d.chan? clsBlit i = some c) :
    ∃ x ∈ (d.blitRetire i).ch.chans, x.1 = chanKey clsBlit i ∧ x.2.retiring = true := by
  refine ⟨(chanKey clsBlit i, { c with retiring := true }), List.mem_map.2 ⟨(chanKey clsBlit i, c), Tab.mem_of_get? hc, ?_⟩, rfl, rfl⟩
  exact if_pos rfl

/-- The command of a ONESHOT channel ends and retires it. -/
theorem Dev.blitDone_retires {d : Dev} {i st : Nat} {cmd : List Byte} {b : BlitChan} {c : Chan}
    (hb : Tab.get? d.blt.chans i = some b) (hc : d.chan? clsBlit i = some c) (hone : bkOneshot c.record = true) :
    ∃ x ∈ (d.blitDone i cmd st).ch.chans, x.1 = chanKey clsBlit i ∧ x.2.retiring = true := by
  obtain ⟨e, ended, heq⟩ := Spares.blitDone_of_chan (st := st) (cmd := cmd) hb hc
  rw [heq, if_pos hone]
  have hch : e.ch = d.ch := ended.2 .ch (by decide)
  exact blitRetire_retires (c := c) (by rw [Dev.chan?, hch]; exact hc)

/-- A push line fires the one command that waits for it. -/
theorem Dev.blitFire_retires {d : Dev} {i : Nat} {b : BlitChan} {cmd : List Byte} {c : Chan} (hblt : d.blt.chans = [(i, b)])
    (hhead : b.head = some cmd) (hwait : d.get (R.BCH_WAIT i) = 2) (hc : d.chan? clsBlit i = some c)
    (hone : bkOneshot c.record = true) :
    ∃ x ∈ (d.blitFire (bArg cmd)).ch.chans, x.1 = chanKey clsBlit i ∧ x.2.retiring = true := by
  have hb : Tab.get? d.blt.chans i = some b := by rw [hblt]; exact if_pos rfl
  have fired : d.blitFire (bArg cmd) = d.blitDone i cmd stOk := by
    simp [Dev.blitFire, Dev.blitWaiting, Dev.blitWaitEnds, hblt, hhead, hwait, Tab.get?]
  rw [fired]
  exact blitDone_retires hb hc hone

/-- A push line that fires ends the command that waits for it. -/
theorem Dev.plShot_retires {d : Dev} {i line : Nat} {b : BlitChan} {cmd : List Byte} {c : Chan} (hblt : d.blt.chans = [(i, b)])
    (hhead : b.head = some cmd) (hline : bArg cmd = line) (hwait : d.get (R.BCH_WAIT i) = 2)
    (hc : d.chan? clsBlit i = some c) (hone : bkOneshot c.record = true) :
    ∃ x ∈ (d.plShot line).ch.chans, x.1 = chanKey clsBlit i ∧ x.2.retiring = true := by
  subst hline
  unfold Dev.plShot
  extract_lets _ shot
  have raised := Noting.raiseD_any (shot.put (R.PUSH_PL_FIRE_TURN (bArg cmd)) shot.time.turn) (844 + (bArg cmd)) 0
  have hblt' : ((shot.put (R.PUSH_PL_FIRE_TURN (bArg cmd)) shot.time.turn).raise (844 + (bArg cmd))).blt = d.blt := raised.2 .blt (by decide)
  have hch' : ((shot.put (R.PUSH_PL_FIRE_TURN (bArg cmd)) shot.time.turn).raise (844 + (bArg cmd))).ch = d.ch := raised.2 .ch (by decide)
  have hwait' : ((shot.put (R.PUSH_PL_FIRE_TURN (bArg cmd)) shot.time.turn).raise (844 + (bArg cmd))).get (R.BCH_WAIT i) = 2 :=
    (raised.1 _ (by simp only [noteBlock, R.BCH_WAIT, Fld.key, Bool.or_eq_false_iff, beq_eq_false_iff_ne]; omega)).trans
      ((Dev.get_put_ne _ _ _ _ (by simp only [R.BCH_WAIT, R.PUSH_PL_FIRE_TURN, Fld.key]; omega)).trans hwait)
  exact blitFire_retires (by rw [hblt', hblt]) hhead hwait' (by rw [Dev.chan?, hch']; exact hc) hone

/-- Where line 3 alone is enabled and its band is empty, it fires. -/
theorem Dev.plFire_of_last {d : Dev} (hrun : d.running = true) (hphase : d.sched.phase = .composed) (hlatched : d.push.latched = [])
    (hfired : d.push.fired = []) (hoff : ∀ i < 3, d.on (R.PUSH_PL_EN i) = false) (hon : d.on (R.PUSH_PL_EN 3) = true) :
    d.plFire = d.plShot 3 := by
  have band : d.plBand 3 = [] := by simp [Dev.plBand, hlatched]
  simp [Dev.plFire, Dev.inQuiet, hrun, hphase, List.range_succ, hoff, hon, hfired, band]

/-- In a device that composes, the compose deadline closes the window. -/
theorem exec_composeDeadline {s : State} (hrun : s.dev.running = true) (hphase : s.dev.sched.phase = .compose) :
    exec .composeDeadline s = .next (s.upd Dev.windowClose) := by
  have h : exec .composeDeadline s =
      .next (s.upd fun d => if d.running && d.sched.phase == .compose then d.windowClose else d) := rfl
  rw [h]
  simp [State.upd, hrun, hphase]

/-! ### A stray index -/

/-- A composing device whose blit table lists index 2^20, beyond the 4,096 of R102: the key of its channel, which is ONESHOT, is
that of sense channel 0, and its command waits for push line 3, whose band no patch meets. -/
def strayBlitIndex : State where
  dev :=
    { regs := [((R.PUSH_PL_EN 3).key, 1), ((R.BCH_WAIT 0).key, 2), (R.PWR_SU_STATE.key, suRun)]
      sched := { phase := .compose }
      ch := { chans := [(chanKey clsBlit (2 ^ 20), { gen := 1, record := putLe (List.replicate 96 0) 4 1 1 })] }
      blt := { chans := [(2 ^ 20, { queue := 0, tag := 0, head := some (putLe (List.replicate 64 0) 40 4 3) })] } }

/-- Push line 3 fires at the close, after what retires has been reaped: its command ends, and the channel that this retires
lies in the class of sense channels. -/
theorem strayBlitIndex_retires :
    ∃ x ∈ strayBlitIndex.dev.windowClose.ch.chans, x.2.retiring = true ∧ x.1 / 2 ^ 20 = clsSense := by
  obtain ⟨e, idle, hphase, heq⟩ := Dev.windowClose_of_idle (d := strayBlitIndex.dev) rfl rfl (by decide)
  have hpush : e.push = strayBlitIndex.dev.push := idle.2 .push (by decide)
  have hch : e.ch = strayBlitIndex.dev.ch := idle.2 .ch (by decide)
  have hblt : e.blt = strayBlitIndex.dev.blt := idle.2 .blt (by decide)
  have off : ∀ i < 3, e.on (R.PUSH_PL_EN i) = false := fun i hi => by
    rw [Dev.on, idle.1 _ (by simp only [fabricBlock, R.PUSH_PL_EN, Fld.key, beq_eq_false_iff_ne]; omega)]
    interval_cases i <;> decide
  have hon : e.on (R.PUSH_PL_EN 3) = true := by rw [Dev.on, idle.1 _ (by decide)]; decide
  have hrun : e.running = true := by rw [Dev.running, idle.1 _ (by decide)]; decide
  rw [heq, Dev.plFire_of_last hrun hphase (by rw [hpush]; rfl) (by rw [hpush]; rfl) off hon]
  obtain ⟨x, hx, hkey, hretiring⟩ := Dev.plShot_retires (d := e) (i := 2 ^ 20) (line := 3)
    (c := { gen := 1, record := putLe (List.replicate 96 0) 4 1 1 }) (by rw [hblt]; rfl) rfl (by decide)
    ((idle.1 _ (by decide)).trans (by decide)) (by rw [Dev.chan?, hch]; rfl) (by decide)
  exact ⟨x, hx, hretiring, by rw [hkey]; decide⟩

end Sys2Proof.Machine

open Sys2Proof Sys2Proof.Machine

/-- Refutes O29: the statement speaks of every state, also of one whose blit table lists an index that no channel has. Where a
push line fires at the compose deadline, a ONESHOT channel of index 2^20 retires after the reaping at a key outside its class,
so that what retires is not FREE. -/
theorem not_deadlinesEndComposingAndPushing : ¬ Obligations.DeadlinesEndComposingAndPushing := by
  unfold Obligations.DeadlinesEndComposingAndPushing
  intro h
  obtain ⟨hcompose, -⟩ := h strayBlitIndex
  obtain ⟨t, ht, -, -, -, hclass, -⟩ := hcompose (by decide) (by decide)
  rw [exec_composeDeadline (by decide) (by decide)] at ht
  obtain rfl := Host.Outcome.next.inj ht
  rw [State.upd_dev] at hclass
  obtain ⟨x, hx, hret, hcls⟩ := strayBlitIndex_retires
  exact absurd (hcls.symm.trans (hclass x hx hret)) (by decide)
end

section
/-! SUPPORT. What the opening of a compose window leaves alone at every step: the turn and its phase, the content, and what is
left to push of it. -/

namespace Sys2Proof.Machine

/-- Of the push state, what latching a damage map sets and the rest of the opening leaves. -/
def PushSt.pinned (p : PushSt) : Tab Nat × List Nat × Bool × List Nat × List Nat × Tab (List Nat) :=
  (p.st, p.latched, p.cut, p.acked, p.left, p.fmap)

/-- e stands in the turn and phase of d, with its content, and with the same of it left to push. -/
structure Dev.SameTurn (d e : Dev) : Prop where
  turn : e.time.turn = d.time.turn
  phase : e.sched.phase = d.sched.phase
  content : e.comp.content = d.comp.content
  pinned : e.push.pinned = d.push.pinned

namespace Dev.SameTurn

variable {d e : Dev}

theorem refl (d : Dev) : d.SameTurn d := ⟨rfl, rfl, rfl, rfl⟩

theorem trans {c : Dev} (h : d.SameTurn e) (k : e.SameTurn c) : d.SameTurn c :=
  ⟨k.turn.trans h.turn, k.phase.trans h.phase, k.content.trans h.content, k.pinned.trans h.pinned⟩

/-- A change of other parts. -/
theorem only {r : Nat → Bool} {l : List Part} {c : Dev} (h : d.SameTurn e) (k : e.Only r l c)
    (hl : Part.time ∉ l ∧ Part.sched ∉ l ∧ Part.comp ∉ l ∧ Part.push ∉ l := by decide) : d.SameTurn c := by
  obtain ⟨htime, hsched, hcomp, hpush⟩ := hl
  have same {p : Part} (hp : p ∉ l) := k.2 p hp
  have e1 : c.time = e.time := same htime
  have e2 : c.sched = e.sched := same hsched
  have e3 : c.comp = e.comp := same hcomp
  have e4 : c.push = e.push := same hpush
  exact h.trans ⟨by rw [e1], by rw [e2], by rw [e3], by rw [e4]⟩

theorem put {f : Fld} {v : Nat} (h : d.SameTurn e) : d.SameTurn (e.put f v) := h.trans ⟨rfl, rfl, rfl, rfl⟩
theorem flag {f : Fld} (h : d.SameTurn e) : d.SameTurn (e.flag f) := h.put
theorem bump {f : Fld} {n : Nat} (h : d.SameTurn e) : d.SameTurn (e.bump f n) := h.put
theorem putMap {f : Nat → Fld} {i : Nat} {b : Bool} (h : d.SameTurn e) : d.SameTurn (e.putMap f i b) := h.put
theorem raiseD {n x : Nat} (h : d.SameTurn e) : d.SameTurn (e.raiseD n x) := h.only (Noting.raiseD_any e n x)
theorem raise {n : Nat} (h : d.SameTurn e) : d.SameTurn (e.raise n) := h.raiseD
theorem raiseOnceD {n x : Nat} (h : d.SameTurn e) : d.SameTurn (e.raiseOnceD n x) := h.only (Noting.raiseOnceD_any e n x)
theorem raiseOnce {n : Nat} (h : d.SameTurn e) : d.SameTurn (e.raiseOnce n) := h.raiseOnceD
theorem flagRaise {f : Fld} {n : Nat} (h : d.SameTurn e) : d.SameTurn (e.flagRaise f n) := h.flag.raiseD
theorem flagRaiseOnce {f : Fld} {n : Nat} (h : d.SameTurn e) : d.SameTurn (e.flagRaiseOnce f n) := h.flag.raiseOnceD
theorem ledger {r : LedReq} (h : d.SameTurn e) : d.SameTurn (e.ledger r) := h.only (Noting.ledger e r)
theorem send {m : OutMsg} (h : d.SameTurn e) : d.SameTurn (e.send m) := h.trans ⟨rfl, rfl, rfl, rfl⟩

/-! ### Changes of a part -/

theorem setAdm {x : AdmSt} (h : d.SameTurn e) : d.SameTurn { e with adm := x } := h.trans ⟨rfl, rfl, rfl, rfl⟩
theorem setPip {x : PipSt} (h : d.SameTurn e) : d.SameTurn { e with pip := x } := h.trans ⟨rfl, rfl, rfl, rfl⟩
theorem setMem {x : MemSt} (h : d.SameTurn e) : d.SameTurn { e with mem := x } := h.trans ⟨rfl, rfl, rfl, rfl⟩
theorem setQ {x : QSt} (h : d.SameTurn e) : d.SameTurn { e with q := x } := h.trans ⟨rfl, rfl, rfl, rfl⟩
theorem setCh {x : ChanSt} (h : d.SameTurn e) : d.SameTurn { e with ch := x } := h.trans ⟨rfl, rfl, rfl, rfl⟩
theorem setBank {x : BankSt} (h : d.SameTurn e) : d.SameTurn { e with bank := x } := h.trans ⟨rfl, rfl, rfl, rfl⟩
theorem setSnk {x : SnkSt} (h : d.SameTurn e) : d.SameTurn { e with snk := x } := h.trans ⟨rfl, rfl, rfl, rfl⟩
theorem setIng {x : IngSt} (h : d.SameTurn e) : d.SameTurn { e with ing := x } := h.trans ⟨rfl, rfl, rfl, rfl⟩
theorem setBlt {x : BltSt} (h : d.SameTurn e) : d.SameTurn { e with blt := x } := h.trans ⟨rfl, rfl, rfl, rfl⟩
theorem setSns {x : SnsSt} (h : d.SameTurn e) : d.SameTurn { e with sns := x } := h.trans ⟨rfl, rfl, rfl, rfl⟩
theorem setTbl {x : TblSt} (h : d.SameTurn e) : d.SameTurn { e with tbl := x } := h.trans ⟨rfl, rfl, rfl, rfl⟩
theorem setCal {x : CalSt} (h : d.SameTurn e) : d.SameTurn { e with cal := x } := h.trans ⟨rfl, rfl, rfl, rfl⟩
theorem setFree {x : Nat} (h : d.SameTurn e) : d.SameTurn { e with free := x } := h.trans ⟨rfl, rfl, rfl, rfl⟩

theorem setComp {x : CompSt} (h : d.SameTurn e) (hx : x.content = e.comp.content := by rfl) : d.SameTurn { e with comp := x } :=
  h.trans ⟨rfl, rfl, hx, rfl⟩

theorem setPush {x : PushSt} (h : d.SameTurn e) (hx : x.pinned = e.push.pinned := by rfl) : d.SameTurn { e with push := x } :=
  h.trans ⟨rfl, rfl, rfl, hx⟩

/-! ### Conditions and loops -/

theorem ite {p : Prop} {_ : Decidable p} {x y : Dev} (h : d.SameTurn x) (k : d.SameTurn y) :
    d.SameTurn (if p then x else y) := by split_ifs <;> assumption

theorem iteSnd {α : Type} {p : Prop} {_ : Decidable p} {x y : α × Dev} (h : d.SameTurn x.2) (k : d.SameTurn y.2) :
    d.SameTurn (if p then x else y).2 := by split_ifs <;> assumption

theorem when {p : Prop} {_ : Decidable p} {x : Dev} (h : d.SameTurn e) (hx : d.SameTurn e → d.SameTurn x) :
    d.SameTurn (if p then x else e) := ite (hx h) h

theorem skipIf {p : Prop} {_ : Decidable p} {x : Dev} (h : d.SameTurn e) (hx : d.SameTurn e → d.SameTurn x) :
    d.SameTurn (if p then e else x) := ite h (hx h)

theorem branch {p : Prop} {_ : Decidable p} {x y : Dev} (h : d.SameTurn e) (hx : d.SameTurn e → d.SameTurn x)
    (hy : d.SameTurn e → d.SameTurn y) : d.SameTurn (if p then x else y) := ite (hx h) (hy h)

theorem foldl {α : Type} {f : Dev → α → Dev} (h : d.SameTurn e) (hf : ∀ (e : Dev) (x : α), d.SameTurn e → d.SameTurn (f e x)) :
    ∀ xs : List α, d.SameTurn (xs.foldl f e) := by
  intro xs
  induction xs generalizing e with
  | nil => exact h
  | cons x xs ih => exact ih (hf e x h)

/-! ### Damage -/

theorem mark {k : Nat} (h : d.SameTurn e) : d.SameTurn (e.mark k) := h.skipIf fun h => h.setPush
theorem markAll {ks : List Nat} (h : d.SameTurn e) : d.SameTurn (e.markAll ks) := h.foldl (fun _ _ h => h.mark) _
theorem markLayer {r : List Byte} (h : d.SameTurn e) : d.SameTurn (e.markLayer r) := h.when markAll

theorem markSquare {n : Nat} (h : d.SameTurn e) : d.SameTurn (e.markSquare n) := by
  unfold Dev.markSquare
  split
  · exact h.markAll
  · exact h

/-! ### Completions -/

theorem postAsync {c : Nat} {m : Compl} (h : d.SameTurn e) : d.SameTurn (e.postAsync c m) := h.only (Spares.postAsync (.refl e))
theorem postOwed {c : Nat} {m : Compl} (h : d.SameTurn e) : d.SameTurn (e.postOwed c m) := h.only (Spares.postOwed (.refl e))
theorem countStatus {st : Nat} (h : d.SameTurn e) : d.SameTurn (e.countStatus st) := h.only (Spares.countStatus (.refl e))
theorem queueSettle {q : Nat} (h : d.SameTurn e) : d.SameTurn (e.queueSettle q) := h.when put
theorem modChan {cls i : Nat} {f : Chan → Chan} (h : d.SameTurn e) : d.SameTurn (e.modChan cls i f) := h.setCh
theorem putChan {cls i : Nat} {c : Chan} (h : d.SameTurn e) : d.SameTurn (e.putChan cls i c) := h.setCh
theorem owe {o : Owed} (h : d.SameTurn e) : d.SameTurn (e.owe o) := h.setQ

theorem complete {q tag handle st rs : Nat} {applied : Option Nat} (h : d.SameTurn e) :
    d.SameTurn (e.complete q tag handle st rs applied) := h.countStatus.put.postOwed.put.queueSettle

theorem finish {q handle st rs : Nat} {m : List Byte} (h : d.SameTurn e) : d.SameTurn (e.finish q m handle st rs) := h.complete
theorem answer {q st : Nat} {m : List Byte} (h : d.SameTurn e) : d.SameTurn (e.answer q m st) := h.complete

theorem settle {p : Owed → Bool} {st : Nat} {applied : Option Nat} (h : d.SameTurn e) : d.SameTurn (e.settle p st applied) :=
  h.setQ.foldl (fun _ _ h => h.complete) _

theorem settleFirst {p : Owed → Bool} {st : Nat} {applied : Option Nat} (h : d.SameTurn e) :
    d.SameTurn (e.settleFirst p st applied) := by
  unfold Dev.settleFirst
  split
  · exact h
  · exact h.setQ.complete

/-! ### Table messages and the journal -/

theorem sendTable {dst : Nat} {mk : Nat → TableHdr → OutMsg} (h : d.SameTurn e) : d.SameTurn (e.sendTable dst mk) :=
  h.only (Spares.sendTable (.refl e))
theorem decree {ds : List TableDecision} (h : d.SameTurn e) : d.SameTurn (e.decree ds) := h.only (Spares.decree (.refl e))
theorem tellRuler {m : TableReq} (h : d.SameTurn e) : d.SameTurn (e.tellRuler m) := h.sendTable
theorem journal {t : Txn} (h : d.SameTurn e) : d.SameTurn (e.journal t) := h.only (Spares.journal (.refl e))
theorem putRuler {r : Nat} (h : d.SameTurn e) : d.SameTurn (e.putRuler r) := h.put.put
theorem putEpoch {n : Nat} (h : d.SameTurn e) : d.SameTurn (e.putEpoch n) := h.skipIf fun h => h.put.setBank.journal

/-! ### Admission -/

theorem reheld (h : d.SameTurn e) : d.SameTurn e.reheld := h.setAdm
theorem planDirty (h : d.SameTurn e) : d.SameTurn e.planDirty := h.setPip

theorem admRegs (h : d.SameTurn e) : d.SameTurn e.admRegs :=
  (((h.foldl (fun _ _ h => h.put) _).foldl (fun _ _ h => h.put) _).foldl (fun _ _ h => h.put.put) _).foldl (fun _ _ h => h.put.put) _

theorem demote {cls i : Nat} {c : Chan} (h : d.SameTurn e) : d.SameTurn (e.demote cls i c) :=
  (h.modChan.reheld.planDirty.branch (fun h => h.put.markLayer) (fun h => h.when put)).flagRaise.bump.postAsync

theorem shed {n : Nat} (h : d.SameTurn e) : d.SameTurn (e.shed n).2 := by
  induction n generalizing e with
  | zero => exact h
  | succ n ih =>
    unfold Dev.shed
    dsimp only
    split
    · exact h
    · split
      · exact h
      · exact ih h.demote

theorem releaseHeld (h : d.SameTurn e) : d.SameTurn e.releaseHeld :=
  h.skipIf fun h => ite h h.setAdm.planDirty.markAll

theorem recompute (h : d.SameTurn e) : d.SameTurn e.recompute := by
  refine h.skipIf fun h => ?_
  have hs := h.shed (n := e.shedOrder.length)
  exact hs.branch (fun h => h.branch admRegs fun h => (((h.foldl (fun _ _ h => h.demote) _).put.bump).flagRaise).admRegs)
    fun h => ((h.when put).skipIf releaseHeld).admRegs

theorem recomputeAll (h : d.SameTurn e) : d.SameTurn e.recomputeAll :=
  h.recompute.skipIf fun h => h.branch decree fun h => h.foldl (fun _ _ h => h.tellRuler) _

theorem admLast {st rs qm sm rung handle : Nat} (h : d.SameTurn e) : d.SameTurn (e.admLast st rs qm sm rung handle) :=
  h.put.put.put.put.put.put.put

theorem admFail {r : Request} {st rs qm sm : Nat} (h : d.SameTurn e) : d.SameTurn (e.admFail r st rs qm sm) :=
  h.admLast.branch (fun h => h.bump.raiseOnce) fun h => h.when raise

theorem admPass {r : Request} {handle : Nat} (h : d.SameTurn e) : d.SameTurn (e.admPass r handle) := by
  unfold Dev.admPass
  exact (modChan (admLast (bump (put h)))).reheld.planDirty.admRegs

theorem admitStake {r : Request} {cycle full : Bool} (h : d.SameTurn e) : d.SameTurn (e.admitStake r cycle full).2.2 := by
  unfold Dev.admitStake
  split
  · dsimp only
    exact h.admFail
  · split
    · split
      · dsimp only
        exact h.putChan.admPass
      · exact h
    · dsimp only
      exact h.admFail

theorem admitWith {r : Request} {cycle busy full : Bool} (h : d.SameTurn e) :
    d.SameTurn (e.admitWith r cycle busy full).2.2 := by
  unfold Dev.admitWith
  split
  · split
    · exact h.admitStake
    · dsimp only
      exact h.admFail
  · split
    · dsimp only
      exact h.admFail
    · exact h.admitStake

theorem create {cls i : Nat} {c : Chan} (h : d.SameTurn e) : d.SameTurn (e.create cls i c).2 := h.setCh.putChan
theorem created {r : Request} (h : d.SameTurn e) : d.SameTurn (e.created r).2 := h.create.modChan.admPass

end Dev.SameTurn

end Sys2Proof.Machine
end

section
namespace Sys2Proof.Machine
namespace Dev.SameTurn

variable {d e : Dev}

/-! ### Frames down a snake -/

theorem snkFlag {s : Nat} {f : Fld} (h : d.SameTurn e) : d.SameTurn (e.snkFlag s f) := h.flagRaise

theorem inject {s ftype pos : Nat} {down : Bool} (h : d.SameTurn e) : d.SameTurn (e.inject s ftype pos down).2 :=
  iteSnd h (iteSnd h.setSnk (iteSnd h.setSnk.bump (h.setSnk.bump.put.when snkFlag)))

theorem onLane {s act : Nat} {ws : List LinkWord} (h : d.SameTurn e) : d.SameTurn (e.onLane s act ws) :=
  (h.bump (f := R.SNK_DN_FRAMES s) (n := 1)).skipIf fun h => h.branch send fun h =>
    h.branch send fun h => h.branch (fun h => h.send.send) send

theorem sendDown {s ftype pos : Nat} {ws : List LinkWord} (h : d.SameTurn e) : d.SameTurn (e.sendDown s ftype pos ws) := by
  have hi := h.inject (s := s) (ftype := ftype) (pos := pos) (down := true)
  unfold Dev.sendDown
  dsimp only
  split
  · exact hi.setSnk.onLane.onLane
  · exact hi.branch setSnk onLane

theorem sendHeld {s ftype pos : Nat} {ws : List LinkWord} (h : d.SameTurn e) : d.SameTurn (e.sendHeld s ftype pos ws) :=
  h.branch setSnk sendDown

theorem sendEnum {s pos bcast arg : Nat} {ws : List LinkWord} (h : d.SameTurn e) : d.SameTurn (e.sendEnum s pos bcast arg ws) :=
  h.sendHeld

theorem sendConfig {s p : Nat} (h : d.SameTurn e) : d.SameTurn (e.sendConfig s p) := by
  unfold Dev.sendConfig
  split
  · exact h.sendEnum
  · exact h

theorem reconfig {s : Nat} {ps : List Nat} (h : d.SameTurn e) : d.SameTurn (e.reconfig s ps) := by
  unfold Dev.reconfig
  dsimp only
  split
  · exact h.setSnk
  · split
    · exact h
    · exact h.setSnk.sendConfig

/-! ### Sensing -/

theorem hitLayer {x y : Nat} (h : d.SameTurn e) : d.SameTurn (e.hitLayer x y).2 := by
  unfold Dev.hitLayer
  dsimp only
  split
  · exact h
  · exact h.bump

theorem report {r : Report} (h : d.SameTurn e) : d.SameTurn (e.report r) := by
  unfold Dev.report
  split
  · exact h
  · refine h.skipIf fun h => ?_
    refine h.branch (fun h => h.bump.bump.flag.flagRaiseOnce.setSns) fun h => ?_
    exact (iteSnd h.hitLayer h).send.setSns.put.bump.bump.putMap

theorem sendPi {i : Nat} (h : d.SameTurn e) : d.SameTurn (e.sendPi i) := by
  unfold Dev.sendPi
  split
  · exact h
  · exact h.send

theorem reports {l : List Report} (h : d.SameTurn e) : d.SameTurn (e.reports l) :=
  (h.foldl (fun _ _ h => h.report) _).skipIf fun h => (h.foldl (fun _ _ h => h.sendPi) _).raiseOnce

theorem openRegs (h : d.SameTurn e) : d.SameTurn e.openRegs := h.foldl (fun _ _ h => h.put) _
theorem loseContacts {n : Nat} (h : d.SameTurn e) : d.SameTurn (e.loseContacts n) := h.setSns.reports.openRegs
theorem stopSensing {n : Nat} (h : d.SameTurn e) : d.SameTurn (e.stopSensing n) := h.loseContacts.setSns
theorem startCapture {n : Nat} (h : d.SameTurn e) : d.SameTurn (e.startCapture n) := h.loseContacts.setSns

theorem senseRefresh (h : d.SameTurn e) : d.SameTurn e.senseRefresh :=
  h.foldl (fun _ _ h => h.branch (fun h => h.startCapture.reconfig) fun h => h.when fun h => h.stopSensing.reconfig) _

/-! ### The geometry, the profiles and the stores -/

theorem flowRegs (h : d.SameTurn e) : d.SameTurn e.flowRegs := h.foldl (fun _ _ h => h.put) _

theorem listShown {ns : List Nat} (h : d.SameTurn e) : d.SameTurn (e.listShown ns) := by
  refine h.foldl (fun e n h => ?_) _
  split
  · exact h
  · refine h.foldl (fun e k h => ?_) _
    split
    · exact h
    · exact h.setPush

theorem indexError (h : d.SameTurn e) : d.SameTurn e.indexError := h.raise.ledger

theorem tableResize (h : d.SameTurn e) : d.SameTurn e.tableResize :=
  h.branch (fun h => ((h.when indexError).put).setTbl) fun h => h.when fun h => h.put.putRuler.putEpoch.raise.raise

theorem geometryApply {img : List Byte} (h : d.SameTurn e) : d.SameTurn (e.geometryApply img) := by
  unfold Dev.geometryApply
  split
  · exact h
  · refine flowRegs (tableResize (planDirty (reheld (senseRefresh (foldl ?_ (fun _ _ h => h.markSquare) _)))))
    exact (h.listShown.foldl (fun _ _ h => h.stopSensing) _).trans ⟨rfl, rfl, rfl, rfl⟩

theorem announce (h : d.SameTurn e) : d.SameTurn e.announce := by
  unfold Dev.announce
  split
  · refine h.when fun h => raise (put ?_)
    exact h.trans ⟨rfl, rfl, rfl, rfl⟩
  · exact h

theorem geometryDue (h : d.SameTurn e) : d.SameTurn e.geometryDue := by
  unfold Dev.geometryDue
  split
  · refine h.when fun h => ?_
    split
    · exact h.geometryApply
    · exact h
  · exact h

theorem profileApply (h : d.SameTurn e) : d.SameTurn e.profileApply :=
  (h.foldl (fun _ _ h => h.put.put.put.put.put.put.put.put.put.put) _).setCal

theorem switchSlot {l : StoreLoad} (h : d.SameTurn e) : d.SameTurn (e.switchSlot l) :=
  (h.branch (fun h => h.setComp.put.bump) fun h => h.branch (fun h => h.setComp.put.bump) fun h =>
    h.branch (fun h => h.setComp.put.bump) fun h => h.setComp.put).settleFirst

theorem storeSwitch (h : d.SameTurn e) : d.SameTurn e.storeSwitch.2 := h.setComp.foldl (fun _ _ h => h.switchSlot) _

/-! ### Waiting admissions -/

theorem awaitFill {q handle key : Nat} {m : List Byte} (h : d.SameTurn e) : d.SameTurn (e.awaitFill q m handle key) := h.setMem.owe

theorem orWait {q : Nat} {m : List Byte} {k : Dev → Dev} (h : d.SameTurn e) (hk : d.SameTurn e → d.SameTurn (k e)) :
    d.SameTurn (e.orWait q m k) := h.branch owe hk

theorem onDomains {q : Nat} {m : List Byte} {js : List Nat} {k : Dev → Dev} (h : d.SameTurn e)
    (hk : d.SameTurn e → d.SameTurn (k e)) : d.SameTurn (e.onDomains q m js k) :=
  h.branch hk fun h => h.branch answer fun h => (h.foldl (fun _ _ h => h.when putMap) _).owe

theorem blitRings (h : d.SameTurn e) : d.SameTurn e.blitRings := h.put

theorem blitRefuse {q st : Nat} {m : List Byte} {oneshot : Bool} (h : d.SameTurn e) :
    d.SameTurn (e.blitRefuse q m oneshot st) := (h.when put).answer

theorem blitCreateD {q : Nat} {m : List Byte} (h : d.SameTurn e) : d.SameTurn (e.blitCreateD q m) := by
  refine h.branch blitRefuse fun h => h.branch blitRefuse fun h => h.branch blitRefuse fun h => h.onDomains fun h => ?_
  split
  · exact h.blitRefuse
  · exact h.create.modChan.setBlt.put.put.put.put.put.blitRings.finish

theorem captureDamage {i : Nat} {r : List Byte} (h : d.SameTurn e) : d.SameTurn (e.captureDamage i r) := h.when setComp

theorem layerRegs {i handle : Nat} {r : List Byte} (h : d.SameTurn e) : d.SameTurn (e.layerRegs i handle r) := h.put.put.put.put.put

theorem iteDev {p : Prop} {_ : Decidable p} {x y : Answer} (h : d.SameTurn x.dev) (k : d.SameTurn y.dev) :
    d.SameTurn (if p then x else y).dev := by split_ifs <;> assumption

theorem layerMake {a : Asked} {r : List Byte} (h : d.SameTurn e) : d.SameTurn (e.layerMake a r).dev := by
  unfold Dev.layerMake
  dsimp only
  exact iteDev h.admitStake h.admitStake.created.modChan.layerRegs.captureDamage.markLayer

theorem layerPut {i : Nat} {c : Chan} {r : List Byte} (h : d.SameTurn e) : d.SameTurn (e.layerPut i c r) :=
  (h.modChan.put.skipIf fun h => h.markLayer.markLayer).skipIf captureDamage

theorem layerChange {a : Asked} {i : Nat} {c : Chan} {r : List Byte} (h : d.SameTurn e) :
    d.SameTurn (e.layerChange a i c r).dev :=
  iteDev h (iteDev h (iteDev h (iteDev (iteDev h.admitStake h.admitStake.put.layerPut)
    (iteDev (show d.SameTurn (e.raise 75) from h.raise) (iteDev h h.layerPut)))))

theorem layerOffer {a : Asked} {dev : Nat} {ans : Answer} {m : Option (Nat × List Byte)} (h : d.SameTurn e) :
    d.SameTurn (e.layerOffer a dev ans m) := by
  unfold Dev.layerOffer
  dsimp only
  split
  · exact h
  · split
    · exact h.modChan.decree.setTbl.owe
    · exact h.modChan.decree.setTbl

end Dev.SameTurn
end Sys2Proof.Machine
end

section
namespace Sys2Proof.Machine
namespace Dev.SameTurn

variable {d e : Dev}

theorem layerCreateD {q : Nat} {m : List Byte} (h : d.SameTurn e) : d.SameTurn (e.layerCreateD q m) := by
  unfold Dev.layerCreateD
  dsimp only
  refine h.branch answer fun h => h.orWait fun h => ?_
  refine ite ?_ (h.branch finish fun h => h.owe.tellRuler)
  exact h.layerMake.branch finish fun h => h.branch layerOffer owe

/-- An entry that may have to wait, or that is decided at once. -/
theorem orWaitIf {p : Prop} {_ : Decidable p} {q : Nat} {m : List Byte} {k : Dev → Dev} (h : d.SameTurn e) (hk : d.SameTurn (k e)) :
    d.SameTurn (if p then e.orWait q m k else k e) := ite (h.orWait fun _ => hk) hk

theorem layerUpdateD {q : Nat} {m : List Byte} (h : d.SameTurn e) : d.SameTurn (e.layerUpdateD q m) := by
  unfold Dev.layerUpdateD
  dsimp only
  refine h.branch answer fun h => ?_
  split
  · exact h.answer
  · refine h.orWaitIf (ite (h.layerChange.branch finish fun h => ?_) (h.branch answer fun h => h.owe.tellRuler))
    split
    · exact h.owe.decree
    · exact h.owe

theorem readmitD {q : Nat} {m : List Byte} (h : d.SameTurn e) : d.SameTurn (e.readmitD q m) := by
  unfold Dev.readmitD
  dsimp only
  refine h.branch answer fun h => ?_
  split
  · exact h.answer
  · refine h.branch answer fun h => h.orWait fun h => ?_
    refine h.admitStake.branch finish fun h => ?_
    exact h.modChan.branch (fun h => h.put.markLayer.owe) fun h =>
      h.branch owe fun h => h.branch (fun h => h.put.setSns.finish) finish

theorem putClip {i : Nat} {c : ClipChan} (h : d.SameTurn e) : d.SameTurn (e.putClip i c) := h.setIng
theorem putIng {i : Nat} {c : IngChan} (h : d.SameTurn e) : d.SameTurn (e.putIng i c) := h.setIng

theorem release {k : Nat} (h : d.SameTurn e) : d.SameTurn (e.release k) := by
  unfold Dev.release
  split
  · exact h
  · exact h.setMem

theorem clipCreateD {q : Nat} {m : List Byte} (h : d.SameTurn e) : d.SameTurn (e.clipCreateD q m) := by
  unfold Dev.clipCreateD
  dsimp only
  refine h.branch answer fun h => h.branch answer fun h => h.onDomains fun h => h.orWait fun h => ?_
  exact h.admitStake.branch (fun h => (h.when bump).finish) fun h => h.setMem.created.putClip.awaitFill

theorem ingestCreateD {q : Nat} {m : List Byte} (h : d.SameTurn e) : d.SameTurn (e.ingestCreateD q m) := by
  unfold Dev.ingestCreateD
  dsimp only
  refine h.branch answer fun h => h.branch answer fun h => h.branch answer fun h => h.onDomains fun h => h.orWait fun h => ?_
  exact h.admitWith.branch (fun h => (h.when bump).finish) fun h => h.setMem.created.putIng.flowRegs.awaitFill

theorem senseCreateD {q : Nat} {m : List Byte} (h : d.SameTurn e) : d.SameTurn (e.senseCreateD q m) := by
  unfold Dev.senseCreateD
  dsimp only
  refine h.branch answer fun h => h.branch answer fun h => h.orWait fun h => ?_
  exact h.admitStake.branch finish fun h => h.created.put.put.put.put.put.senseRefresh.finish

end Dev.SameTurn

/-! ### The entries that waited, over the whole state -/

/-- t is in the turn of s, with the same commands to come. -/
structure State.SameTurn (s t : State) : Prop where
  dev : s.dev.SameTurn t.dev
  pending : t.pending = s.pending

namespace State.SameTurn

variable {s t : State}

theorem refl (s : State) : s.SameTurn s := ⟨.refl _, rfl⟩

/-- A change of the block alone. -/
theorem setDev {x : Dev} (h : s.SameTurn t) (hx : t.dev.SameTurn x) : s.SameTurn { t with dev := x } :=
  ⟨h.dev.trans hx, h.pending⟩

theorem upd {f : Dev → Dev} (h : s.SameTurn t) (hf : t.dev.SameTurn (f t.dev)) : s.SameTurn (t.upd f) := h.setDev hf

theorem foldl {α : Type} {f : State → α → State} (h : s.SameTurn t) (hf : ∀ (t : State) (x : α), s.SameTurn t → s.SameTurn (f t x)) :
    ∀ xs : List α, s.SameTurn (xs.foldl f t) := by
  intro xs
  induction xs generalizing t with
  | nil => exact h
  | cons x xs ih => exact ih (hf t x h)

theorem ite {p : Prop} {_ : Decidable p} {x y : State} (h : s.SameTurn x) (k : s.SameTurn y) :
    s.SameTurn (if p then x else y) := by split_ifs <;> assumption

theorem zeroSurface {u : Surf} (h : s.SameTurn t) : s.SameTurn (t.zeroSurface u) := by
  refine h.foldl (fun t p h => ?_) _
  exact ⟨h.dev.setMem, h.pending⟩

theorem zeroBank {i bank : Nat} (h : s.SameTurn t) : s.SameTurn (t.zeroBank i bank) := h.foldl (fun _ _ h => h.zeroSurface) _

theorem clipUpdateD {q : Nat} {m : List Byte} (h : s.SameTurn t) : s.SameTurn (t.clipUpdateD q m) := by
  have same := Dev.SameTurn.refl t.dev
  unfold State.clipUpdateD
  dsimp only
  refine ite (h.setDev same.answer) ?_
  split
  · exact h.setDev same.answer
  · refine ite (h.setDev same.answer) (ite (h.setDev (same.orWait id)) (ite (h.setDev (same.admitStake.when .bump).finish) ?_))
    exact (h.setDev same.admitStake.setMem.putClip.owe).zeroBank

theorem decideEntry {q : Nat} {m : List Byte} (h : s.SameTurn t) : s.SameTurn (t.decideEntry q m) := by
  have same := Dev.SameTurn.refl t.dev
  unfold State.decideEntry
  split
  · exact h.upd same.readmitD
  · exact h.upd same.layerCreateD
  · exact h.upd same.layerUpdateD
  · exact h.upd same.ingestCreateD
  · exact h.upd same.clipCreateD
  · exact h.clipUpdateD
  · exact h.upd same.blitCreateD
  · exact h.upd same.senseCreateD
  · exact h

theorem decideWaiting (h : s.SameTurn t) : s.SameTurn t.decideWaiting :=
  ite h ((h.upd (Dev.SameTurn.setQ (.refl _))).foldl (fun _ _ h => h.decideEntry) _)

end State.SameTurn

end Sys2Proof.Machine
end

section
namespace Sys2Proof.Machine
namespace Dev.SameTurn

variable {d e : Dev}

/-! ### What the content latches -/

theorem changeDamage {o : Owed} (h : d.SameTurn e) : d.SameTurn (e.changeDamage o) := by
  unfold Dev.changeDamage
  split
  · dsimp only
    split
    · exact (h.skipIf fun h => h.markLayer.markLayer).skipIf captureDamage
    · exact h.markLayer
    · exact h.markLayer.captureDamage
    · exact h
  · exact h

theorem clipTrim {i : Nat} (h : d.SameTurn e) : d.SameTurn (e.clipTrim i) := h.foldl (fun _ _ h => h.release) _

theorem clipApply {i : Nat} {r : List Byte} (h : d.SameTurn e) : d.SameTurn (e.clipApply i r) := h.skipIf fun h => h.putClip.clipTrim

theorem clipShow {i m : Nat} (h : d.SameTurn e) : d.SameTurn (e.clipShow i m).2 := by
  unfold Dev.clipShow
  dsimp only
  split
  · exact h
  · refine iteSnd h ?_
    split
    · exact h.putClip.putClip.clipTrim
    · exact h.putClip

theorem clipsLatch {waits : List Owed} {content : Nat} (h : d.SameTurn e) : d.SameTurn (e.clipsLatch waits content) := by
  refine h.foldl (fun e p h => h.skipIf fun h => ?_) _
  dsimp only
  split
  · exact h.clipShow.when fun h => h.bump.flagRaiseOnce
  · exact h.clipApply.clipShow.when fun h => h.bump.flagRaiseOnce

theorem cullAll (h : d.SameTurn e) : d.SameTurn e.cullAll := h.foldl (fun _ _ h => h.when put) _

theorem ingestLatched {now : Tab Latch} (h : d.SameTurn e) : d.SameTurn (e.ingestLatched now) :=
  h.foldl (fun _ _ h => h.branch (fun h => h.skipIf putIng) putIng) _

theorem remoteLatched {now : Tab Latch} (h : d.SameTurn e) : d.SameTurn (e.remoteLatched now) :=
  (h.foldl (fun _ _ h => h.foldl (fun _ _ h => h.release) _) _).setTbl

theorem noteLatch {old : Tab Latch} {x : Nat × Latch} (h : d.SameTurn e) : d.SameTurn (e.noteLatch old x) := by
  unfold Dev.noteLatch
  dsimp only
  split
  · exact ((h.put.put.put.when fun h => h.bump.flagRaiseOnce).when flagRaiseOnce).skipIf markLayer
  · exact ((h.put.put.put.when fun h => h.bump.flagRaiseOnce).when flagRaiseOnce).markLayer

/-! ### Damage and brightness -/

theorem storeDamage {sw : List (Nat × Nat)} (h : d.SameTurn e) : d.SameTurn (e.storeDamage sw) :=
  h.foldl (fun _ _ h => (h.foldl (fun _ _ h => h.when markAll) _).when markAll) _

theorem ambFresh {fresh : Bool} (h : d.SameTurn e) : d.SameTurn (e.ambFresh fresh) :=
  h.branch setCal fun h => h.when fun h => h.flagRaise.setCal

theorem ambStep {raw amb : Nat} (h : d.SameTurn e) : d.SameTurn (e.ambStep raw amb).2 := by
  unfold Dev.ambStep
  dsimp only
  exact iteSnd h.setFree h

theorem ambient (h : d.SameTurn e) : d.SameTurn e.ambient := by
  unfold Dev.ambient
  dsimp only
  split
  · exact h.ambFresh.branch put fun h => h.skipIf put
  · exact h.ambFresh.ambStep.put.branch put put

theorem drives (h : d.SameTurn e) : d.SameTurn e.drives := h.foldl (fun _ _ h => h.setCal.skipIf markAll) _

theorem brightness (h : d.SameTurn e) : d.SameTurn e.brightness :=
  (((h.put.put.foldl (fun _ _ h => h.raise) _).ambient.put.branch decree sendTable).setCal).drives

theorem calLoadEnd {u : Nat} {w : CalWork} (h : d.SameTurn e) : d.SameTurn (e.calLoadEnd u w) :=
  h.setCal.markAll.bump.settleFirst

theorem calLoadEnds (h : d.SameTurn e) : d.SameTurn e.calLoadEnds :=
  h.foldl (fun _ _ h => h.setCal.foldl (fun _ _ h => h.calLoadEnd) _) _

theorem captureDamages (h : d.SameTurn e) : d.SameTurn e.captureDamages := by
  unfold Dev.captureDamages
  refine setComp (markAll (h.foldl (fun e p h => ?_) _)) rfl
  split
  · exact h.markAll
  · exact h

theorem captureSkip {k : Nat} (h : d.SameTurn e) : d.SameTurn (e.captureSkip k) := h.when flagRaiseOnce

/-! ### The work handed out -/

theorem setSends {b : Bool} (h : d.SameTurn e) : d.SameTurn { e with push := { e.push with sends := b } } := h.setPush

theorem static (h : d.SameTurn e) : d.SameTurn e.static := by
  unfold Dev.static
  refine setSends (foldl (when ?_ bump) (fun _ _ h => h.put) _)
  exact h.setPush.branch (fun h => h.when fun h => h.put.flagRaise) fun h => h.when fun h => h.put.flagRaise

theorem putTodo {p : Nat} {l : List Nat} (h : d.SameTurn e) : d.SameTurn (e.putTodo p l) := h.setPip.put
theorem putWork {p : Nat} {w : Option Nat} (h : d.SameTurn e) : d.SameTurn (e.putWork p w) := h.setPip
theorem putPip {p st : Nat} (h : d.SameTurn e) : d.SameTurn (e.putPip p st) := h.put
theorem beginIdle {p : Nat} (h : d.SameTurn e) : d.SameTurn (e.beginIdle p) := h.putWork.put.branch putPip putPip

theorem orphan {c : Nat} {l : List Nat} (h : d.SameTurn e) : d.SameTurn (e.orphan c l) :=
  h.skipIf fun h => h.setPip.bump.skipIf fun h => h.foldl (fun _ _ h => h.foldl (fun _ _ h => h.when beginIdle) _) _

theorem orphanPip {p : Nat} (h : d.SameTurn e) : d.SameTurn (e.orphanPip p) := h.putTodo.putWork.orphan

theorem slotApply {p : Nat} (h : d.SameTurn e) : d.SameTurn (e.slotApply p) :=
  (h.put (f := R.PIP_SLOT p) (v := e.slotOf p)).branch (fun h => (h.skipIf fun h => h.orphanPip.putPip).put)
    fun h => (h.when putPip).put

theorem short (h : d.SameTurn e) : d.SameTurn e.short := h.flagRaise.bump.when put

theorem pipLoss {q : Nat} (h : d.SameTurn e) : d.SameTurn (e.pipLoss q) := h.put.flagRaise.put.skipIf short

theorem cupFlag {c : Nat} {f : Fld} (h : d.SameTurn e) : d.SameTurn (e.cupFlag c f) := h.flagRaise

theorem mapApply (h : d.SameTurn e) : d.SameTurn e.mapApply := by
  refine h.foldl (fun e c h => h.skipIf fun h => ?_) _
  exact (((h.setPip.foldl (fun _ _ h => h.skipIf slotApply) _).when cupFlag).put.planDirty).when pipLoss

theorem planApply (h : d.SameTurn e) : d.SameTurn e.planApply :=
  (h.foldl (fun _ _ h => h.setPip.put.put.foldl (fun _ _ h => h.put) _) _).setPip

theorem checkSkip {i : Nat} (h : d.SameTurn e) : d.SameTurn (e.checkSkip i) := h.setComp

theorem checkResult {i v : Nat} (h : d.SameTurn e) : d.SameTurn (e.checkResult i v) := by
  unfold Dev.checkResult
  split
  · exact h
  · exact h.setComp.branch (fun h => h.setComp.modChan) fun h =>
      h.branch modChan fun h => h.modChan.bump.flagRaiseOnce.when markAll

theorem checksBegin (h : d.SameTurn e) : d.SameTurn e.checksBegin :=
  (h.foldl (fun _ _ h => h.checkSkip) _).skipIf fun h =>
    h.foldl (fun _ _ h => h.branch checkSkip fun h => h.branch checkResult setComp) _

theorem startNext {w : Nat → Bool} {p : Nat} (h : d.SameTurn e) : d.SameTurn (e.startNext w p) := by
  unfold Dev.startNext
  split
  · exact h.putTodo.beginIdle
  · exact h.putTodo.putWork.putPip

theorem deal (h : d.SameTurn e) : d.SameTurn e.deal := by
  unfold Dev.deal
  refine foldl (foldl h.setPip (fun e p h => ?_) _) (fun e p h => h.when startNext) _
  exact h.branch putTodo fun h => h.skipIf fun h => h.putTodo.orphan

theorem handOut {ready : Bool} (h : d.SameTurn e) : d.SameTurn (e.handOut ready) := by
  unfold Dev.handOut
  exact ((h.mapApply.when planApply).skipIf checksBegin).deal

theorem blitFire {slot : Nat} (h : d.SameTurn e) : d.SameTurn (e.blitFire slot) := h.only (Spares.blitFire (.refl e))
theorem plShot {i : Nat} (h : d.SameTurn e) : d.SameTurn (e.plShot i) := h.setPush.put.raise.blitFire
theorem plFire (h : d.SameTurn e) : d.SameTurn e.plFire := h.skipIf fun h => h.foldl (fun _ _ h => h.when plShot) _

end Dev.SameTurn
end Sys2Proof.Machine
end

section
namespace Sys2Proof.Machine

/-! ### The latched content -/

theorem mem_insertNat {k x : Nat} {l : List Nat} (h : k ∈ insertNat x l) : k = x ∨ k ∈ l := by
  induction l with
  | nil => simpa [insertNat] using h
  | cons y t ih =>
    unfold insertNat at h
    split_ifs at h with hxy
    · simpa using h
    · rcases List.mem_cons.1 h with hk | hk
      · exact .inr (hk ▸ List.mem_cons_self ..)
      · exact (ih hk).imp_right (List.mem_cons_of_mem y)

theorem mem_of_mem_sortNat {k : Nat} {l : List Nat} (h : k ∈ sortNat l) : k ∈ l := by
  induction l with
  | nil => exact h
  | cons x t ih =>
    rcases mem_insertNat h with hk | hk
    · exact hk ▸ List.mem_cons_self ..
    · exact List.mem_cons_of_mem x (ih hk)

/-- Keys set to one value in turn read that value. -/
theorem Tab.get?_foldl_set {α : Type} (v : α) (ks : List Nat) (t : Tab α) (k : Nat) :
    Tab.get? (ks.foldl (fun t k => Tab.set t k v) t) k = if k ∈ ks then some v else Tab.get? t k := by
  induction ks generalizing t with
  | nil => simp
  | cons x ks ih =>
    rw [List.foldl_cons, ih, Tab.get?_set]
    by_cases hk : k = x <;> simp [hk]

/-- A content is latched in a turn: each of its patches is INFLIGHT, and nothing of it is pushed or left out yet (R394, R396). -/
structure Dev.Latched (turn content : Nat) (d : Dev) : Prop where
  turn : d.time.turn = turn
  content : d.comp.content = content
  inflight : ∀ k ∈ d.push.latched, Tab.get? d.push.st k = some 1
  cut : d.push.cut = false
  acked : d.push.acked = []
  left : d.push.left = []
  fmap : d.push.fmap = []

/-- What leaves the turn, the content and what is left to push of it leaves the content latched. -/
theorem Dev.Latched.of_sameTurn {turn content : Nat} {d e : Dev} (h : d.Latched turn content) (k : d.SameTurn e) :
    e.Latched turn content := by
  obtain ⟨kturn, -, kcontent, kpin⟩ := k
  simp only [PushSt.pinned, Prod.mk.injEq] at kpin
  obtain ⟨hst, hlatched, hcut, hacked, hleft, hfmap⟩ := kpin
  exact ⟨kturn.trans h.turn, kcontent.trans h.content, by rw [hst, hlatched]; exact h.inflight, hcut.trans h.cut,
    hacked.trans h.acked, hleft.trans h.left, hfmap.trans h.fmap⟩

/-- Latching the damage map (R396) latches the content that is composed. -/
theorem Dev.latched_damageLatch (d : Dev) : d.damageLatch.Latched d.time.turn d.comp.content := by
  unfold Dev.damageLatch
  dsimp only
  generalize (if d.adm? = admTrial then [] else d.push.dmg.filter d.patchFree) = now
  have skipped : d.SameTurn ((d.push.dmg.filter (fun k => !decide (k ∈ now))).foldl
      (fun (d : Dev) k => if d.patchFree k then d else d.captureSkip k) d) :=
    (SameTurn.refl d).foldl (fun _ _ h => h.skipIf SameTurn.captureSkip) _
  refine ⟨skipped.turn, skipped.content, fun k hk => ?_, rfl, rfl, rfl, rfl⟩
  simp [Tab.get?_foldl_set, mem_of_mem_sortNat hk]

/-- The latches of a content are in force in the turn that it began in (R51). -/
theorem Dev.latchAll_turn_content (d : Dev) (waits : List Owed) (content : Nat) :
    (d.latchAll waits content).time.turn = d.time.turn ∧ (d.latchAll waits content).comp.content = content := by
  unfold Dev.latchAll
  dsimp only
  generalize (if (d.clipsLatch waits content).adm? = admTrial then _ else _ : Tab Latch) = now
  have before : d.SameTurn (((d.clipsLatch waits content).cullAll.ingestLatched now).remoteLatched now) :=
    (SameTurn.refl d).clipsLatch.cullAll.ingestLatched.remoteLatched
  generalize (((d.clipsLatch waits content).cullAll.ingestLatched now).remoteLatched now) = e at before
  have noted (e : Dev) (old : Tab Latch) :
      e.SameTurn (if e.adm? = admTrial then e else now.foldl (fun d x => d.noteLatch old x) e) :=
    (SameTurn.refl e).skipIf fun h => h.foldl (fun _ _ h => h.noteLatch) _
  exact ⟨(noted _ _).turn.trans before.turn, (noted _ _).content⟩

end Sys2Proof.Machine
end

section
namespace Sys2Proof.Machine

/-! ### The opening -/

/-- What the opening of the compose window does with the content it begins, the changes being decided: `now` are applied,
`waits` are left for a later content and `sw` are the store slots that switch (R51). -/
def Dev.openContent (sw : List (Nat × Nat)) (ready : Bool) (now waits : List Owed) (content : Nat) (d : Dev) : Dev :=
  let d := ((now.foldl Dev.changeDamage d).latchAll waits content).storeDamage sw
  let d := d.brightness.calLoadEnds.captureDamages.damageLatch.static.handOut ready
  { d with sched := { d.sched with phase := .compose } }

/-- What the opening completes, and what it releases: the changes in force, and the commands that waited for the end of QUIET. -/
def Dev.openEnd (now : List Owed) (content : Nat) (d : Dev) : Dev :=
  ((d.settle (fun o => decide (o ∈ now)) stOk (some content)).put R.BLT_QUIET_HOLD 0).plFire

/-- Device time at the opening of the window. -/
def Dev.openClock (d : Dev) : Dev := d.advance (d.sched.presNow + d.sched.quiet * perUs - d.time.now)

/-- The device of an opening window once what was announced or is due is in force, before the waiting entries are decided. -/
def Dev.openDue (d : Dev) : List (Nat × Nat) × Dev :=
  d.openClock.announce.geometryDue.profileApply.storeSwitch

/-- The state in which an opening window begins its content. -/
def State.openReady (s : State) : State := ({ s with dev := s.dev.openDue.2.recomputeAll } : State).decideWaiting

theorem State.windowOpen_eq (s : State) :
    s.windowOpen = s.openReady.upd fun d =>
      let x := d.splitChanges s.dev.openClock.pip.rebuild.isEmpty d.q.owed []
      (d.openContent s.dev.openDue.1 s.dev.openClock.pip.rebuild.isEmpty x.1 x.2 (d.time.turn + 1)).openEnd x.1 (d.time.turn + 1) := by
  unfold State.windowOpen State.openReady
  rfl

theorem State.openReady_sameTurn (s : State) : s.SameTurn s.openReady := by
  have clock (units : Nat) : s.dev.SameTurn (s.dev.advance units) := ⟨rfl, rfl, rfl, rfl⟩
  exact ((SameTurn.refl s).setDev (clock _).announce.geometryDue.profileApply.storeSwitch.recomputeAll).decideWaiting

theorem Dev.Latched.setSched {turn content : Nat} {d : Dev} {x : SchedSt} (h : d.Latched turn content) :
    Dev.Latched turn content { d with sched := x } :=
  ⟨h.turn, h.content, h.inflight, h.cut, h.acked, h.left, h.fmap⟩

/-- A content begun in a turn is latched, and composing has begun. -/
theorem Dev.openContent_latched (d : Dev) (sw : List (Nat × Nat)) (ready : Bool) (now waits : List Owed) (content : Nat) :
    (d.openContent sw ready now waits content).Latched d.time.turn content ∧
      (d.openContent sw ready now waits content).sched.phase = .compose := by
  have changed : d.SameTurn (now.foldl Dev.changeDamage d) := (SameTurn.refl d).foldl (fun _ _ h => h.changeDamage) _
  obtain ⟨turn, begun⟩ := (now.foldl Dev.changeDamage d).latchAll_turn_content waits content
  have marked := (SameTurn.refl ((now.foldl Dev.changeDamage d).latchAll waits content)).storeDamage (sw := sw)
    |>.brightness.calLoadEnds.captureDamages
  have latched := Dev.latched_damageLatch
    (((now.foldl Dev.changeDamage d).latchAll waits content).storeDamage sw).brightness.calLoadEnds.captureDamages
  rw [marked.turn.trans (turn.trans changed.turn), marked.content.trans begun] at latched
  have shown := latched.of_sameTurn ((SameTurn.refl _).static.handOut (ready := ready))
  unfold Dev.openContent
  exact ⟨shown.setSched, rfl⟩

theorem Dev.openEnd_sameTurn (d : Dev) (now : List Owed) (content : Nat) : d.SameTurn (d.openEnd now content) :=
  (SameTurn.refl d).settle.put.plFire

/-- No blit waits for the end of QUIET in the compose window. -/
theorem Dev.openEnd_quietHold (d : Dev) (now : List Owed) (content : Nat) : (d.openEnd now content).get R.BLT_QUIET_HOLD = 0 := by
  unfold Dev.openEnd
  generalize d.settle (fun o => decide (o ∈ now)) stOk (some content) = e
  rw [(Spares.plFire (.refl (e.put R.BLT_QUIET_HOLD 0))).1 R.BLT_QUIET_HOLD (by decide)]
  exact Dev.get_put_same e _ _

/-- The opening of the compose window latches the content of the next turn (R51, R212, R396). -/
theorem State.windowOpen_latched (s : State) :
    s.windowOpen.dev.Latched s.dev.time.turn (s.dev.time.turn + 1) ∧ s.windowOpen.dev.sched.phase = .compose ∧
      s.windowOpen.dev.get R.BLT_QUIET_HOLD = 0 ∧ s.windowOpen.pending = s.pending := by
  obtain ⟨ready, hpending⟩ := s.openReady_sameTurn
  rw [s.windowOpen_eq, State.upd_dev, State.upd_pending]
  dsimp only
  generalize s.openReady.dev.splitChanges s.dev.openClock.pip.rebuild.isEmpty s.openReady.dev.q.owed [] = x
  rw [ready.turn]
  obtain ⟨latched, phase⟩ :=
    s.openReady.dev.openContent_latched s.dev.openDue.1 s.dev.openClock.pip.rebuild.isEmpty x.1 x.2 (s.dev.time.turn + 1)
  rw [ready.turn] at latched
  have ends := Dev.openEnd_sameTurn
    (s.openReady.dev.openContent s.dev.openDue.1 s.dev.openClock.pip.rebuild.isEmpty x.1 x.2 (s.dev.time.turn + 1)) x.1
    (s.dev.time.turn + 1)
  exact ⟨latched.of_sameTurn ends, ends.phase.trans phase, Dev.openEnd_quietHold .., hpending⟩

end Sys2Proof.Machine
end

section
/-! SUPPORT. What the work of QUIET leaves alone at every step: the turn and its phase, what is shown, and `PRES_TURN`. -/

namespace Sys2Proof.Machine

/-! ### Registers reset and copied -/

theorem Dev.get_eq_of_get? {d e : Dev} {f : Fld} (h : Tab.get? e.regs f.key = Tab.get? d.regs f.key) : e.get f = d.get f := by
  unfold Dev.get Tab.getD
  rw [h]

/-- A field outside a range that is reset keeps its value. -/
theorem Dev.get_resetRegs_ne (d : Dev) (lo hi : Nat) (f : Fld) (h : f.key < lo * 64 ∨ hi * 64 ≤ f.key) :
    (d.resetRegs lo hi).get f = d.get f := by
  have outside : (decide (lo * 64 ≤ f.key) && decide (f.key < hi * 64)) = false := by
    rw [← Bool.not_eq_true, Bool.and_eq_true, decide_eq_true_eq, decide_eq_true_eq]
    omega
  exact get_eq_of_get? (Tab.get?_drop_ne d.regs (fun k => decide (lo * 64 ≤ k) && decide (k < hi * 64)) f.key outside)

/-- Steps that keep what is read at a key keep it together. -/
theorem Tab.get?_foldr {α β : Type} {f : β → Tab α → Tab α} {k : Nat} (hf : ∀ x t, Tab.get? (f x t) k = Tab.get? t k)
    (xs : List β) (t : Tab α) : Tab.get? (xs.foldr f t) k = Tab.get? t k := by
  induction xs with
  | nil => rfl
  | cons x xs ih => exact (hf x _).trans ih

/-- A counter's holding register lies among the holding registers (R740). -/
theorem isHold_of_holdOf {a h : Nat} (hh : holdOf a = some h) : isHold h = true := by
  obtain ⟨r, hr, hhold⟩ := List.exists_of_findSome?_eq_some hh
  unfold SnapRow.hold? at hhold
  split_ifs at hhold with hlow
  refine List.any_eq_true.2 ⟨r, hr, ?_⟩
  split at hhold
  next o hdims =>
    split_ifs at hhold with ho
    obtain rfl := Option.some.inj hhold
    simp [hdims, ho]
  next => cases hhold

/-- A snapshot changes holding registers alone (R740). -/
theorem Dev.get_copyCounters_ne (d : Dev) (f : Fld) (h : isHold (f.key / 64) = false) : d.copyCounters.get f = d.get f := by
  unfold Dev.copyCounters
  refine get_eq_of_get? ((Tab.get?_foldr (fun p t => ?_) d.regs _).trans (Tab.get?_drop_ne d.regs (fun k => isHold (k / 64)) _ h))
  split
  next a ha =>
    split_ifs at ha
    refine Tab.get?_set_ne _ _ _ _ fun hk => ?_
    rw [hk, Nat.mul_div_cancel _ (by decide), isHold_of_holdOf ha] at h
    cases h
  next => rfl

/-! ### What is shown -/

/-- e stands in the turn and phase of d and shows the same: no patch waits, and `PRES_TURN` is as it was. -/
structure Dev.SameShow (d e : Dev) : Prop where
  turn : e.time.turn = d.time.turn
  phase : e.sched.phase = d.sched.phase
  st : e.push.st = d.push.st
  shown : e.push.shown = d.push.shown
  latched : d.push.latched = [] → e.push.latched = []
  buf : (∀ n, d.buf n = []) → ∀ n, e.buf n = []
  presTurn : e.get R.PUSH_PRES_TURN = d.get R.PUSH_PRES_TURN

namespace Dev.SameShow

variable {d e : Dev}

theorem refl (d : Dev) : d.SameShow d := ⟨rfl, rfl, rfl, rfl, id, id, rfl⟩

theorem trans {c : Dev} (h : d.SameShow e) (k : e.SameShow c) : d.SameShow c :=
  ⟨k.turn.trans h.turn, k.phase.trans h.phase, k.st.trans h.st, k.shown.trans h.shown, k.latched ∘ h.latched, k.buf ∘ h.buf,
    k.presTurn.trans h.presTurn⟩

/-- A change of other parts. -/
theorem only {l : List Part} {c : Dev} (h : d.SameShow e) (k : e.Spares l c)
    (hl : Part.time ∉ l ∧ Part.sched ∉ l ∧ Part.push ∉ l := by decide) : d.SameShow c := by
  obtain ⟨htime, hsched, hpush⟩ := hl
  have same {p : Part} (hp : p ∉ l) := k.2 p hp
  have e1 : c.time = e.time := same htime
  have e2 : c.sched = e.sched := same hsched
  have e3 : c.push = e.push := same hpush
  exact h.trans ⟨by rw [e1], by rw [e2], by rw [e3], by rw [e3], by rw [e3]; exact id,
    by unfold Dev.buf; rw [e3]; exact id, k.1 _ (by decide)⟩

/-- Registers alone change, and not `PRES_TURN`. -/
theorem setRegs {t : Tab Nat} (h : d.SameShow e)
    (ht : ({ e with regs := t } : Dev).get R.PUSH_PRES_TURN = e.get R.PUSH_PRES_TURN) :
    d.SameShow { e with regs := t } := h.trans ⟨rfl, rfl, rfl, rfl, id, id, ht⟩

theorem put {f : Fld} {v : Nat} (h : d.SameShow e) (hf : spare f.key = true := by decide) : d.SameShow (e.put f v) :=
  h.only (Spares.put (l := []) (.refl e) hf)

theorem flag {f : Fld} (h : d.SameShow e) (hf : spare f.key = true := by decide) : d.SameShow (e.flag f) := h.put hf
theorem bump {f : Fld} {n : Nat} (h : d.SameShow e) (hf : spare f.key = true := by decide) : d.SameShow (e.bump f n) := h.put hf
theorem putMap {f : Nat → Fld} {i : Nat} {b : Bool} (h : d.SameShow e) (hf : spare (f (i / 32)).key = true) :
    d.SameShow (e.putMap f i b) := h.put hf
theorem raiseD {n x : Nat} (h : d.SameShow e) : d.SameShow (e.raiseD n x) :=
  h.only (Spares.noted (l := notes) (Noting.raiseD_any e n x))
theorem raise {n : Nat} (h : d.SameShow e) : d.SameShow (e.raise n) := h.raiseD
theorem flagRaise {f : Fld} {n : Nat} (h : d.SameShow e) (hf : spare f.key = true := by decide) : d.SameShow (e.flagRaise f n) :=
  (h.flag hf).raiseD
theorem ledger {r : LedReq} (h : d.SameShow e) : d.SameShow (e.ledger r) := h.only (Spares.noted (l := notes) (Noting.ledger e r))

/-! ### Changes of a part -/

theorem setMem {x : MemSt} (h : d.SameShow e) : d.SameShow { e with mem := x } := h.trans ⟨rfl, rfl, rfl, rfl, id, id, rfl⟩
theorem setBank {x : BankSt} (h : d.SameShow e) : d.SameShow { e with bank := x } := h.trans ⟨rfl, rfl, rfl, rfl, id, id, rfl⟩
theorem setSnk {x : SnkSt} (h : d.SameShow e) : d.SameShow { e with snk := x } := h.trans ⟨rfl, rfl, rfl, rfl, id, id, rfl⟩
theorem setAcc {x : AccSt} (h : d.SameShow e) : d.SameShow { e with acc := x } := h.trans ⟨rfl, rfl, rfl, rfl, id, id, rfl⟩

theorem setTime {x : TimeSt} (h : d.SameShow e) (hx : x.turn = e.time.turn := by rfl) : d.SameShow { e with time := x } :=
  h.trans ⟨hx, rfl, rfl, rfl, id, id, rfl⟩

/-- What is shown, what is latched and the buffers are one part of the push state. -/
theorem setPush {x : PushSt} (h : d.SameShow e) (hst : x.st = e.push.st := by rfl) (hshown : x.shown = e.push.shown := by rfl)
    (hlatched : x.latched = e.push.latched := by rfl) (hbuf : x.buf = e.push.buf := by rfl) : d.SameShow { e with push := x } :=
  h.trans ⟨rfl, rfl, hst, hshown, fun k => hlatched.trans k, fun k n => by unfold Dev.buf at k ⊢; rw [hbuf]; exact k n, rfl⟩

/-! ### Conditions and loops -/

theorem ite {p : Prop} {_ : Decidable p} {x y : Dev} (h : d.SameShow x) (k : d.SameShow y) :
    d.SameShow (if p then x else y) := by split_ifs <;> assumption

theorem when {p : Prop} {_ : Decidable p} {x : Dev} (h : d.SameShow e) (hx : d.SameShow e → d.SameShow x) :
    d.SameShow (if p then x else e) := ite (hx h) h

theorem skipIf {p : Prop} {_ : Decidable p} {x : Dev} (h : d.SameShow e) (hx : d.SameShow e → d.SameShow x) :
    d.SameShow (if p then e else x) := ite h (hx h)

theorem foldl {α : Type} {f : Dev → α → Dev} (h : d.SameShow e) (hf : ∀ (e : Dev) (x : α), d.SameShow e → d.SameShow (f e x)) :
    ∀ xs : List α, d.SameShow (xs.foldl f e) := by
  intro xs
  induction xs generalizing e with
  | nil => exact h
  | cons x xs ih => exact ih (hf e x h)

/-- A range of registers reset that does not hold `PRES_TURN`. -/
theorem resetRegs {lo hi : Nat} (h : d.SameShow e) (hr : 0x800038 < lo ∨ hi ≤ 0x800038) : d.SameShow (e.resetRegs lo hi) :=
  h.setRegs (get_resetRegs_ne e lo hi _ (by simp only [R.PUSH_PRES_TURN, Fld.key]; omega))

/-! ### The work of QUIET -/

theorem plShot {i : Nat} (h : d.SameShow e) : d.SameShow (e.plShot i) :=
  (((h.setPush).put (spare_iff.2 (by simp only [R.PUSH_PL_FIRE_TURN, Fld.key]; omega))).raise).only (Spares.blitFire (.refl _))

theorem plFire (h : d.SameShow e) : d.SameShow e.plFire := h.skipIf fun h => h.foldl (fun _ _ h => h.when plShot) _

theorem retireBlock {line : Nat} (h : d.SameShow e) : d.SameShow (e.retireBlock line) := h.bump.bump.flag.raise.ledger

theorem bankerRestart {trial : Bool} (h : d.SameShow e) : d.SameShow (e.bankerRestart trial) :=
  h.skipIf fun h => h.setBank.resetRegs (by decide)

theorem activateNow (h : d.SameShow e) : d.SameShow e.activateNow := h.skipIf fun h => h.skipIf bankerRestart

theorem commitTxn {t : Txn} (h : d.SameShow e) : d.SameShow (e.commitTxn t) := h.only (Spares.commitTxn (.refl e))

theorem journalRegs (h : d.SameShow e) : d.SameShow e.journalRegs := h.only (Spares.journalRegs (.refl e))

theorem journalCommit (h : d.SameShow e) : d.SameShow e.journalCommit := by
  unfold Dev.journalCommit
  refine h.skipIf fun h => ?_
  split
  · exact h.activateNow
  · refine (journalRegs ?_).activateNow
    split <;> exact h.commitTxn.setBank

theorem retrainStart (h : d.SameShow e) : d.SameShow e.retrainStart := by
  unfold Dev.retrainStart
  split
  · exact h
  · exact (h.put (spare_iff.2 (by simp only [R.STK_STATE, Fld.key]; omega))).setMem

/-- The registers of a synthesizer are its own. -/
theorem putSyn {s st : Nat} (h : d.SameShow e) : d.SameShow (e.putSyn s st) :=
  ((h.put (spare_iff.2 (by simp only [R.SYNS_STATE, Fld.key]; omega))).put
    (spare_iff.2 (by simp only [R.SYNS_GATED, Fld.key]; omega))).putMap
    (spare_iff.2 (by simp only [R.SYN_LOCKED_MAP, Fld.key]; omega))

theorem startHop {s target : Nat} {reband : Bool} (h : d.SameShow e) : d.SameShow (e.startHop s target reband) :=
  h.setTime |> fun h => ite h.putSyn (ite h.putSyn h.putSyn)

theorem rebands (h : d.SameShow e) : d.SameShow e.rebands := h.foldl (fun _ _ h => h.when startHop) _

theorem refModeHops (h : d.SameShow e) : d.SameShow e.refModeHops :=
  h.setTime.foldl (fun _ _ h => (h.put (spare_iff.2 (by simp only [R.SYNS_REF_MODE, Fld.key]; omega))).startHop) _

end Dev.SameShow
end Sys2Proof.Machine
end

section
namespace Sys2Proof.Machine
namespace Dev.SameShow

variable {d e : Dev}

/-! ### A domain switched -/

theorem putDom {j : Nat} {b : Bool} (h : d.SameShow e) : d.SameShow (e.putDom j b) :=
  h.putMap (spare_iff.2 (by simp only [R.PWR_DOM_ON, Fld.key]; omega))

theorem putPort {s st : Nat} (h : d.SameShow e) : d.SameShow (e.putPort s st) :=
  h.put (spare_iff.2 (by simp only [R.SNK_STATE, Fld.key]; omega))

theorem portUp {s : Nat} (h : d.SameShow e) : d.SameShow (e.portUp s) := h.when putPort

theorem blitRings (h : d.SameShow e) : d.SameShow e.blitRings := h.put

theorem blitReset (h : d.SameShow e) : d.SameShow e.blitReset := by
  unfold Dev.blitReset
  refine blitRings (put (foldl (setAcc (resetRegs h (by decide))) (fun e p h => ?_) _))
  exact ((h.put (spare_iff.2 (by simp only [R.BCH_ERR, Fld.key]; omega))).put
    (spare_iff.2 (by simp only [R.BCH_WAIT_TO, Fld.key]; omega))).put (spare_iff.2 (by simp only [R.BCH_POISON, Fld.key]; omega))

/-- Each domain's registers lie in a block of their own, and none in that of the turn. -/
theorem domReset {j : Nat} (h : d.SameShow e) : d.SameShow (e.domReset j) := by
  unfold Dev.domReset
  split_ifs
  · exact h.blitReset
  · exact h.resetRegs (by omega)
  · exact (h.resetRegs (by omega)).resetRegs (by omega)
  · exact h.resetRegs (by omega)
  · exact (h.resetRegs (by omega)).resetRegs (by omega)
  · exact h

theorem domLocks {j : Nat} (h : d.SameShow e) : d.SameShow (e.domLocks j) := by
  unfold Dev.domLocks
  split
  · exact h.putSyn
  · exact h

theorem domUp {j : Nat} (h : d.SameShow e) : d.SameShow (e.domUp j) :=
  h.domReset.putDom.domLocks.when fun h => h.foldl (fun _ _ h => h.portUp) _

theorem dropFlight {n : Nat} {f : Flight} (h : d.SameShow e) : d.SameShow (e.dropFlight n f) :=
  h.setSnk.put (spare_iff.2 (by simp only [R.PSN_RETRY_OCC, Fld.key]; omega))

theorem leaveOut {k : Nat} (h : d.SameShow e) : d.SameShow (e.leaveOut k) := h.skipIf fun h => h.setPush

/-- A buffer put again, and empty if it was. -/
theorem putBuf {s : Nat} {l : List BufPatch} (h : d.SameShow e) (hl : e.buf s = [] → l = []) : d.SameShow (e.putBuf s l) := by
  refine put (h.trans ⟨rfl, rfl, rfl, rfl, id, fun k n => ?_, rfl⟩) (spare_iff.2 (by simp only [R.PSN_OCC, Fld.key]; omega))
  by_cases hn : n = s
  · rw [hn]
    exact (Tab.getD_set_same ..).trans (hl (k s))
  · exact (Tab.getD_set_ne _ _ _ _ _ hn).trans (k n)

/-- Awaited ECHOs forgotten. -/
theorem setAwaits {x : Tab Nat} (h : d.SameShow e) : d.SameShow { e with push := { e.push with awaits := x } } := h.setPush

theorem dropSquares {s k : Nat} (h : d.SameShow e) : d.SameShow (e.dropSquares s k) := by
  unfold Dev.dropSquares
  extract_lets mine flown emptied left _ awaited tx cfg _ dropped
  have hflown : d.SameShow flown := h.foldl (fun _ _ h => h.foldl (fun _ _ h => h.dropFlight) _) _
  have hemptied : d.SameShow emptied := hflown.putBuf fun h => by rw [h]; rfl
  have hleft : d.SameShow left := (hemptied.foldl (fun _ _ h => h.leaveOut) _).plFire
  have hdropped : d.SameShow dropped := hleft.setAwaits.setSnk
  exact hdropped.skipIf setSnk

theorem portDown {s : Nat} (h : d.SameShow e) : d.SameShow (e.portDown s) := h.dropSquares.setSnk.putPort

theorem domDown {j : Nat} (h : d.SameShow e) : d.SameShow (e.domDown j) := by
  unfold Dev.domDown
  extract_lets down off
  have hdown : d.SameShow down := h.when fun h => h.foldl (fun _ _ h => h.portDown) _
  refine putDom ?_
  show d.SameShow off
  unfold off
  split
  · exact hdown.putSyn
  · exact hdown

theorem domSwitch (h : d.SameShow e) : d.SameShow e.domSwitch := by
  unfold Dev.domSwitch
  extract_lets counted
  have hcounted {x : Dev} (h : d.SameShow x) : d.SameShow (counted x) := h.bump.raise
  split
  · exact hcounted h.domUp
  · split
    · exact hcounted h.domDown
    · exact h

theorem quietTasks {badLine : Option Nat} (h : d.SameShow e) : d.SameShow (e.quietTasks badLine) := by
  unfold Dev.quietTasks
  extract_lets retired
  have hretired : d.SameShow retired := by
    unfold retired
    split
    · exact h.when retireBlock
    · exact h
  exact hretired.journalCommit.retrainStart.rebands.refModeHops.domSwitch

/-! ### The end of the instant -/

theorem cmdDone (h : d.SameShow e) : d.SameShow e.cmdDone := h.put.flagRaise

theorem applyStep {delta : Int} {c : Bool} (h : d.SameShow e) : d.SameShow (e.applyStep delta c) := by
  unfold Dev.applyStep
  extract_lets jump dev _ moved counted
  have hmoved : d.SameShow moved := h.setTime
  have hcounted : d.SameShow counted := hmoved.bump.flagRaise
  exact ite (hcounted.when cmdDone) hcounted.setTime

theorem applyWaitingStep (h : d.SameShow e) : d.SameShow e.applyWaitingStep := by
  unfold Dev.applyWaitingStep
  split
  · exact h.applyStep
  · exact h

theorem blitPresent (h : d.SameShow e) : d.SameShow e.blitPresent := by
  unfold Dev.blitPresent
  extract_lets ended
  have hended : d.SameShow ended := h.foldl (fun e _ h => h.when fun h => h.only (Spares.blitWaitEnds (.refl e))) _
  exact hended.when fun h => h.setRegs (get_put_ne ended _ _ _ (by decide))

theorem snapshot (h : d.SameShow e) : d.SameShow e.snapshot := by
  refine ite h.flag ?_
  have hcopied : d.SameShow e.copyCounters := h.setRegs (e.get_copyCounters_ne _ (by decide))
  exact hcopied.put.put.put.put.put

theorem autoSnap (h : d.SameShow e) : d.SameShow e.autoSnap := h.when snapshot

theorem sendTurn (h : d.SameShow e) : d.SameShow e.sendTurn := h.when fun h => h.only (Spares.sendTable (.refl e))

end Dev.SameShow
end Sys2Proof.Machine
end

section
/-! SUPPORT. What every flip map's patches show after the present instant (R415, R433). -/

namespace Sys2Proof.Machine

/-- A patch shows the codes of checksum c, and is to be verified (R433). -/
def Dev.Shows (d : Dev) (k c : Nat) : Prop := Tab.get? d.push.shown k = some c ∧ Tab.get? d.push.st k = some 2

theorem Dev.SameShow.shows {d e : Dev} (h : d.SameShow e) {k c : Nat} (hk : d.Shows k c) : e.Shows k c := by
  unfold Dev.Shows
  rw [h.shown, h.st]
  exact hk

/-! ### One patch -/

theorem Dev.flip_of_pushed {d : Dev} {k c : Nat} (h : Tab.get? d.push.pushed k = some c) :
    (d.flip k).push.shown = Tab.set d.push.shown k c ∧ (d.flip k).push.st = Tab.set d.push.st k 2 := by
  unfold Dev.flip
  rw [h]
  exact ⟨rfl, rfl⟩

theorem Dev.flip_of_not_pushed {d : Dev} {k : Nat} (h : Tab.get? d.push.pushed k = none) : d.flip k = d := by
  unfold Dev.flip
  rw [h]

theorem Dev.flip_pushed (d : Dev) (k : Nat) : (d.flip k).push.pushed = d.push.pushed := by
  unfold Dev.flip
  split <;> rfl

theorem Dev.Spares.flip (d : Dev) (k : Nat) : d.Spares [.push] (d.flip k) := by
  unfold Dev.flip
  split
  · exact refl d
  · exact (setPush (refl d)).bump (spare_iff.2 (by simp only [R.PSN_PUSH_PATCHES, Fld.key]; omega))

theorem Dev.flip_shows_same {d : Dev} {k c : Nat} (h : Tab.get? d.push.pushed k = some c) : (d.flip k).Shows k c := by
  obtain ⟨hshown, hst⟩ := flip_of_pushed h
  unfold Dev.Shows
  rw [hshown, hst]
  exact ⟨Tab.get?_set_same .., Tab.get?_set_same ..⟩

theorem Dev.flip_shows_ne {d : Dev} {k j c : Nat} (hj : k ≠ j) (h : d.Shows k c) : (d.flip j).Shows k c := by
  cases hpushed : Tab.get? d.push.pushed j with
  | none => exact (flip_of_not_pushed hpushed).symm ▸ h
  | some b =>
    obtain ⟨hshown, hst⟩ := flip_of_pushed hpushed
    unfold Dev.Shows
    rw [hshown, hst, Tab.get?_set_ne _ _ _ _ hj, Tab.get?_set_ne _ _ _ _ hj]
    exact h

/-! ### Every patch -/

/-- Patches flipped in turn show what was pushed for them. -/
theorem Dev.flips_show {k c : Nat} (flips : List Nat) (d : Dev) (hpushed : Tab.get? d.push.pushed k = some c)
    (h : k ∈ flips ∨ d.Shows k c) : (flips.foldl Dev.flip d).Shows k c := by
  induction flips generalizing d with
  | nil => exact h.resolve_left (List.not_mem_nil)
  | cons j flips ih =>
    refine ih (d.flip j) (by rw [d.flip_pushed]; exact hpushed) ?_
    by_cases hj : k = j
    · exact .inr (hj ▸ flip_shows_same (hj ▸ hpushed))
    · exact h.imp (fun h => (List.mem_cons.1 h).resolve_left hj) (flip_shows_ne hj)

/-- What is not flipped goes back to IDLE and is damaged again; what is flipped still shows its codes. -/
theorem Dev.unflipped_shows {d : Dev} {flips : List Nat} {k c : Nat} (hk : k ∈ flips) (h : d.Shows k c) :
    (d.unflipped flips).Shows k c := by
  unfold Dev.unflipped
  extract_lets back _ forgotten
  have hback : k ∉ back := by simp [back, hk]
  have hforgotten : forgotten.Shows k c :=
    ⟨h.1, (Tab.get?_drop_ne d.push.st (fun j => decide (j ∈ back)) k (by simpa using hback)).trans h.2⟩
  have marked (ks : List Nat) : forgotten.SameShow (forgotten.markAll ks) :=
    (SameShow.refl _).foldl (fun _ _ h => h.skipIf SameShow.setPush) ks
  exact (marked back).shows hforgotten

theorem Dev.Spares.unflipped (d : Dev) (flips : List Nat) : d.Spares [.push] (d.unflipped flips) :=
  (setPush (refl d)).foldl (fun e _ => ite (refl e) (setPush (refl e))) _

/-! ### The present instant -/

/-- A turn has been presented (R45, R415, R433): its number is in `PRES_TURN`, QUIET has begun, nothing of its content is left to
push, and every patch of its flip maps shows what was pushed for it. -/
structure Dev.Presented (turn : Nat) (flips : List Nat) (pushed : Tab Nat) (d : Dev) : Prop where
  time : d.time.turn = turn
  presTurn : d.get R.PUSH_PRES_TURN = turn % 2 ^ 64
  phase : d.sched.phase = .quiet
  latched : d.push.latched = []
  buf : ∀ n, d.buf n = []
  shows : ∀ k c, k ∈ flips → Tab.get? pushed k = some c → d.Shows k c

theorem Dev.Presented.of_sameShow {turn : Nat} {flips : List Nat} {pushed : Tab Nat} {d e : Dev} (h : d.Presented turn flips pushed)
    (k : d.SameShow e) : e.Presented turn flips pushed :=
  ⟨k.turn.trans h.time, k.presTurn.trans h.presTurn, k.phase.trans h.phase, k.latched h.latched, k.buf h.buf,
    fun i c hi hc => k.shows (h.shows i c hi hc)⟩

/-- Where no square was given up, forgetting what was given up changes no more. -/
theorem Dev.SameShow.givenUpTurns {d e : Dev} (h : d.SameShow e) (hgave : e.snk.gave = []) : d.SameShow e.givenUpTurns := by
  unfold Dev.givenUpTurns
  rw [hgave]
  exact h.setSnk

/-- Where no square was given up, flipping presents the turn. -/
theorem Dev.presented_flipAll {d : Dev} (hphase : d.sched.phase = .quiet) (hgave : d.snk.gave = [])
    (hpres : d.get R.PUSH_PRES_TURN = d.time.turn % 2 ^ 64) :
    d.flipAll.Presented d.time.turn (d.push.fmap.flatMap (·.2)) d.push.pushed := by
  unfold Dev.flipAll
  extract_lets flips content sent _ begun flipped _ ended cleared
  have shows (k c : Nat) (hk : k ∈ flips) (hc : Tab.get? d.push.pushed k = some c) : flipped.Shows k c :=
    unflipped_shows hk (flips_show flips begun hc (.inl hk))
  have spares : d.Spares [.push] ended :=
    Spares.setPush (Only.trans (Spares.foldl (Spares.setPush (Spares.refl d)) Spares.flip flips) (Spares.unflipped _ flips))
  have htime : ended.time = d.time := spares.2 .time (by decide)
  have hsched : ended.sched = d.sched := spares.2 .sched (by decide)
  have hended : ended.Presented d.time.turn flips d.push.pushed :=
    { time := by rw [htime]
      presTurn := (spares.1 _ (by decide)).trans hpres
      phase := by rw [hsched, hphase]
      latched := rfl
      buf := fun _ => rfl
      shows := shows }
  have hcleared : ended.Spares [] cleared := Spares.foldl (Spares.refl ended) (fun e s => Spares.ite (Spares.refl e)
    (Spares.put (Spares.refl e) (spare_iff.2 (by simp only [R.PSN_OCC, Fld.key]; omega)))) _
  have hsnk : cleared.snk = d.snk := (hcleared.2 .snk (by decide)).trans (spares.2 .snk (by decide))
  exact hended.of_sameShow (((SameShow.refl ended).only hcleared).givenUpTurns (by rw [hsnk, hgave]))

/-! ### What comes before the flips -/

/-- The turn that a present instant begins: the counter advances, but stays at the first instant after start-up. -/
def Dev.turnPresented (d : Dev) : Nat := if d.get R.PUSH_PRES_TURN = 0 then d.time.turn else d.time.turn + 1

theorem Dev.presentClock_turn (d : Dev) : d.presentClock.time.turn = d.turnPresented := by
  unfold Dev.presentClock Dev.turnPresented
  simp only [beq_iff_eq]
  rfl

/-- With no timing to take effect, what is shown are the flips. -/
theorem Dev.presentShow_of_timing {d : Dev} (h : d.sched.timing = none) : d.presentShow = d.presRegs.flipAll := by
  have due : d.timingDue = none := by
    unfold Dev.timingDue
    rw [h]
  unfold Dev.presentShow
  rw [due]

/-- A device that does not join a table keeps its turn. -/
theorem Dev.rejoin_of_resync {d : Dev} (h : d.sched.resync = none) : d.rejoin = d := by
  unfold Dev.rejoin
  rw [h]

theorem Dev.presRegs_presTurn (d : Dev) : d.presRegs.get R.PUSH_PRES_TURN = d.time.turn % 2 ^ 64 := by
  unfold Dev.presRegs
  rw [get_put_ne _ _ _ _ (by decide), get_put_ne _ _ _ _ (by decide), get_put_ne _ _ _ _ (by decide), get_put_same]
  rfl

/-- The present instant presents its turn (R45, R415, R433). -/
theorem Dev.presented_present {d : Dev} (bad : Option Nat) (htiming : d.sched.timing = none) (hresync : d.sched.resync = none)
    (hgave : d.snk.gave = []) : (d.present bad).Presented d.turnPresented (d.push.fmap.flatMap (·.2)) d.push.pushed := by
  have shown : d.presentClock.presRegs.flipAll.Presented d.presentClock.presRegs.time.turn
      (d.push.fmap.flatMap (·.2)) d.push.pushed :=
    presented_flipAll (d := d.presentClock.presRegs) rfl hgave d.presentClock.presRegs_presTurn
  have turn : d.presentClock.presRegs.time.turn = d.turnPresented := d.presentClock_turn
  rw [turn] at shown
  unfold Dev.present
  rw [rejoin_of_resync (d := d.presentClock) hresync, presentShow_of_timing (d := d.presentClock) htiming]
  exact shown.of_sameShow (SameShow.refl _).quietTasks.applyWaitingStep.blitPresent.autoSnap.sendTurn

end Sys2Proof.Machine
end

section
/-! HEADLINE. O28: the present instant advances the turn, and the compose window latches its content. -/

namespace Sys2Proof.Machine

theorem exec_presentInstant (bad : Option Nat) (s : State) :
    exec (.presentInstant bad) s = .next (s.upd fun d => if d.running then d.present bad else d) := rfl

theorem exec_composeWindowOpen (s : State) :
    exec .composeWindowOpen s = .next (if s.dev.running && s.dev.sched.phase == .quiet then s.windowOpen else s) := rfl

theorem exec_presentInstant_of_running {s : State} {bad : Option Nat} (h : s.dev.running = true) :
    exec (.presentInstant bad) s = .next (s.upd fun d => d.present bad) := by
  rw [exec_presentInstant]
  simp [State.upd, h]

theorem exec_presentInstant_of_not_running {s : State} {bad : Option Nat} (h : s.dev.running = false) :
    exec (.presentInstant bad) s = .next s := by
  rw [exec_presentInstant]
  simp [State.upd, h]

theorem exec_composeWindowOpen_of_quiet {s : State} (hrun : s.dev.running = true) (hphase : s.dev.sched.phase = .quiet) :
    exec .composeWindowOpen s = .next s.windowOpen := by
  simp [exec_composeWindowOpen, hrun, hphase]

theorem exec_composeWindowOpen_otherwise {s : State} (h : s.dev.running = false ∨ s.dev.sched.phase ≠ .quiet) :
    exec .composeWindowOpen s = .next s := by
  rw [exec_composeWindowOpen]
  rcases h with h | h <;> simp [h]

end Sys2Proof.Machine

open Sys2Proof Sys2Proof.Machine

/-- Settles O28: the flips of the present instant, and what the damage latch of the opening window sets, stand through the work
that follows them. -/
theorem theTurnAdvancesAndLatches : Obligations.TheTurnAdvancesAndLatches := by
  unfold Obligations.TheTurnAdvancesAndLatches
  refine ⟨fun s bad => ⟨exec_presentInstant_of_not_running, fun hrun htiming hresync hgave => ?_⟩,
    fun s => ⟨exec_composeWindowOpen_otherwise, fun hrun hphase => ?_⟩⟩
  · refine ⟨_, exec_presentInstant_of_running hrun, ?_⟩
    have presented := Dev.presented_present bad htiming hresync hgave
    beta_reduce
    rw [State.upd_dev, State.upd_hbm, State.upd_pending]
    generalize s.dev.present bad = d at presented ⊢
    exact ⟨presented.time, presented.presTurn, presented.phase, presented.latched, presented.buf, presented.shows, rfl, rfl⟩
  · obtain ⟨latched, compose, hold, pending⟩ := s.windowOpen_latched
    exact ⟨s.windowOpen, exec_composeWindowOpen_of_quiet hrun hphase, compose, latched.content, latched.turn, latched.inflight,
      latched.cut, latched.acked, latched.left, latched.fmap, hold, pending⟩
end

section
/-! SUPPORT. Frames built one operation after the other, and the start and the completion of a queue entry. -/

namespace Sys2Proof.Machine

namespace Dev.Only

variable {r : Nat → Bool} {l : List Part} {d e : Dev}

theorem put {f : Fld} {v : Nat} (h : d.Only r l e) (hf : r f.key = true) : d.Only r l (e.put f v) :=
  Sys2Proof.Only.trans h (Sys2Proof.Only.put e f v hf)

theorem flag {f : Fld} (h : d.Only r l e) (hf : r f.key = true) : d.Only r l (e.flag f) := h.put hf

theorem bump {f : Fld} {n : Nat} (h : d.Only r l e) (hf : r f.key = true) : d.Only r l (e.bump f n) := h.put hf

theorem putMap {f : Nat → Fld} {i : Nat} {b : Bool} (h : d.Only r l e) (hf : r (f (i / 32)).key = true) :
    d.Only r l (e.putMap f i b) := h.put hf

theorem send {m : OutMsg} (h : d.Only r l e) (hl : Part.out ∈ l := by decide) : d.Only r l (e.send m) :=
  Sys2Proof.Only.trans h (Sys2Proof.Only.send e m hl)

/-- What is noted: events raised, ledger entries made. -/
theorem note {x : Dev} (h : d.Only r l e) (k : e.Noted x) (hr : ∀ k, noteBlock k = true → r k = true)
    (hl : notes ⊆ l := by decide) : d.Only r l x :=
  Sys2Proof.Only.trans h (Sys2Proof.Only.mono k (fun k hk => by
    cases hn : noteBlock k
    · rfl
    · rw [hr k hn] at hk; cases hk) hl)

theorem ite {p : Prop} {_ : Decidable p} {x y : Dev} (h : d.Only r l x) (k : d.Only r l y) :
    d.Only r l (if p then x else y) := Sys2Proof.Only.ite h k

theorem when {p : Prop} {_ : Decidable p} {x : Dev} (h : d.Only r l e) (hx : d.Only r l e → d.Only r l x) :
    d.Only r l (if p then x else e) := ite (hx h) h

theorem skipIf {p : Prop} {_ : Decidable p} {x : Dev} (h : d.Only r l e) (hx : d.Only r l e → d.Only r l x) :
    d.Only r l (if p then e else x) := ite h (hx h)

theorem branch {p : Prop} {_ : Decidable p} {x y : Dev} (h : d.Only r l e) (hx : d.Only r l e → d.Only r l x)
    (hy : d.Only r l e → d.Only r l y) : d.Only r l (if p then x else y) := ite (hx h) (hy h)

theorem foldl {α : Type} {f : Dev → α → Dev} (h : d.Only r l e) (hf : ∀ (e : Dev) (x : α), d.Only r l e → d.Only r l (f e x)) :
    ∀ xs : List α, d.Only r l (xs.foldl f e) := by
  intro xs
  induction xs generalizing e with
  | nil => exact h
  | cons x xs ih => exact ih (hf e x h)

/-- A change of parts that the frame names. -/
theorem parts {x : Dev} (h : d.Only r l e) (hr : x.regs = e.regs) (hp : ∀ p, p ∉ l → p.same e x) : d.Only r l x :=
  Sys2Proof.Only.trans h (Sys2Proof.Only.parts hr hp)

theorem setQ {x : QSt} (h : d.Only r l e) (hl : Part.q ∈ l := by decide) : d.Only r l { e with q := x } :=
  h.parts rfl fun p hp => by
    cases p with
    | q => exact absurd hl hp
    | _ => rfl

theorem setCh {x : ChanSt} (h : d.Only r l e) (hl : Part.ch ∈ l := by decide) : d.Only r l { e with ch := x } :=
  h.parts rfl fun p hp => by
    cases p with
    | ch => exact absurd hl hp
    | _ => rfl

theorem setMem {x : MemSt} (h : d.Only r l e) (hl : Part.mem ∈ l := by decide) : d.Only r l { e with mem := x } :=
  h.parts rfl fun p hp => by
    cases p with
    | mem => exact absurd hl hp
    | _ => rfl

theorem setComp {x : CompSt} (h : d.Only r l e) (hl : Part.comp ∈ l := by decide) : d.Only r l { e with comp := x } :=
  h.parts rfl fun p hp => by
    cases p with
    | comp => exact absurd hl hp
    | _ => rfl

theorem modChan {cls i : Nat} {f : Chan → Chan} (h : d.Only r l e) (hl : Part.ch ∈ l := by decide) :
    d.Only r l (e.modChan cls i f) := h.setCh hl

theorem putChan {cls i : Nat} {c : Chan} (h : d.Only r l e) (hl : Part.ch ∈ l := by decide) :
    d.Only r l (e.putChan cls i c) := h.setCh hl

theorem create {cls i : Nat} {c : Chan} (h : d.Only r l e) (hl : Part.ch ∈ l := by decide) :
    d.Only r l (e.create cls i c).2 := (h.setCh hl).putChan hl

theorem owe {o : Owed} (h : d.Only r l e) (hl : Part.q ∈ l := by decide) : d.Only r l (e.owe o) := h.setQ hl

/-- A field outside the frame reads as before. -/
theorem get {f : Fld} (h : d.Only r l e) (hf : r f.key = false) : e.get f = d.get f := h.1 f hf

end Dev.Only

/-! ### Frames by the fields that they name -/

theorem regsOf_eq_true {l : List Fld} {k : Nat} : regsOf l k = true ↔ ∃ f ∈ l, f.key = k := by simp [regsOf]

theorem regsOf_eq_false {l : List Fld} {k : Nat} : regsOf l k = false ↔ ∀ f ∈ l, f.key ≠ k := by simp [regsOf]

theorem regsOf_of_mem {l : List Fld} {f : Fld} (h : f ∈ l) : regsOf l f.key = true := regsOf_eq_true.2 ⟨f, h, rfl⟩

theorem noteBlock_eq_true {k : Nat} : noteBlock k = true ↔ k / 0x4000000 = 1 ∨ k / 0x4000000 = 18 := by simp [noteBlock]

theorem noteBlock_eq_false {k : Nat} : noteBlock k = false ↔ k / 0x4000000 ≠ 1 ∧ k / 0x4000000 ≠ 18 := by simp [noteBlock]

/-- The fields that a command may change beside those of events and the ledger. -/
def orNote (l : List Fld) (k : Nat) : Bool := noteBlock k || regsOf l k

theorem orNote_of_mem {l : List Fld} {f : Fld} (h : f ∈ l) : orNote l f.key = true := by
  rw [orNote, regsOf_of_mem h, Bool.or_true]

theorem orNote_of_noteBlock {l : List Fld} (k : Nat) (h : noteBlock k = true) : orNote l k = true := by
  rw [orNote, h, Bool.true_or]

theorem orNote_eq_false {l : List Fld} {k : Nat} : orNote l k = false ↔ noteBlock k = false ∧ ∀ f ∈ l, f.key ≠ k := by
  simp [orNote, regsOf]

/-! ### The start of an entry -/

/-- The fields that the start of an entry of queue q changes. -/
def Dev.beginFields (d : Dev) (q : Nat) : List Fld := [qCI q, qSTATE q, qOUT q, R.QB_ENTRIES, R.CQ_RESV (d.queueRing q)]

/-- The fields that say where the completion of an entry of queue q lies and how it is stamped. -/
def Dev.ringFields (d : Dev) (q : Nat) : List Fld :=
  let c := d.queueRing q
  [qCQ q, qCTIME q, R.CQ_EN c, R.CQ_SIZE_LOG2 c, R.CQ_BASE_LO c, R.CQ_BASE_HI c, R.CQ_TAIL c, R.CQ_PHASE c]

/-- An entry that may start is taken. -/
theorem Dev.take_of_headStarts {d : Dev} {q slots : Nat} {e : List Byte} {admission : Bool}
    (h : d.headStarts q e slots admission = true) : d.take q e slots admission = .started (d.begun q e slots) := by
  simp only [Dev.headStarts, Bool.and_eq_true, Bool.not_eq_true', decide_eq_true_eq] at h
  obtain ⟨⟨⟨⟨⟨⟨hheld, hown⟩, hlo⟩, hhi⟩, hfit⟩, hlen⟩, hroom⟩ := h
  have hown' : (!isPq q && !tbit (byteAt e 0) 7) = false := by
    rw [← Bool.not_or, hown, Bool.not_true]
  have hheld' : d.entryHeld q (leAt e 4 4) admission = false := hheld
  simp only [entryLen] at hlo hhi hfit hlen
  have hframed : ¬(byteAt e 1 = 0 ∨ 16 < byteAt e 1) := by omega
  simp only [Dev.take, hheld', hown', Bool.or_self, Bool.false_eq_true, if_false, Nat.not_lt.2 hlen, Nat.not_lt.2 hroom,
    Nat.not_lt.2 hfit, decide_false, Bool.and_false, if_neg hframed]
  rfl

/-- An entry of the row's opcode that may start is begun and acted on. -/
theorem onEntryDev_of_headStarts {s : State} {q op slots : Nat} {e : List Byte} {admission : Bool} {act : Dev → Dev}
    (hq : q < 1032) (hop : entryOp e = op) (h : s.dev.headStarts q e slots admission = true) :
    onEntryDev q e op slots admission s act = .next (s.upd fun d => act (d.begun q e slots)) := by
  unfold onEntryDev onEntry
  rw [if_neg (by omega)]
  simp only [hop, if_true, Dev.take_of_headStarts h]
  rfl

theorem Dev.begun_only (d : Dev) (q : Nat) (e : List Byte) (slots : Nat) :
    d.Only (regsOf (d.beginFields q)) [.q, .out] (d.begun q e slots) := by
  have mem {f : Fld} (h : f ∈ d.beginFields q) : regsOf (d.beginFields q) f.key = true := regsOf_of_mem h
  have started := ((((Only.refl (regsOf (d.beginFields q)) [.q, .out] d).bump (n := 1)
    (mem (f := R.QB_ENTRIES) (by simp [beginFields]))).put (v := (d.bump R.QB_ENTRIES 1).get (qOUT q) + 1)
    (mem (f := qOUT q) (by simp [beginFields]))))
  unfold Dev.begun Dev.beginEntry
  refine Dev.Only.put (Dev.Only.setQ ?_) (mem (by simp [beginFields]))
  refine Dev.Only.skipIf ?_ fun h => h.send
  exact (started.put (mem (by simp [beginFields]))).put (mem (by simp [beginFields]))

/-- The start of an entry leaves alone where its completion lies and how it is stamped. -/
theorem Dev.beginFields_ringFields {d : Dev} {q : Nat} {f : Fld} (hf : f ∈ d.ringFields q) :
    regsOf (d.beginFields q) f.key = false := by
  simp only [ringFields, List.mem_cons, List.not_mem_nil, or_false] at hf
  simp only [regsOf, beginFields, List.any_cons, List.any_nil, Bool.or_false, Bool.or_eq_false_iff, beq_eq_false_iff_ne]
  rcases hf with rfl | rfl | rfl | rfl | rfl | rfl | rfl | rfl <;>
    simp only [qCQ, qCTIME, qCI, qSTATE, qOUT] <;> split_ifs <;>
    simp only [R.SQ_CQ, R.PQ_CQ, R.SQ_CTIME, R.PQ_CTIME, R.SQ_CI, R.PQ_PQ_CI, R.SQ_STATE, R.PQ_STATE, R.SQ_OUT, R.PQ_OUT,
      R.QB_ENTRIES, R.CQ_RESV, R.CQ_EN, R.CQ_SIZE_LOG2, R.CQ_BASE_LO, R.CQ_BASE_HI, R.CQ_TAIL, R.CQ_PHASE, Fld.key] <;> omega

/-- x agrees with d in where completions of queue q lie and how they are stamped. -/
structure Dev.SameRing (d x : Dev) (q : Nat) : Prop where
  fields : ∀ f ∈ d.ringFields q, x.get f = d.get f
  time : x.time = d.time

theorem Dev.SameRing.of_only {r : Nat → Bool} {l : List Part} {d x : Dev} {q : Nat} (h : d.Only r l x)
    (hr : ∀ f ∈ d.ringFields q, r f.key = false) (hl : Part.time ∉ l := by decide) : d.SameRing x q :=
  ⟨fun f hf => h.1 f (hr f hf), h.2 .time hl⟩

theorem Dev.SameRing.queueRing {d x : Dev} {q : Nat} (h : d.SameRing x q) : x.queueRing q = d.queueRing q := by
  rw [Dev.queueRing, Dev.queueRing, h.fields (qCQ q) (by simp [ringFields])]

theorem Dev.SameRing.trans {d x y : Dev} {q : Nat} (h : d.SameRing x q) (k : x.SameRing y q) : d.SameRing y q := by
  refine ⟨fun f hf => ?_, k.time.trans h.time⟩
  have hx : f ∈ x.ringFields q := by
    simp only [ringFields, h.queueRing]
    exact hf
  exact (k.fields f hx).trans (h.fields f hf)

/-- An entry that has completed where completions lie as they did before has completed there. -/
theorem Dev.SameRing.answered {d x y : Dev} {q handle st rs : Nat} {e : List Byte} (h : d.SameRing x q)
    (ha : x.answered y q e handle st rs) : d.answered y q e handle st rs := by
  have same (f : Fld) (hf : f ∈ d.ringFields q) : x.get f = d.get f := h.fields f hf
  simp only [ringFields, List.forall_mem_cons] at same
  obtain ⟨-, hctime, hen, hsize, hlo, hhi, htail, hphase, -⟩ := same
  unfold Dev.answered at ha ⊢
  simpa only [h.queueRing, Dev.nsec, Dev.devNs, h.time, hctime, hen, hsize, hlo, hhi, htail, hphase] using ha

theorem Dev.begun_sameRing (d : Dev) (q : Nat) (e : List Byte) (slots : Nat) : d.SameRing (d.begun q e slots) q :=
  .of_only (d.begun_only q e slots) fun _ hf => beginFields_ringFields hf

/-- Of a field that the start of an entry counts in, the start is a count. -/
theorem Dev.begun_get {d : Dev} {q slots : Nat} {e : List Byte} {f : Fld} (hci : f.key ≠ (qCI q).key)
    (hst : f.key ≠ (qSTATE q).key) (hresv : f.key ≠ (R.CQ_RESV (d.queueRing q)).key) :
    (d.begun q e slots).get f = ((d.bump R.QB_ENTRIES 1).put (qOUT q) ((d.bump R.QB_ENTRIES 1).get (qOUT q) + 1)).get f := by
  unfold Dev.begun Dev.beginEntry
  rw [Dev.get_put_ne _ _ _ _ hci]
  dsimp only
  split_ifs <;> exact (Dev.get_put_ne _ _ _ _ hst).trans (Dev.get_put_ne _ _ _ _ hresv)

theorem qOUT_ne_entries (q : Nat) : (qOUT q).key ≠ R.QB_ENTRIES.key := by
  unfold qOUT; split_ifs <;> simp only [R.SQ_OUT, R.PQ_OUT, R.QB_ENTRIES, Fld.key] <;> omega

theorem qOUT_ne_resv (q c : Nat) : (qOUT q).key ≠ (R.CQ_RESV c).key := by
  unfold qOUT; split_ifs <;> simp only [R.SQ_OUT, R.PQ_OUT, R.CQ_RESV, Fld.key] <;> omega

theorem qOUT_size (q : Nat) : (qOUT q).size = 2 ^ 8 := by unfold qOUT; split_ifs <;> rfl

/-- A started entry is counted as outstanding. -/
theorem Dev.begun_out (d : Dev) (q : Nat) (e : List Byte) (slots : Nat) :
    (d.begun q e slots).get (qOUT q) = (d.get (qOUT q) + 1) % 2 ^ 8 := by
  rw [begun_get ?_ ?_ (qOUT_ne_resv q _), Dev.get_put_same, qOUT_size, Dev.get_bump_ne _ _ _ _ (qOUT_ne_entries q)]
  · unfold qOUT qCI; split_ifs <;> simp only [R.SQ_OUT, R.PQ_OUT, R.SQ_CI, R.PQ_PQ_CI, Fld.key] <;> omega
  · unfold qOUT qSTATE; split_ifs <;> simp only [R.SQ_OUT, R.PQ_OUT, R.SQ_STATE, R.PQ_STATE, Fld.key] <;> omega

/-- A started entry is counted among the entries. -/
theorem Dev.begun_entries (d : Dev) (q : Nat) (e : List Byte) (slots : Nat) :
    (d.begun q e slots).get R.QB_ENTRIES = (d.get R.QB_ENTRIES + 1) % 2 ^ 64 := by
  rw [begun_get ?_ ?_ ?_, Dev.get_put_ne _ _ _ _ (qOUT_ne_entries q).symm, Dev.get_bump_same]
  · rfl
  · unfold qCI; split_ifs <;> simp only [R.SQ_CI, R.PQ_PQ_CI, R.QB_ENTRIES, Fld.key] <;> omega
  · unfold qSTATE; split_ifs <;> simp only [R.SQ_STATE, R.PQ_STATE, R.QB_ENTRIES, Fld.key] <;> omega
  · simp only [R.CQ_RESV, R.QB_ENTRIES, Fld.key]; omega

/-! ### The completion of an entry -/

/-- A completion written at the tail of its ring, and the tail moved on (R699). -/
def Dev.ringSent (d : Dev) (c : Nat) (m : Compl) : Dev :=
  let v := (d.get (R.CQ_TAIL c) + 1) % 2 ^ d.get (R.CQ_SIZE_LOG2 c)
  let e := (d.send (.hostWrite (ringFn c) (d.get (R.CQ_BASE_LO c) + d.get (R.CQ_BASE_HI c) * 2 ^ 32 + 16 * d.get (R.CQ_TAIL c))
    (m.bytes (d.get (R.CQ_PHASE c))))).put (R.CQ_TAIL c) v
  if v = 0 then e.put (R.CQ_PHASE c) (1 - d.get (R.CQ_PHASE c)) else e

/-- A completion is written, counted toward the ring's signal, and perhaps signalled (R704). -/
theorem Dev.ringWrite_cases (d : Dev) (c : Nat) (m : Compl) :
    ∃ x, d.ringWrite c m = { d.ringSent c m with q := x } ∨
      ∃ fn vec, d.ringWrite c m = ({ d.ringSent c m with q := x }).msi fn vec := by
  unfold Dev.ringWrite
  extract_lets size tail phase base sent stepped wrapped n
  split
  · exact ⟨_, .inr ⟨_, _, rfl⟩⟩
  · exact ⟨_, .inl rfl⟩

theorem Dev.ringSent_out (d : Dev) (c : Nat) (m : Compl) :
    (d.ringSent c m).out = .hostWrite (ringFn c) (d.get (R.CQ_BASE_LO c) + d.get (R.CQ_BASE_HI c) * 2 ^ 32 +
      16 * d.get (R.CQ_TAIL c)) (m.bytes (d.get (R.CQ_PHASE c))) :: d.out := by
  unfold Dev.ringSent
  dsimp only
  split <;> rfl

theorem Dev.ringSent_tail (d : Dev) (c : Nat) (m : Compl) :
    (d.ringSent c m).get (R.CQ_TAIL c) = (d.get (R.CQ_TAIL c) + 1) % 2 ^ d.get (R.CQ_SIZE_LOG2 c) % 2 ^ 16 := by
  have hphase : (R.CQ_TAIL c).key ≠ (R.CQ_PHASE c).key := by simp only [R.CQ_TAIL, R.CQ_PHASE, Fld.key]; omega
  unfold Dev.ringSent
  dsimp only
  split
  · exact (Dev.get_put_ne _ _ _ _ hphase).trans (Dev.get_put_same _ _ _)
  · exact Dev.get_put_same _ _ _

/-- Writing a completion moves its ring's tail on, and tells of it. -/
theorem Dev.Only.ringWrite {r : Nat → Bool} {l : List Part} {d e : Dev} {c : Nat} {m : Compl} (h : d.Only r l e)
    (htail : r (R.CQ_TAIL c).key = true) (hphase : r (R.CQ_PHASE c).key = true) (hr : ∀ k, noteBlock k = true → r k = true)
    (hl : Part.q ∈ l ∧ notes ⊆ l := by decide) : d.Only r l (e.ringWrite c m) := by
  obtain ⟨hq, hnotes⟩ := hl
  have sent : d.Only r l (e.ringSent c m) := ((h.send (hnotes (by decide))).put htail).when fun h => h.put hphase
  obtain ⟨x, heq | ⟨fn, vec, heq⟩⟩ := e.ringWrite_cases c m
  · exact heq ▸ sent.setQ hq
  · exact heq ▸ (sent.setQ hq).note (Noting.msi _ _ _) hr hnotes

/-- A signal takes back nothing that was sent. -/
theorem Dev.mem_out_msi {d : Dev} {fn vec : Nat} {m : OutMsg} (h : m ∈ d.out) : m ∈ (d.msi fn vec).out := by
  unfold Dev.msi
  split_ifs
  · exact h
  · exact h
  · exact List.mem_cons_of_mem _ h

/-- What a completion writes to its ring, and where the ring's tail lies then. -/
theorem Dev.ringWrite_tells (d : Dev) (c : Nat) (m : Compl) :
    OutMsg.hostWrite (ringFn c) (d.get (R.CQ_BASE_LO c) + d.get (R.CQ_BASE_HI c) * 2 ^ 32 + 16 * d.get (R.CQ_TAIL c))
        (m.bytes (d.get (R.CQ_PHASE c))) ∈ (d.ringWrite c m).out ∧
      (d.ringWrite c m).get (R.CQ_TAIL c) = (d.get (R.CQ_TAIL c) + 1) % 2 ^ d.get (R.CQ_SIZE_LOG2 c) % 2 ^ 16 := by
  have written := d.ringSent_out c m ▸ List.mem_cons_self ..
  have untold : noteBlock (R.CQ_TAIL c).key = false := by rw [noteBlock_eq_false]; simp only [R.CQ_TAIL, Fld.key]; omega
  obtain ⟨x, heq | ⟨fn, vec, heq⟩⟩ := d.ringWrite_cases c m
  · exact heq ▸ ⟨written, d.ringSent_tail c m⟩
  · exact heq ▸ ⟨mem_out_msi written, ((Noting.msi _ _ _).1 _ untold).trans (d.ringSent_tail c m)⟩

/-- The fields that a completion counts in. -/
def Dev.countFields (d : Dev) (q : Nat) : List Fld :=
  [R.QB_MALFORMED_CNT, R.QB_ABORT_CNT, R.QB_FLUSH_CNT, R.CQ_RESV (d.queueRing q)]

theorem Dev.countFields_ringFields {d : Dev} {q : Nat} {f : Fld} (hf : f ∈ d.ringFields q) :
    regsOf (d.countFields q) f.key = false := by
  simp only [ringFields, List.mem_cons, List.not_mem_nil, or_false] at hf
  simp only [regsOf, countFields, List.any_cons, List.any_nil, Bool.or_false, Bool.or_eq_false_iff, beq_eq_false_iff_ne]
  rcases hf with rfl | rfl | rfl | rfl | rfl | rfl | rfl | rfl
  · unfold qCQ; split_ifs <;>
      simp only [R.SQ_CQ, R.PQ_CQ, R.QB_MALFORMED_CNT, R.QB_ABORT_CNT, R.QB_FLUSH_CNT, R.CQ_RESV, Fld.key] <;> omega
  · unfold qCTIME; split_ifs <;>
      simp only [R.SQ_CTIME, R.PQ_CTIME, R.QB_MALFORMED_CNT, R.QB_ABORT_CNT, R.QB_FLUSH_CNT, R.CQ_RESV, Fld.key] <;> omega
  all_goals
    simp only [R.QB_MALFORMED_CNT, R.QB_ABORT_CNT, R.QB_FLUSH_CNT, R.CQ_RESV, R.CQ_EN, R.CQ_SIZE_LOG2, R.CQ_BASE_LO, R.CQ_BASE_HI,
      R.CQ_TAIL, R.CQ_PHASE, Fld.key]
    omega

/-- What a completion counts, and the reservation that it gives back. -/
def Dev.counted (d : Dev) (q st : Nat) : Dev :=
  (d.countStatus st).put (R.CQ_RESV (d.queueRing q)) ((d.countStatus st).get (R.CQ_RESV (d.queueRing q)) - 1)

theorem Dev.counted_only (d : Dev) (q st : Nat) : d.Only (regsOf (d.countFields q)) [] (d.counted q st) := by
  have start := Only.refl (regsOf (d.countFields q)) [] d
  have named : ∀ f ∈ d.countFields q, regsOf (d.countFields q) f.key = true := fun _ => regsOf_of_mem
  simp only [countFields, List.forall_mem_cons] at named
  obtain ⟨hmalformed, habort, hflush, hresv, -⟩ := named
  exact Dev.Only.put (.ite (start.bump hmalformed) (.ite (start.bump habort) (.ite (start.bump hflush) start))) hresv

/-- The counts of a completion leave alone where it lies and how it is stamped. -/
theorem Dev.counted_sameRing (d : Dev) (q st : Nat) : d.SameRing (d.counted q st) q :=
  .of_only (d.counted_only q st) fun _ hf => countFields_ringFields hf

/-- The completion of an entry that applies nothing, before its PHASE is known (R697). -/
def Dev.doneNow (d : Dev) (q tag handle st rs : Nat) : Compl :=
  if d.on (qCTIME q) then ⟨tag, st, true, false, handle, d.nsec, q, rs⟩
  else ⟨tag, st, false, false, handle, d.time.turn % 2 ^ 32, q, rs⟩

/-- Once its completion is posted, an entry is outstanding no more, and its queue may settle. -/
theorem Dev.complete_eq (d : Dev) (q tag handle st rs : Nat) :
    d.complete q tag handle st rs none =
      let e := (d.counted q st).postOwed (d.queueRing q) (d.doneNow q tag handle st rs)
      (e.put (qOUT q) (e.get (qOUT q) - 1)).queueSettle q := rfl

/-- The fields that the completion of an entry of queue q changes, beside those of events. -/
def Dev.doneFields (d : Dev) (q : Nat) : List Fld :=
  [qSTATE q, qOUT q, R.CQ_TAIL (d.queueRing q), R.CQ_PHASE (d.queueRing q), R.CQ_DROPPED (d.queueRing q)] ++ d.countFields q

theorem Dev.doneFields_subset (d : Dev) (q : Nat) : d.doneFields q ⊆ d.queueFields q := by
  intro f hf
  simp only [doneFields, countFields, List.cons_append, List.nil_append, List.mem_cons, List.not_mem_nil, or_false] at hf
  rcases hf with rfl | rfl | rfl | rfl | rfl | rfl | rfl | rfl | rfl <;> simp [queueFields]

/-- What a completion of an entry of queue q changes. -/
theorem Dev.complete_only (d : Dev) (q tag handle st rs : Nat) (applied : Option Nat) :
    d.Only (orNote (d.doneFields q)) (notes ++ [.q]) (d.complete q tag handle st rs applied) := by
  have named : ∀ f ∈ d.doneFields q, orNote (d.doneFields q) f.key = true := fun _ => orNote_of_mem
  have counted : d.Only (orNote (d.doneFields q)) (notes ++ [.q]) (d.counted q st) := by
    refine Sys2Proof.Only.mono (d.counted_only q st) (fun k hk => ?_) (by simp)
    exact regsOf_eq_false.2 fun f hf => (orNote_eq_false.1 hk).2 f (List.mem_append_right _ hf)
  simp only [doneFields, List.forall_mem_append, List.forall_mem_cons] at named
  obtain ⟨⟨hstate, hout, htail, hphase, hdropped, -⟩, -⟩ := named
  exact Dev.Only.when (Dev.Only.put (.ite (counted.flag hdropped) (counted.ringWrite htail hphase orNote_of_noteBlock)) hout)
    fun h => h.put hstate

/-- The end of an entry leaves alone what was sent and where the tail of its ring lies. -/
theorem Dev.settled_tells (x : Dev) (q c v : Nat) :
    ((x.put (qOUT q) v).queueSettle q).out = x.out ∧
      ((x.put (qOUT q) v).queueSettle q).get (R.CQ_TAIL c) = x.get (R.CQ_TAIL c) := by
  have hout : (R.CQ_TAIL c).key ≠ (qOUT q).key := by
    unfold qOUT; split_ifs <;> simp only [R.SQ_OUT, R.PQ_OUT, R.CQ_TAIL, Fld.key] <;> omega
  have hstate : (R.CQ_TAIL c).key ≠ (qSTATE q).key := by
    unfold qSTATE; split_ifs <;> simp only [R.SQ_STATE, R.PQ_STATE, R.CQ_TAIL, Fld.key] <;> omega
  unfold Dev.queueSettle
  split_ifs
  · exact ⟨rfl, (Dev.get_put_ne _ _ _ _ hstate).trans (Dev.get_put_ne _ _ _ _ hout)⟩
  · exact ⟨rfl, Dev.get_put_ne _ _ _ _ hout⟩

/-- An entry that completes has completed where its queue's completions lie (R697 to R699). -/
theorem Dev.answered_complete (d : Dev) (q handle st rs : Nat) (e : List Byte) :
    d.answered (d.complete q (entryTag e) handle st rs none) q e handle st rs := by
  have same : ∀ f ∈ d.ringFields q, (d.counted q st).get f = d.get f := (d.counted_sameRing q st).fields
  simp only [ringFields, List.forall_mem_cons] at same
  obtain ⟨-, -, hen, hsize, hlo, hhi, htail, hphase, -⟩ := same
  intro enabled
  have posted : (d.counted q st).postOwed (d.queueRing q) (d.doneNow q (entryTag e) handle st rs) =
      (d.counted q st).ringWrite (d.queueRing q) (d.doneNow q (entryTag e) handle st rs) := by
    unfold Dev.postOwed Dev.on
    rw [hen, enabled]
    rfl
  obtain ⟨sent, moved⟩ := (d.counted q st).ringWrite_tells (d.queueRing q) (d.doneNow q (entryTag e) handle st rs)
  rw [hlo, hhi, htail, hphase] at sent
  rw [htail, hsize] at moved
  rw [complete_eq, posted]
  obtain ⟨hout, hget⟩ := settled_tells ((d.counted q st).ringWrite (d.queueRing q) (d.doneNow q (entryTag e) handle st rs)) q
    (d.queueRing q) (((d.counted q st).ringWrite (d.queueRing q) (d.doneNow q (entryTag e) handle st rs)).get (qOUT q) - 1)
  refine ⟨?_, hget.trans moved⟩
  rw [hout]
  simpa [doneNow, Dev.on] using sent

/-! ### A started entry acted on -/

/-- The start of an entry, as part of what starting and completing it changes. -/
theorem Dev.begun_queueFields {d : Dev} {q slots : Nat} {e : List Byte} {l : List Part} (hl : Part.q ∈ l ∧ Part.out ∈ l := by decide) :
    d.Only (regsOf (d.queueFields q)) l (d.begun q e slots) := by
  refine Sys2Proof.Only.mono (d.begun_only q e slots) (fun k hk => ?_) (by simpa using hl)
  rw [regsOf_eq_false] at hk ⊢
  intro f hf
  refine hk f ?_
  simp only [beginFields, List.mem_cons, List.not_mem_nil, or_false] at hf
  rcases hf with rfl | rfl | rfl | rfl | rfl <;> simp [queueFields]

/-- A frame of listed fields lies in the frame that allows noting too. -/
theorem Dev.Only.orNote {l : List Fld} {ps : List Part} {d e : Dev} (h : d.Only (regsOf l) ps e) : d.Only (orNote l) ps e :=
  Sys2Proof.Only.mono h (fun _ hk => regsOf_eq_false.2 (orNote_eq_false.1 hk).2) fun _ hp => hp

/-- Where an entry of queue q completes after its start and after a change of other parts, the block has changed in no more. -/
theorem Dev.Only.complete {d x : Dev} {l : List Part} {q tag handle st rs : Nat} {applied : Option Nat}
    (h : d.Only (Machine.orNote (d.queueFields q)) l x) (hring : x.queueRing q = d.queueRing q)
    (hl : notes ⊆ l ∧ Part.q ∈ l := by decide) :
    d.Only (Machine.orNote (d.queueFields q)) l (x.complete q tag handle st rs applied) := by
  have named : x.doneFields q ⊆ d.queueFields q := by
    rw [show d.queueFields q = x.queueFields q by simp only [queueFields, hring]]
    exact x.doneFields_subset q
  have k := x.complete_only q tag handle st rs applied
  exact Sys2Proof.Only.trans h (Sys2Proof.Only.mono k (fun _ hk => orNote_eq_false.2
      ⟨(orNote_eq_false.1 hk).1, fun f hf => (orNote_eq_false.1 hk).2 f (named hf)⟩) (by
    obtain ⟨hnotes, hq⟩ := hl
    intro p hp
    rcases List.mem_append.1 hp with h | h
    · exact hnotes h
    · exact List.mem_singleton.1 h ▸ hq))

end Sys2Proof.Machine
end

section
/-! SUPPORT. Queues that wait or fail to fetch, and the entries FENCE, CHECK_CREATE and DESTROY of a check channel. -/

namespace Sys2Proof.Machine

/-- The entry that heads a queue is owned by the device: the queue goes on (R684). -/
theorem exec_ownPoll_owned {s : State} {q : Nat} {waited : Bool} (hq : q < 1024) (hen : s.dev.get (R.SQ_EN q) = 1)
    (hst : s.dev.get (R.SQ_STATE q) = 2) :
    exec (.ownPoll q true waited) s = .next (s.upd fun d =>
      ({ d with q := { d.q with ownStall := d.q.ownStall.filter (· ≠ q) } }).put (R.SQ_STATE q) 1) := by
  have hget (x : QSt) : ({ s.dev with q := x } : Dev).get (R.SQ_STATE q) = 2 := hst
  simp [exec, execOwnPoll, onUnit, hq, State.upd, Dev.on, hen, hst, hget]

/-- The entry that heads a queue is not owned by the device: the queue waits. -/
theorem exec_ownPoll_waits {s : State} {q : Nat} (hq : q < 1024) (hen : s.dev.get (R.SQ_EN q) = 1)
    (hst : s.dev.get (R.SQ_STATE q) ≠ 3) :
    exec (.ownPoll q false false) s = .next (s.upd fun d => d.put (R.SQ_STATE q) 2) := by
  simp [exec, execOwnPoll, onUnit, hq, State.upd, Dev.on, hen, hst]

/-- A queue that has waited for 1 ms is flagged stalled (R684). -/
theorem exec_ownPoll_stalls {s : State} {q : Nat} (hq : q < 1024) (hen : s.dev.get (R.SQ_EN q) = 1)
    (hst : s.dev.get (R.SQ_STATE q) ≠ 3) (hold : q ∉ s.dev.q.ownStall) :
    exec (.ownPoll q false true) s = .next (s.upd fun d =>
      ((({ d.put (R.SQ_STATE q) 2 with q := { d.q with ownStall := q :: d.q.ownStall } }).queueFlag q (R.SQ_OWN_STALL q)).flagRaise
        R.QB_OWN_STALL 35)) := by
  simp [exec, execOwnPoll, onUnit, hq, State.upd, Dev.on, hen, hst, hold]

/-- A fetch error stops its queue (R708). -/
theorem exec_fetchErr_of_enabled {s : State} {q : Nat} (hq : q < 1024) (hen : s.dev.get (R.SQ_EN q) = 1) :
    exec (.fetchErr q) s = .next (s.upd fun d =>
      ((d.put (R.SQ_STATE q) 3).queueFlag q (R.SQ_FETCH_ERR q)).flagRaise R.QB_FETCH_ERR 36) := by
  have hunit : q < 1032 := by omega
  simp [exec, execFetchErr, onUnit, hunit, State.upd, Dev.on, qEN, qSTATE, qFETCHERR, hq, hen]

/-- An ordinary queue is flagged in its own register and in the map of the queues. -/
theorem Dev.queueFlag_of_ordinary {d : Dev} {q : Nat} {f : Fld} (hq : q < 1024) :
    d.queueFlag q f = (d.flag f).putMap R.QB_SQ_ERR_MAP q true := by
  simp [Dev.queueFlag, hq]

/-- A status bit raised with its event. -/
theorem Dev.Only.flagRaise {r : Nat → Bool} {l : List Part} {d e : Dev} {f : Fld} {ev : Nat} (h : d.Only r l e)
    (hf : r f.key = true) (hr : ∀ k, noteBlock k = true → r k = true) (hev : ev < 1024 := by decide)
    (hl : notes ⊆ l := by decide) : d.Only r l (e.flagRaise f ev) :=
  (h.flag hf).note (Noting.raiseD _ _ _ hev) hr hl

/-- A status bit that raises its event leaves the event pending. -/
theorem Dev.pends_flagRaise (d : Dev) (f : Fld) {ev : Nat} (hev : ev < 1024) : (d.flagRaise f ev).pends ev = true :=
  Pending.raised _ _ _ hev

/-! ### Waiting queues and fetch errors -/

theorem ownPoll_owned_gives {s : State} {q : Nat} {waited : Bool} (hq : q < 1024) (hen : s.dev.get (R.SQ_EN q) = 1)
    (hst : s.dev.get (R.SQ_STATE q) = 2) :
    (Instr.ownPoll q true waited).gives s fun t =>
      t.dev.get (R.SQ_STATE q) = 1 ∧ q ∉ t.dev.q.ownStall ∧ s.Only [R.SQ_STATE q] [.q] t := by
  refine ⟨_, exec_ownPoll_owned hq hen hst, Dev.get_put_same _ _ _, by simp, ?_, rfl, rfl⟩
  exact ((Only.refl (regsOf [R.SQ_STATE q]) [.q] s.dev).setQ).put (regsOf_of_mem (List.mem_cons_self ..))

theorem ownPoll_waits_gives {s : State} {q : Nat} (hq : q < 1024) (hen : s.dev.get (R.SQ_EN q) = 1)
    (hst : s.dev.get (R.SQ_STATE q) ≠ 3) :
    (Instr.ownPoll q false false).gives s fun t => t.dev.get (R.SQ_STATE q) = 2 ∧ s.Only [R.SQ_STATE q] [] t :=
  ⟨_, exec_ownPoll_waits hq hen hst, Dev.get_put_same _ _ _,
    Only.put _ _ _ (regsOf_of_mem (List.mem_cons_self ..)), rfl, rfl⟩

/-- The fields in which an ordinary queue tells of a wait or of a fetch error. -/
def queueErrFields (q : Nat) (own blk : Fld) : List Fld := [R.SQ_STATE q, own, blk, R.QB_SQ_ERR_MAP (q / 32)]

/-- A queue that takes a new state and flags it, in its own register and in the map of the queues (R684, R708, R714). -/
def Dev.queueTells (d : Dev) (q st : Nat) (own blk : Fld) (ev : Nat) : Dev :=
  ((d.put (R.SQ_STATE q) st).queueFlag q own).flagRaise blk ev

/-- A queue that tells of its new state shows it, and changes nothing else. -/
theorem Dev.queueTells_only {d : Dev} {q st ev : Nat} {own blk : Fld} (hq : q < 1024) (hev : ev < 1024) :
    d.Only (orNote (queueErrFields q own blk)) notes (d.queueTells q st own blk ev) := by
  have named : ∀ f ∈ queueErrFields q own blk, orNote (queueErrFields q own blk) f.key = true := fun _ => orNote_of_mem
  simp only [queueErrFields, List.forall_mem_cons] at named
  obtain ⟨hstate, hown, hblk, hmap, -⟩ := named
  rw [queueTells, queueFlag_of_ordinary hq]
  exact ((((Only.refl _ _ d).put hstate).flag hown).putMap hmap).flagRaise hblk orNote_of_noteBlock hev

/-- The queue's state is read back where its flags lie beside it. -/
theorem Dev.queueTells_state {d : Dev} {q st ev : Nat} {own blk : Fld} (hq : q < 1024) (hev : ev < 1024)
    (hown : (R.SQ_STATE q).key ≠ own.key) (hblk : (R.SQ_STATE q).key ≠ blk.key) :
    (d.queueTells q st own blk ev).get (R.SQ_STATE q) = st % 2 ^ 2 := by
  have untold : noteBlock (R.SQ_STATE q).key = false := by
    rw [noteBlock_eq_false]; simp only [R.SQ_STATE, Fld.key]; omega
  have hmap : (R.SQ_STATE q).key ≠ (R.QB_SQ_ERR_MAP (q / 32)).key := by
    simp only [R.SQ_STATE, R.QB_SQ_ERR_MAP, Fld.key]; omega
  rw [queueTells, get_flagRaise_ne _ _ _ _ hev untold hblk, queueFlag_of_ordinary hq, get_putMap_ne _ _ _ _ _ hmap,
    get_flag_ne _ _ _ hown]
  exact get_put_same _ _ _

/-- The queue's own flag is read back. -/
theorem Dev.queueTells_own {d : Dev} {q st ev : Nat} {own blk : Fld} (hq : q < 1024) (hev : ev < 1024)
    (untold : noteBlock own.key = false) (hblk : own.key ≠ blk.key) (hmap : own.key ≠ (R.QB_SQ_ERR_MAP (q / 32)).key) :
    (d.queueTells q st own blk ev).get own = 1 % own.size := by
  rw [queueTells, get_flagRaise_ne _ _ _ _ hev untold hblk, queueFlag_of_ordinary hq, get_putMap_ne _ _ _ _ _ hmap,
    get_flag_same]

theorem ownPoll_stalls_gives {s : State} {q : Nat} (hq : q < 1024) (hen : s.dev.get (R.SQ_EN q) = 1)
    (hst : s.dev.get (R.SQ_STATE q) ≠ 3) (hold : q ∉ s.dev.q.ownStall) :
    (Instr.ownPoll q false true).gives s fun t =>
      t.dev.get (R.SQ_STATE q) = 2 ∧ t.dev.get (R.SQ_OWN_STALL q) = 1 ∧ t.dev.get R.QB_OWN_STALL = 1 ∧
      t.dev.pends 35 = true ∧ q ∈ t.dev.q.ownStall ∧
      s.Noting [R.SQ_STATE q, R.SQ_OWN_STALL q, R.QB_OWN_STALL, R.QB_SQ_ERR_MAP (q / 32)] [.q] t := by
  have lists : ({ s.dev.q with ownStall := q :: s.dev.q.ownStall } : QSt).ownStall = q :: s.dev.q.ownStall := rfl
  generalize hx : ({ s.dev.q with ownStall := q :: s.dev.q.ownStall } : QSt) = x at lists
  have heq : exec (.ownPoll q false true) s =
      .next { s with dev := ({ s.dev with q := x } : Dev).queueTells q 2 (R.SQ_OWN_STALL q) R.QB_OWN_STALL 35 } :=
    hx ▸ exec_ownPoll_stalls hq hen hst hold
  have told := ({ s.dev with q := x } : Dev).queueTells_only (st := 2) (own := R.SQ_OWN_STALL q) (blk := R.QB_OWN_STALL) hq
    (by decide : 35 < 1024)
  refine ⟨_, heq, Dev.queueTells_state hq (by decide) ?_ ?_, Dev.queueTells_own hq (by decide) ?_ ?_ ?_,
    Dev.get_flagRaise_same _ _ _ (by decide) (by decide), Dev.pends_flagRaise _ _ (by decide), ?_, ?_, rfl, rfl⟩
  · simp only [R.SQ_STATE, R.SQ_OWN_STALL, Fld.key]; omega
  · simp only [R.SQ_STATE, R.QB_OWN_STALL, Fld.key]; omega
  · rw [noteBlock_eq_false]; simp only [R.SQ_OWN_STALL, Fld.key]; omega
  · simp only [R.SQ_OWN_STALL, R.QB_OWN_STALL, Fld.key]; omega
  · simp only [R.SQ_OWN_STALL, R.QB_SQ_ERR_MAP, Fld.key]; omega
  · have hkeep : (({ s.dev with q := x } : Dev).queueTells q 2 (R.SQ_OWN_STALL q) R.QB_OWN_STALL 35).q = x :=
      told.2 .q (by decide)
    show q ∈ (({ s.dev with q := x } : Dev).queueTells q 2 (R.SQ_OWN_STALL q) R.QB_OWN_STALL 35).q.ownStall
    rw [hkeep, lists]
    exact List.mem_cons_self ..
  · exact Sys2Proof.Only.trans ((Only.refl _ _ s.dev).setQ) (Sys2Proof.Only.mono told (fun _ h => h) (by decide))

theorem fetchErr_gives {s : State} {q : Nat} (hq : q < 1024) (hen : s.dev.get (R.SQ_EN q) = 1) :
    (Instr.fetchErr q).gives s fun t =>
      t.dev.get (R.SQ_STATE q) = 3 ∧ t.dev.get (R.SQ_FETCH_ERR q) = 1 ∧ t.dev.get R.QB_FETCH_ERR = 1 ∧
      t.dev.pends 36 = true ∧
      s.Noting [R.SQ_STATE q, R.SQ_FETCH_ERR q, R.QB_FETCH_ERR, R.QB_SQ_ERR_MAP (q / 32)] [] t := by
  have heq : exec (.fetchErr q) s =
      .next (s.upd fun d => d.queueTells q 3 (R.SQ_FETCH_ERR q) R.QB_FETCH_ERR 36) := exec_fetchErr_of_enabled hq hen
  refine ⟨_, heq, Dev.queueTells_state hq (by decide) ?_ ?_, Dev.queueTells_own hq (by decide) ?_ ?_ ?_,
    Dev.get_flagRaise_same _ _ _ (by decide) (by decide), Dev.pends_flagRaise _ _ (by decide),
    Dev.queueTells_only hq (by decide), rfl, rfl⟩
  · simp only [R.SQ_STATE, R.SQ_FETCH_ERR, Fld.key]; omega
  · simp only [R.SQ_STATE, R.QB_FETCH_ERR, Fld.key]; omega
  · rw [noteBlock_eq_false]; simp only [R.SQ_FETCH_ERR, Fld.key]; omega
  · simp only [R.SQ_FETCH_ERR, R.QB_FETCH_ERR, Fld.key]; omega
  · simp only [R.SQ_FETCH_ERR, R.QB_SQ_ERR_MAP, Fld.key]; omega

/-! ### Tables of channels -/

/-- What an adjusted table reads. -/
theorem Tab.get?_adjust {α : Type} (t : Tab α) (k j : Nat) (f : α → α) :
    Tab.get? (Tab.adjust t k f) j = if j = k then (Tab.get? t k).map f else Tab.get? t j := by
  induction t with
  | nil => exact (ite_self none).symm
  | cons x t ih =>
    obtain ⟨a, w⟩ := x
    unfold Tab.adjust at ih ⊢
    rw [List.map_cons]
    by_cases ha : a = k
    · subst ha
      by_cases hj : j = a
      · subst hj; simp [Tab.get?]
      · rw [if_pos rfl, Tab.get?, ih]; simp [Tab.get?, hj]
    · rw [if_neg ha, Tab.get?, ih]
      by_cases hj : j = k
      · subst hj; simp [Tab.get?, Ne.symm ha]
      · simp [Tab.get?, hj]

theorem Dev.chan?_congr {d x : Dev} (h : x.ch = d.ch) (cls i : Nat) : x.chan? cls i = d.chan? cls i := by rw [chan?, chan?, h]

theorem Dev.live?_congr {d x : Dev} (h : x.ch = d.ch) (cls i : Nat) : x.live? cls i = d.live? cls i := by
  rw [live?, live?, chan?_congr h]

theorem Dev.chan?_modChan_same (d : Dev) (cls i : Nat) (f : Chan → Chan) :
    (d.modChan cls i f).chan? cls i = (d.chan? cls i).map f := by
  rw [modChan, chan?, Tab.get?_adjust, if_pos rfl]
  rfl

/-- A LIVE channel is there, and does not retire. -/
theorem Dev.live?_eq_some {d : Dev} {cls i : Nat} {c : Chan} :
    d.live? cls i = some c ↔ d.chan? cls i = some c ∧ c.retiring = false := by
  rw [live?, Option.bind_eq_some_iff]
  constructor
  · rintro ⟨x, hx, h⟩
    split_ifs at h with hr
    obtain rfl := Option.some.inj h
    exact ⟨hx, Bool.eq_false_iff.2 hr⟩
  · rintro ⟨hx, hr⟩
    exact ⟨c, hx, if_neg (by simp [hr])⟩

/-- What a handle names is LIVE at the handle's index. -/
theorem Dev.live?_of_target? {d : Dev} {f h : Nat} {c : Chan} (ht : d.target? f h = some c) :
    d.live? (handleCls h) (handleIdx h) = some c := by
  unfold target? at ht
  split at ht
  · next x hx =>
    split_ifs at ht
    obtain rfl := Option.some.inj ht
    unfold handle? at hx
    split_ifs at hx
    obtain ⟨y, hy, hxy⟩ := Option.bind_eq_some_iff.1 hx
    split_ifs at hxy
    exact hy.trans hxy
  · cases ht

/-- The channel that a creation leaves at its index (R104 to R106). -/
theorem Dev.chan?_create (d : Dev) (cls i : Nat) (c : Chan) :
    (d.create cls i c).2.chan? cls i = some { c with gen := d.issueGen cls i, cseq := d.ch.nextCseq } := by
  rw [create, chan?, putChan]
  exact Tab.get?_set_same _ _ _

/-- The same where the creation changes its channel at once. -/
theorem Dev.live?_create_modChan (d : Dev) (cls i : Nat) (c : Chan) (f : Chan → Chan)
    (hr : (f { c with gen := d.issueGen cls i, cseq := d.ch.nextCseq }).retiring = false) :
    ((d.create cls i c).2.modChan cls i f).live? cls i =
      some (f { c with gen := d.issueGen cls i, cseq := d.ch.nextCseq }) :=
  live?_eq_some.2 ⟨(chan?_modChan_same _ _ _ _).trans (by rw [chan?_create]; rfl), hr⟩

/-! ### Entries that complete at once -/

/-- Between its start and its completion, an entry changed no register and no part outside ps. -/
def Dev.KeepsRegs (d : Dev) (ps : List Part) (x : Dev) : Prop := d.Only (fun _ => false) ps x

theorem Dev.KeepsRegs.sameRing {d x : Dev} {ps : List Part} {q : Nat} (h : d.KeepsRegs ps x)
    (hps : Part.time ∉ ps := by decide) : d.SameRing x q := .of_only h (fun _ _ => rfl) hps

/-- A started entry that completes at once is answered where its queue's completions lie. -/
theorem Dev.answered_finish {d x : Dev} {ps : List Part} {q slots handle st rs : Nat} {e : List Byte}
    (h : (d.begun q e slots).KeepsRegs ps x) (hps : Part.time ∉ ps := by decide) :
    d.answered (x.finish q e handle st rs) q e handle st rs :=
  ((d.begun_sameRing q e slots).trans (h.sameRing hps)).answered (x.answered_complete q handle st rs e)

/-- A started entry that completes at once changes no more than its queue, what it acted on, and what is noted. -/
theorem Dev.finish_only {d x : Dev} {ps : List Part} {q slots handle st rs : Nat} {e : List Byte}
    (h : (d.begun q e slots).KeepsRegs ps x) (hps : Part.q ∈ ps ∧ Part.time ∉ ps := by decide) :
    d.Only (orNote (d.queueFields q)) (notes ++ ps) (x.finish q e handle st rs) := by
  obtain ⟨hq, htime⟩ := hps
  have begun : d.Only (orNote (d.queueFields q)) (notes ++ ps) (d.begun q e slots) :=
    (Dev.begun_queueFields ⟨List.mem_append_right _ hq, List.mem_append_left _ (by decide)⟩).orNote
  have acted := Sys2Proof.Only.trans begun (Sys2Proof.Only.mono h (fun _ _ => rfl) fun _ hp => List.mem_append_right _ hp)
  exact acted.complete ((d.begun_sameRing q e slots).trans (h.sameRing htime)).queueRing
    ⟨List.subset_append_left _ _, List.mem_append_right _ hq⟩

/-- A completion leaves alone the channels. -/
theorem Dev.finish_ch (x : Dev) (q handle st rs : Nat) (e : List Byte) : (x.finish q e handle st rs).ch = x.ch :=
  (x.complete_only q (entryTag e) handle st rs none).2 .ch (by decide)

/-- A completion counts no entry. -/
theorem Dev.finish_entries (x : Dev) (q handle st rs : Nat) (e : List Byte) :
    (x.finish q e handle st rs).get R.QB_ENTRIES = x.get R.QB_ENTRIES := by
  refine (x.complete_only q (entryTag e) handle st rs none).get (orNote_eq_false.2 ⟨by decide, ?_⟩)
  simp only [doneFields, countFields, List.cons_append, List.nil_append, List.forall_mem_cons]
  refine ⟨?_, (qOUT_ne_entries q), ?_, ?_, ?_, by decide, by decide, by decide, ?_, by simp⟩
  · unfold qSTATE; split_ifs <;> simp only [R.SQ_STATE, R.PQ_STATE, R.QB_ENTRIES, Fld.key] <;> omega
  all_goals simp only [R.CQ_TAIL, R.CQ_PHASE, R.CQ_DROPPED, R.CQ_RESV, R.QB_ENTRIES, Fld.key]; omega

/-! ### FENCE -/

/-- FENCE waits for the earlier entries of its queue (R689). -/
theorem exec_fence_waits {s : State} {q : Nat} {e : List Byte} (hq : q < 1032) (hop : entryOp e = 1) (hout : s.dev.get (qOUT q) ≠ 0) :
    exec (.fence q e) s = .next s := by
  simp [exec, execFence, hq, hop, hout]

/-- With no earlier entry outstanding, FENCE completes OK at once (R689). -/
theorem exec_fence_completes {s : State} {q : Nat} {e : List Byte} (hq : q < 1032) (hop : entryOp e = 1)
    (hout : s.dev.get (qOUT q) = 0) (hst : s.dev.headStarts q e 1 false = true) (hlen : entryLen e = 1)
    (hzero : allZero (slice e 4 28) = true) :
    exec (.fence q e) s = .next (s.upd fun d => (d.begun q e 1).finish q e (entryHandle e) stOk 0) := by
  have taken := onEntryDev_of_headStarts (act := fun d =>
    if entryLen e ≠ 1 ∨ !allZero (slice e 4 28) then d.answer q e stMalformed else d.answer q e stOk) hq hop hst
  have free : (decide (q < 1032) && entryOp e == 1 && s.dev.get (qOUT q) != 0) = false := by simp [hout]
  simp only [hlen, hzero] at taken
  show execFence q e s = _
  unfold execFence
  simp only [free, hlen, hzero]
  exact taken

theorem fence_gives {s : State} {q : Nat} {e : List Byte} (hq : q < 1032) (hop : entryOp e = 1) (hout : s.dev.get (qOUT q) = 0)
    (hst : s.dev.headStarts q e 1 false = true) (hlen : entryLen e = 1) (hzero : allZero (slice e 4 28) = true) :
    (Instr.fence q e).gives s fun t =>
      s.dev.answered t.dev q e (entryHandle e) stOk 0 ∧ t.dev.get R.QB_ENTRIES = (s.dev.get R.QB_ENTRIES + 1) % 2 ^ 64 ∧
      s.Noting (s.dev.queueFields q) [.q] t := by
  have kept : (s.dev.begun q e 1).KeepsRegs [.q] (s.dev.begun q e 1) := Only.refl _ _ _
  exact ⟨_, exec_fence_completes hq hop hout hst hlen hzero, Dev.answered_finish kept,
    (Dev.finish_entries _ _ _ _ _ _).trans (s.dev.begun_entries q e 1), Dev.finish_only kept, rfl, rfl⟩

/-! ### CHECK_CREATE -/

/-- The block with a check channel created at index i: its record carries its handle, and nothing is left of a check
channel before it (R437). -/
def Dev.checkMade (d : Dev) (q i : Nat) (e : List Byte) : Dev :=
  let h := mkHandle (d.issueGen clsCheck i) clsCheck i
  let x := (d.create clsCheck i { gen := 0, owner := queueFn q, queue := q, tag := entryTag e, record := carried e 20 32 }).2.modChan
    clsCheck i (fun c => { c with record := withHandle c.record h })
  { x with comp := { x.comp with
      checks := Tab.erase x.comp.checks i
      skips := x.comp.skips.filter (· ≠ i)
      learned := x.comp.learned.filter (· ≠ i) } }

/-- A CHECK_CREATE whose record is in order takes the lowest free index and completes OK. -/
theorem Dev.checkCreateD_of_fits {d : Dev} {q i : Nat} {e : List Byte} (hframed : createFramed e 1 24 = true)
    (hmode : kMode (carried e 20 32) ≤ 1) (hrsv : byteAt (carried e 20 32) 5 / 4 = 0) (hperiod : kPeriod (carried e 20 32) ≠ 0)
    (hw : (kRect (carried e 20 32)).w ≠ 0) (hh : (kRect (carried e 20 32)).h ≠ 0)
    (hx : (kRect (carried e 20 32)).x + (kRect (carried e 20 32)).w ≤ d.geo.width)
    (hy : (kRect (carried e 20 32)).y + (kRect (carried e 20 32)).h ≤ d.geo.height) (hfree : d.freeIndex clsCheck = some i) :
    d.checkCreateD q e = (d.checkMade q i e).finish q e (mkHandle (d.issueGen clsCheck i) clsCheck i) stOk 0 := by
  have formed : (!createFramed e 1 24 || decide (1 < kMode (carried e 20 32)) || byteAt (carried e 20 32) 5 / 4 != 0) = false := by
    simp [hframed, hrsv, hmode]
  have fits : ¬(kPeriod (carried e 20 32) = 0 ∨ (kRect (carried e 20 32)).w = 0 ∨ (kRect (carried e 20 32)).h = 0 ∨
      d.geo.width < (kRect (carried e 20 32)).x + (kRect (carried e 20 32)).w ∨
      d.geo.height < (kRect (carried e 20 32)).y + (kRect (carried e 20 32)).h) := by
    rintro (h | h | h | h | h)
    exacts [hperiod h, hw h, hh h, absurd h (Nat.not_lt.2 hx), absurd h (Nat.not_lt.2 hy)]
  unfold checkCreateD
  simp only [formed, Bool.false_eq_true, if_false, if_neg fits, hfree]
  rfl

theorem Dev.checkMade_keeps (d : Dev) (q i : Nat) (e : List Byte) : d.KeepsRegs [.q, .ch, .comp] (d.checkMade q i e) :=
  (((Only.refl _ _ d).create).modChan).setComp

/-- The channel that CHECK_CREATE leaves at its index. -/
theorem Dev.live?_checkMade (d : Dev) (q i : Nat) (e : List Byte) :
    (d.checkMade q i e).live? clsCheck i = some
      { gen := d.issueGen clsCheck i, cseq := d.ch.nextCseq, owner := queueFn q, queue := q, tag := entryTag e,
        record := withHandle (carried e 20 32) (mkHandle (d.issueGen clsCheck i) clsCheck i) } :=
  live?_create_modChan d clsCheck i _ _ rfl

/-- The start of an entry leaves alone what the channels are created from. -/
theorem Dev.begun_ch (d : Dev) (q slots : Nat) (e : List Byte) : (d.begun q e slots).ch = d.ch :=
  (d.begun_only q e slots).2 .ch (by decide)

theorem Dev.begun_geo (d : Dev) (q slots : Nat) (e : List Byte) : (d.begun q e slots).geo = d.geo :=
  (d.begun_only q e slots).2 .geo (by decide)

theorem Dev.issueGen_congr {d x : Dev} (h : x.ch = d.ch) (cls i : Nat) : x.issueGen cls i = d.issueGen cls i := by
  rw [issueGen, issueGen, h]

theorem Dev.freeIndex_congr {d x : Dev} (h : x.ch = d.ch) (cls : Nat) : x.freeIndex cls = d.freeIndex cls := by
  simp only [freeIndex, chan?_congr h]

theorem Dev.target?_congr {d x : Dev} (h : x.ch = d.ch) (f n : Nat) : x.target? f n = d.target? f n := by
  simp only [target?, handle?, live?_congr h]

/-- CHECK_CREATE in order makes its channel and completes OK (R104, R106, R437). -/
theorem checkCreate_gives {s : State} {q i : Nat} {e : List Byte} (hq : q < 1032) (hop : entryOp e = 0x18)
    (hst : s.dev.headStarts q e 1 true = true)
    (made : (s.dev.begun q e 1).checkCreateD q e = ((s.dev.begun q e 1).checkMade q i e).finish q e
      (mkHandle (s.dev.issueGen clsCheck i) clsCheck i) stOk 0) :
    (Instr.checkCreate q e).gives s fun t =>
      let h := mkHandle (s.dev.issueGen clsCheck i) clsCheck i
      (∃ c, t.dev.live? clsCheck i = some c ∧ c.gen = s.dev.issueGen clsCheck i ∧ c.owner = queueFn q ∧
        c.cseq = s.dev.ch.nextCseq ∧ c.record = withHandle (carried e 20 32) h) ∧
      t.dev.ch.nextCseq = s.dev.ch.nextCseq + 1 ∧ s.dev.answered t.dev q e h stOk 0 ∧
      s.Noting (s.dev.queueFields q) [.q, .ch, .comp] t := by
  have heq : exec (.checkCreate q e) s = .next { s with
      dev := ((s.dev.begun q e 1).checkMade q i e).finish q e (mkHandle (s.dev.issueGen clsCheck i) clsCheck i) stOk 0 } :=
    made ▸ onEntryDev_of_headStarts (act := fun d => d.checkCreateD q e) hq hop hst
  have hgen := Dev.issueGen_congr (s.dev.begun_ch q 1 e) clsCheck i
  have kept := (s.dev.begun q e 1).checkMade_keeps q i e
  refine ⟨_, heq, ⟨_, (Dev.live?_congr (Dev.finish_ch _ _ _ _ _ _) _ _).trans (Dev.live?_checkMade _ _ _ _), hgen, rfl, ?_, ?_⟩, ?_,
    Dev.answered_finish kept, Dev.finish_only kept, rfl, rfl⟩
  · exact congrArg ChanSt.nextCseq (s.dev.begun_ch q 1 e)
  · simp only [hgen]
  · rw [Dev.finish_ch]
    exact congrArg (fun c : ChanSt => c.nextCseq + 1) (s.dev.begun_ch q 1 e)

/-! ### DESTROY of a check channel -/

/-- A check channel that its function destroys retires (R108, R109). -/
theorem Dev.destroyD_of_check {d : Dev} {q : Nat} {e : List Byte} {c : Chan} (hframed : framed e 1 8 = true)
    (hcls : handleCls (entryHandle e) = clsCheck) (ht : d.target? (queueFn q) (entryHandle e) = some c) :
    d.destroyD q e = (d.modChan clsCheck (handleIdx (entryHandle e)) fun c => { c with retiring := true }).finish q e
      (entryHandle e) stOk 0 := by
  unfold destroyD
  simp only [hframed, Bool.not_true, Bool.false_eq_true, if_false, ht, hcls]
  rfl

theorem destroy_gives {s : State} {q : Nat} {e : List Byte} {c : Chan} (hq : q < 1032) (hop : entryOp e = 2)
    (hst : s.dev.headStarts q e 1 true = true) (hframed : framed e 1 8 = true) (hcls : handleCls (entryHandle e) = clsCheck)
    (ht : s.dev.target? (queueFn q) (entryHandle e) = some c) :
    (Instr.destroy q e).gives s fun t =>
      t.dev.live? clsCheck (handleIdx (entryHandle e)) = none ∧
      (t.dev.chan? clsCheck (handleIdx (entryHandle e))).isSome = true ∧
      s.dev.answered t.dev q e (entryHandle e) stOk 0 ∧ s.Noting (s.dev.queueFields q) [.q, .ch] t := by
  have ht' := (Dev.target?_congr (s.dev.begun_ch q 1 e) _ _).trans ht
  obtain ⟨hchan, -⟩ := Dev.live?_eq_some.1 (hcls ▸ Dev.live?_of_target? ht')
  generalize hx : (s.dev.begun q e 1).modChan clsCheck (handleIdx (entryHandle e)) (fun c => { c with retiring := true }) = x
  have heq : exec (.destroy q e) s = .next { s with dev := x.finish q e (entryHandle e) stOk 0 } :=
    hx ▸ Dev.destroyD_of_check hframed hcls ht' ▸ onEntryDev_of_headStarts (act := fun d => d.destroyD q e) hq hop hst
  have kept : (s.dev.begun q e 1).KeepsRegs [.q, .ch] x := hx ▸ (Only.refl _ _ _).modChan
  have left : (x.finish q e (entryHandle e) stOk 0).chan? clsCheck (handleIdx (entryHandle e)) = some { c with retiring := true } := by
    rw [Dev.chan?_congr (Dev.finish_ch _ _ _ _ _ _), ← hx, Dev.chan?_modChan_same, hchan]
    rfl
  refine ⟨_, heq, ?_, ?_, Dev.answered_finish kept, Dev.finish_only kept, rfl, rfl⟩
  · simp [Dev.live?, left]
  · simp [left]

end Sys2Proof.Machine

open Sys2Proof Sys2Proof.Machine

/-- Settles O15: a waiting queue and a fetch error change the queue's state and its flags alone, and FENCE, CHECK_CREATE and
DESTROY of a check channel are an entry's start, one change of the channels, and its completion. -/
theorem queuesWaitStartAndCompleteEntries : Obligations.QueuesWaitStartAndCompleteEntries := by
  unfold Obligations.QueuesWaitStartAndCompleteEntries
  refine ⟨fun s q waited hq hen hst => ⟨ownPoll_owned_gives hq hen, ownPoll_waits_gives hq hen hst, ownPoll_stalls_gives hq hen hst,
    fetchErr_gives hq hen⟩, fun s q e hq => ⟨exec_fence_waits hq, fence_gives hq, ?_, fun c => destroy_gives hq⟩⟩
  intro i hop hst hframed hmode hrsv hperiod hw hh hx hy hfree
  have hch := s.dev.begun_ch q 1 e
  have hgeo := s.dev.begun_geo q 1 e
  refine checkCreate_gives hq hop hst ?_
  rw [← Dev.issueGen_congr hch]
  exact Dev.checkCreateD_of_fits hframed hmode hrsv hperiod hw hh (hgeo ▸ hx) (hgeo ▸ hy) ((Dev.freeIndex_congr hch _).trans hfree)

end

section
/-! SUPPORT. Surfaces: their creation, the zeros that fill them, and the transfers between them and the host. -/

namespace Sys2Proof.Machine

/-! ### Owed completions -/

/-- Writing a completion leaves alone what is owed. -/
theorem Dev.ringWrite_owed (d : Dev) (c : Nat) (m : Compl) : (d.ringWrite c m).q.owed = d.q.owed := by
  have sent : (d.ringSent c m).q = d.q := by
    unfold Dev.ringSent
    dsimp only
    split <;> rfl
  have counted (n : Nat) : ({ (d.ringSent c m).q with since := Tab.set (d.ringSent c m).q.since c n } : QSt).owed = d.q.owed :=
    show (d.ringSent c m).q.owed = d.q.owed from congrArg QSt.owed sent
  unfold Dev.ringWrite
  extract_lets size tail phase base x y z n
  split
  · exact (congrArg QSt.owed ((Noting.msi _ _ _).2 .q (by decide))).trans (counted _)
  · exact counted _

/-- The completion of an entry leaves alone what is owed beside. -/
theorem Dev.complete_owed (d : Dev) (q tag handle st rs : Nat) (applied : Option Nat) :
    (d.complete q tag handle st rs applied).q.owed = d.q.owed := by
  have posted (x : Dev) (c : Nat) (m : Compl) : (x.postOwed c m).q.owed = x.q.owed := by
    unfold Dev.postOwed
    split
    · rfl
    · exact x.ringWrite_owed c m
  have settled (x : Dev) (v : Nat) : ((x.put (qOUT q) v).queueSettle q).q = x.q := by
    unfold Dev.queueSettle
    split <;> rfl
  unfold Dev.complete
  extract_lets c m x y z
  rw [settled, posted]
  exact congrArg QSt.owed ((d.counted_only q st).2 .q (by simp))

/-- The block of the queues holds every field that a completion changes. -/
theorem Dev.doneFields_block (d : Dev) (q : Nat) : ∀ f ∈ d.doneFields q, f.key / 0x4000000 = 2 := by
  simp only [doneFields, countFields, List.cons_append, List.nil_append, List.forall_mem_cons, qSTATE, qOUT]
  refine ⟨?_, ?_, ?_, ?_, ?_, by decide, by decide, by decide, ?_, by simp⟩
  · split_ifs <;> simp only [R.SQ_STATE, R.PQ_STATE, Fld.key] <;> omega
  · split_ifs <;> simp only [R.SQ_OUT, R.PQ_OUT, Fld.key] <;> omega
  all_goals simp only [R.CQ_TAIL, R.CQ_PHASE, R.CQ_DROPPED, R.CQ_RESV, Fld.key]; omega

/-- The fields of listed blocks, beside those of events and the ledger. -/
def inBlocks (blocks : List Nat) (k : Nat) : Bool := noteBlock k || decide (k / 0x4000000 ∈ blocks)

theorem inBlocks_of_noteBlock {blocks : List Nat} (k : Nat) (h : noteBlock k = true) : inBlocks blocks k = true := by
  simp [inBlocks, h]

theorem inBlocks_of_mem {blocks : List Nat} {k : Nat} (h : k / 0x4000000 ∈ blocks) : inBlocks blocks k = true := by
  simp [inBlocks, h]

theorem inBlocks_eq_false {blocks : List Nat} {k : Nat} :
    inBlocks blocks k = false ↔ noteBlock k = false ∧ k / 0x4000000 ∉ blocks := by simp [inBlocks]

/-- The completion of an entry stays in the block of the queues. -/
theorem Dev.Only.completeIn {blocks : List Nat} {l : List Part} {d x : Dev} {q tag handle st rs : Nat} {applied : Option Nat}
    (h : d.Only (inBlocks blocks) l x) (hb : 2 ∈ blocks := by decide) (hl : notes ⊆ l ∧ Part.q ∈ l := by decide) :
    d.Only (inBlocks blocks) l (x.complete q tag handle st rs applied) := by
  obtain ⟨hnotes, hq⟩ := hl
  refine Sys2Proof.Only.trans h (Sys2Proof.Only.mono (x.complete_only q tag handle st rs applied) (fun k hk => ?_) fun p hp => ?_)
  · obtain ⟨hn, hout⟩ := inBlocks_eq_false.1 hk
    exact orNote_eq_false.2 ⟨hn, fun f hf he => hout (he ▸ (x.doneFields_block q f hf).symm ▸ hb)⟩
  · rcases List.mem_append.1 hp with h | h
    · exact hnotes h
    · exact List.mem_singleton.1 h ▸ hq

/-- Entries that complete one after the other are no longer owed, and change no more than their completions do. -/
theorem Dev.settle_spec {d : Dev} (p : Owed → Bool) (st : Nat) (applied : Option Nat) :
    (d.settle p st applied).q.owed = d.q.owed.filter (fun o => !p o) ∧
      d.Only (inBlocks [2]) (notes ++ [.q]) (d.settle p st applied) := by
  unfold Dev.settle
  rw [List.partition_eq_filter_filter]
  have folded : ∀ (now : List Owed) (x : Dev),
      (now.foldl (fun d o => d.complete o.queue o.tag o.handle st 0 applied) x).q.owed = x.q.owed := by
    intro now
    induction now with
    | nil => exact fun _ => rfl
    | cons o now ih => exact fun x => (ih _).trans (x.complete_owed _ _ _ _ _ _)
  exact ⟨folded _ _, ((Only.refl _ _ d).setQ).foldl (fun x o h => h.completeIn) _⟩

/-! ### The zero fill of surfaces -/

/-- What a byte reads after a range is put back to what unlisted bytes read as. -/
theorem Memory.get_clear (m : List Host.Cell) (lo n a : Nat) :
    Memory.get (Memory.clear m lo n) a = if lo ≤ a ∧ a < lo + n then memDefault a else Memory.get m a := by
  induction m with
  | nil => exact (ite_self _).symm
  | cons c m ih =>
    obtain ⟨k, v⟩ := c
    unfold Memory.clear at ih ⊢
    by_cases hk : lo ≤ k ∧ k < lo + n
    · rw [List.filter_cons_of_neg (by simpa using hk), ih, Memory.get]
      by_cases ha : a = k
      · rw [ha, if_pos hk, if_pos hk]
      · rw [if_neg ha]
    · rw [List.filter_cons_of_pos (by rw [← Bool.decide_and, decide_eq_false hk]; rfl), Memory.get, ih, Memory.get]
      by_cases ha : a = k
      · rw [ha, if_pos rfl, if_pos rfl, if_neg hk]
      · rw [if_neg ha, if_neg ha]

/-- An address lies in one of some portions of surfaces. -/
def inParts (ps : List (Nat × Nat × Nat)) (a : Nat) : Prop := ∃ p ∈ ps, p.2.1 ≤ a ∧ a < p.2.1 + p.2.2

/-- The block has changed in what is poisoned alone. -/
structure Dev.SameMem (d x : Dev) : Prop where
  only : d.Only (fun _ => false) [.mem] x
  surfs : x.mem.surfs = d.mem.surfs

/-- From s to t the portions have been cleared: their bytes read as unlisted ones do, and every other byte reads as before. -/
structure State.Cleared (ps : List (Nat × Nat × Nat)) (s t : State) : Prop where
  same : s.dev.SameMem t.dev
  pending : t.pending = s.pending
  within : ∀ a, inParts ps a → Memory.get t.hbm a = memDefault a
  outside : ∀ a, ¬inParts ps a → Memory.get t.hbm a = Memory.get s.hbm a

/-- One portion cleared. -/
def State.clearPart (s : State) (p : Nat × Nat × Nat) : State :=
  { s with
    hbm := Memory.clear s.hbm p.2.1 p.2.2
    dev := { s.dev with mem := { s.dev.mem with
      poison := s.dev.mem.poison.filter (fun f => !(decide (p.2.1 ≤ 32 * f) && decide (32 * f < p.2.1 + p.2.2))) } } }

theorem State.zeroSurface_eq (s : State) (u : Surf) : s.zeroSurface u = u.parts.foldl State.clearPart s := rfl

theorem State.clearPart_cleared (ps : List (Nat × Nat × Nat)) : ∀ s : State, s.Cleared ps (ps.foldl State.clearPart s) := by
  induction ps with
  | nil =>
    refine fun s => ⟨⟨Only.refl _ _ _, rfl⟩, rfl, fun a h => ?_, fun _ _ => rfl⟩
    obtain ⟨_, hp, -⟩ := h
    cases hp
  | cons p ps ih =>
    intro s
    obtain ⟨⟨only, surfs⟩, pending, within, outside⟩ := ih (s.clearPart p)
    have hget := Memory.get_clear s.hbm p.2.1 p.2.2
    refine ⟨⟨Sys2Proof.Only.trans ((Only.refl _ _ s.dev).setMem) only, surfs⟩, pending, fun a ha => ?_, fun a ha => ?_⟩
    · by_cases hin : inParts ps a
      · exact within a hin
      · obtain ⟨x, hx, hax⟩ := ha
        rcases List.mem_cons.1 hx with rfl | hx
        · exact (outside a hin).trans ((hget a).trans (if_pos hax))
        · exact absurd ⟨x, hx, hax⟩ hin
    · have hout : ¬inParts ps a := fun ⟨x, hx, hax⟩ => ha ⟨x, List.mem_cons_of_mem _ hx, hax⟩
      exact (outside a hout).trans ((hget a).trans (if_neg fun hax => ha ⟨p, List.mem_cons_self .., hax⟩))

/-- The surfaces of a listed channel, cleared one after the other. -/
theorem State.zeroSurfaces_cleared (us : Tab Surf) (s : State) :
    s.Cleared (us.flatMap fun u => u.2.parts) (us.foldl (fun s u => s.zeroSurface u.2) s) := by
  have heq : us.foldl (fun (s : State) u => s.zeroSurface u.2) s = (us.flatMap fun u => u.2.parts).foldl State.clearPart s :=
    (List.foldl_flatMap ..).symm
  rw [heq]
  exact State.clearPart_cleared _ s

/-- A byte of the surface pool is 0 where nothing was written to it. -/
theorem memDefault_of_pool {a : Nat} (h : a % stackBytes < poolHi) : memDefault a = 0 :=
  if_neg fun h' => absurd h'.2 (Nat.not_le.2 h)

/-- The surfaces that the zero fill of a surface's own create clears: those listed at its key. -/
theorem fillKey_of_surface {key k : Nat} (h : key < 262144) : fillKey (fillOwner key).1 (fillOwner key).2 k = (k == key) := by
  have : key < ingestBase := Nat.lt_of_lt_of_le h (by decide)
  simp [fillOwner, this, fillKey]

/-- The portions of what is listed at a key. -/
def Dev.fillParts (d : Dev) (key : Nat) : List (Nat × Nat × Nat) :=
  (d.mem.surfs.filter fun p => p.1 == key).flatMap fun u => u.2.parts

theorem Dev.mem_fillParts {d : Dev} {key : Nat} {p : Nat × Nat × Nat} :
    p ∈ d.fillParts key ↔ ∃ u, (key, u) ∈ d.mem.surfs ∧ p ∈ u.parts := by
  simp only [fillParts, List.mem_flatMap, List.mem_filter, beq_iff_eq]
  constructor
  · rintro ⟨⟨k, u⟩, ⟨hu, rfl⟩, hp⟩
    exact ⟨u, hu, hp⟩
  · rintro ⟨u, hu, hp⟩
    exact ⟨(key, u), ⟨hu, rfl⟩, hp⟩

/-- SURFACE_ZERO_FILL_DONE of a surface's own create: its surface reads 0, and its entry completes (R260, R275). -/
theorem surfaceZeroFillDone_gives {s : State} {key : Nat} {rest : List Nat} (hfill : s.dev.mem.filling = key :: rest)
    (hkey : key < 262144) :
    Instr.surfaceZeroFillDone.gives s fun t =>
      t.dev.mem.filling = rest ∧ t.dev.mem.surfs = s.dev.mem.surfs ∧
      t.dev.q.owed = s.dev.q.owed.filter (fun o => !(o.kind == OwedKind.zeroFill key)) ∧
      (∀ u p a, (key, u) ∈ s.dev.mem.surfs → p ∈ u.parts → p.2.1 ≤ a → a < p.2.1 + p.2.2 → a % stackBytes < poolHi →
        Memory.get t.hbm a = 0) ∧
      (∀ a, (∀ u p, (key, u) ∈ s.dev.mem.surfs → p ∈ u.parts → a < p.2.1 ∨ p.2.1 + p.2.2 ≤ a) →
        Memory.get t.hbm a = Memory.get s.hbm a) ∧
      s.Within [2] [.q, .mem] t := by
  have cleared := State.zeroSurfaces_cleared (s.dev.mem.surfs.filter fun p => p.1 == key) s
  have heq : exec .surfaceZeroFillDone s = .next
      (((s.dev.mem.surfs.filter fun p => p.1 == key).foldl (fun (s : State) p => s.zeroSurface p.2) s).upd fun d =>
        { d with mem := { d.mem with filling := rest } }.settle (fun (o : Owed) => o.kind == OwedKind.zeroFill key) stOk none) := by
    show execSurfaceZeroFillDone s = _
    unfold execSurfaceZeroFillDone
    rw [hfill]
    simp only [fillKey_of_surface hkey]
  generalize (s.dev.mem.surfs.filter fun p => p.1 == key).foldl (fun (s : State) p => s.zeroSurface p.2) s = t at cleared heq
  obtain ⟨⟨only, surfs⟩, pending, within, outside⟩ := cleared
  obtain ⟨owed, settled⟩ := ({ t.dev with mem := { t.dev.mem with filling := rest } } : Dev).settle_spec
    (fun (o : Owed) => o.kind == OwedKind.zeroFill key) stOk none
  have hmem := settled.2 .mem (by decide)
  refine ⟨_, heq, congrArg MemSt.filling hmem, (congrArg MemSt.surfs hmem).trans surfs, ?_, ?_, ?_, ?_, pending⟩
  · exact owed.trans (congrArg (fun x : QSt => x.owed.filter _) (only.2 .q (by decide)))
  · intro u p a hu hp hlo hhi hpool
    exact (within a ⟨p, Dev.mem_fillParts.2 ⟨u, hu, hp⟩, hlo, hhi⟩).trans (memDefault_of_pool hpool)
  · refine fun a ha => outside a fun ⟨p, hp, hlo, hhi⟩ => ?_
    obtain ⟨u, hu, hpu⟩ := Dev.mem_fillParts.1 hp
    have := ha u p hu hpu
    omega
  · have acted : s.dev.Only (inBlocks [2]) (notes ++ [.q, .mem]) { t.dev with mem := { t.dev.mem with filling := rest } } :=
      (Sys2Proof.Only.mono only (fun _ _ => rfl) (by decide)).setMem
    exact Sys2Proof.Only.trans acted (Sys2Proof.Only.mono settled (fun _ h => h) (by decide))

/-! ### SURFACE_CREATE -/

/-- A surface that finds its memory changes what is allocated alone. -/
theorem Dev.allocate_spec {d d' : Dev} {key fmt w h pitch mask : Nat} {kamius : Bool}
    (ha : d.allocate key fmt kamius w h pitch mask = some d') :
    d.Only (fun _ => false) [.mem] d' ∧ d'.mem.filling = d.mem.filling := by
  unfold allocate at ha
  split at ha
  · cases ha
  · obtain rfl := Option.some.inj ha
    exact ⟨(Only.refl _ _ d).setMem, rfl⟩

/-- The block with a surface created at index i, once its memory is found: it waits for its zeros (R260). -/
def Dev.surfaceMade (d : Dev) (q i : Nat) (e : List Byte) : Dev :=
  let r := carried e 24 32
  let r' := putLe (putLe r 12 4 (surfPitch r)) 24 8 (match d.surf? i with | some u => u.size | none => 0)
  let x := (d.create clsSurface i { gen := 0, owner := queueFn q, queue := q, tag := entryTag e, record := r' }).2.modChan
    clsSurface i (fun c => { c with record := withHandle c.record (mkHandle (d.issueGen clsSurface i) clsSurface i) })
  x.awaitFill q e (mkHandle (d.issueGen clsSurface i) clsSurface i) i

/-- A SURFACE_CREATE in order that finds its memory takes the lowest free index. -/
theorem Dev.surfaceCreateD_of_allocated {d d' : Dev} {q i : Nat} {e : List Byte} (hframed : createFramed e 1 28 = true)
    (hrsv : surfReservedOk (carried e 24 32) = true) (hrange : surfRangeOk (carried e 24 32) = true)
    (hfree : d.freeIndex clsSurface = some i)
    (ha : d.allocate i (recFmt (carried e 24 32)) (recKamius (carried e 24 32)) (recWidth (carried e 24 32))
      (recHeight (carried e 24 32)) (surfPitch (carried e 24 32)) (recStacks (carried e 24 32)) = some d') :
    d.surfaceCreateD q e = d'.surfaceMade q i e := by
  unfold surfaceCreateD
  simp only [hframed, hrsv, hrange, hfree, ha, Bool.not_true, Bool.or_self, Bool.false_eq_true, if_false]
  rfl

/-- What a created surface's create leaves: its channel, and what is owed and filled. -/
theorem Dev.surfaceMade_spec (d : Dev) (q i : Nat) (e : List Byte) :
    (∃ c, (d.surfaceMade q i e).live? clsSurface i = some c ∧ c.gen = d.issueGen clsSurface i ∧ c.owner = queueFn q ∧
      c.cseq = d.ch.nextCseq) ∧
    (d.surfaceMade q i e).mem = { d.mem with filling := d.mem.filling ++ [i] } ∧
    (d.surfaceMade q i e).q.owed = d.q.owed ++
      [⟨q, entryTag e, mkHandle (d.issueGen clsSurface i) clsSurface i, .zeroFill i⟩] ∧
    d.KeepsRegs [.q, .ch, .mem] (d.surfaceMade q i e) := by
  refine ⟨⟨_, (live?_congr rfl _ _).trans (live?_create_modChan d clsSurface i _ _ rfl), rfl, rfl, rfl⟩, rfl, rfl, ?_⟩
  exact (((Only.refl _ _ d).create).modChan.setMem).owe

/-- What is owed when an entry starts stays owed. -/
theorem Dev.begun_owed (d : Dev) (q slots : Nat) (e : List Byte) : (d.begun q e slots).q.owed = d.q.owed := by
  unfold begun beginEntry
  dsimp only
  split <;> rfl

theorem Dev.begun_mem (d : Dev) (q slots : Nat) (e : List Byte) : (d.begun q e slots).mem = d.mem :=
  (d.begun_only q e slots).2 .mem (by decide)

/-- An entry that starts, acts on its parts and stays owed. -/
theorem Dev.owes_of_begun {d x : Dev} {q slots : Nat} {e : List Byte} {o : Owed} {ps : List Part}
    (h : (d.begun q e slots).KeepsRegs ps x) (ho : x.q.owed = (d.begun q e slots).q.owed ++ [o]) : d.owes x q o :=
  ⟨ho.trans (by rw [begun_owed]), (h.1 _ rfl).trans (d.begun_out q e slots)⟩

/-- An entry that stays owed changes no more than its queue and what it acted on. -/
theorem Dev.owed_only {d x : Dev} {q slots : Nat} {e : List Byte} {ps ps' : List Part} (h : (d.begun q e slots).KeepsRegs ps x)
    (hps : ps ⊆ ps' ∧ Part.q ∈ ps' ∧ Part.out ∈ ps' := by decide) : d.Only (regsOf (d.queueFields q)) ps' x :=
  Sys2Proof.Only.trans (begun_queueFields hps.2) (Sys2Proof.Only.mono h (fun _ _ => rfl) hps.1)

/-- SURFACE_CREATE in order that finds its memory (R104, R254, R260). -/
theorem surfaceCreate_gives {s : State} {q i : Nat} {e : List Byte} {d' : Dev} (hq : q < 1032) (hop : entryOp e = 0x17)
    (hst : s.dev.headStarts q e 1 true = true) (hframed : createFramed e 1 28 = true)
    (hrsv : surfReservedOk (carried e 24 32) = true) (hrange : surfRangeOk (carried e 24 32) = true)
    (hfree : s.dev.freeIndex clsSurface = some i)
    (ha : (s.dev.begun q e 1).allocate i (recFmt (carried e 24 32)) (recKamius (carried e 24 32)) (recWidth (carried e 24 32))
      (recHeight (carried e 24 32)) (surfPitch (carried e 24 32)) (recStacks (carried e 24 32)) = some d') :
    (Instr.surfaceCreate q e).gives s fun t =>
      let h := mkHandle (s.dev.issueGen clsSurface i) clsSurface i
      (∃ c, t.dev.live? clsSurface i = some c ∧ c.gen = s.dev.issueGen clsSurface i ∧ c.owner = queueFn q ∧
        c.cseq = s.dev.ch.nextCseq) ∧
      t.dev.mem = { d'.mem with filling := s.dev.mem.filling ++ [i] } ∧
      s.dev.owes t.dev q ⟨q, entryTag e, h, .zeroFill i⟩ ∧ s.Only (s.dev.queueFields q) [.q, .ch, .mem, .out] t := by
  have hch := s.dev.begun_ch q 1 e
  have heq : exec (.surfaceCreate q e) s = .next { s with dev := d'.surfaceMade q i e } :=
    Dev.surfaceCreateD_of_allocated hframed hrsv hrange ((Dev.freeIndex_congr hch _).trans hfree) ha ▸
      onEntryDev_of_headStarts (act := fun d => d.surfaceCreateD q e) hq hop hst
  obtain ⟨allocated, hfill⟩ := Dev.allocate_spec ha
  have hch' : d'.ch = s.dev.ch := (allocated.2 .ch (by decide)).trans hch
  have hgen := Dev.issueGen_congr hch' clsSurface i
  obtain ⟨⟨c, live, gen, owner, cseq⟩, mem, owed, acted⟩ := d'.surfaceMade_spec q i e
  have kept : (s.dev.begun q e 1).KeepsRegs [.q, .ch, .mem] (d'.surfaceMade q i e) :=
    Sys2Proof.Only.trans (Sys2Proof.Only.mono allocated (fun _ h => h) (by decide)) acted
  have hq' : d'.q = (s.dev.begun q e 1).q := allocated.2 .q (by decide)
  rw [hq', hgen] at owed
  exact ⟨_, heq, ⟨c, live, gen.trans hgen, owner, cseq.trans (congrArg ChanSt.nextCseq hch')⟩,
    mem.trans (by rw [hfill, Dev.begun_mem]), Dev.owes_of_begun kept owed, Dev.owed_only kept, rfl, rfl⟩

/-! ### Transfers -/

/-- No index from k among n is found only where none fits. -/
theorem firstIdx_none {p : Nat → Bool} {n k : Nat} (h : firstIdx p n k = none) : ∀ i, k ≤ i → i < k + n → p i = false := by
  induction n generalizing k with
  | zero => omega
  | succ n ih =>
    rw [firstIdx] at h
    split_ifs at h with hp
    intro i hlo hhi
    rcases Nat.eq_or_lt_of_le hlo with rfl | hlt
    · exact Bool.eq_false_iff.2 hp
    · exact ih h i hlt (by omega)

theorem firstIdx_some {p : Nat → Bool} {n k i : Nat} (h : firstIdx p n k = some i) : p i = true := by
  induction n generalizing k with
  | zero => cases h
  | succ n ih =>
    rw [firstIdx] at h
    split_ifs at h with hp
    · exact Option.some.inj h ▸ hp
    · exact ih h

/-- Among more indices than a table lists, one is free. -/
theorem Tab.exists_firstIdx {α : Type} (t : Tab α) :
    ∃ i, firstIdx (fun i => (Tab.get? t i).isNone) (t.length + 1) 0 = some i ∧ Tab.get? t i = none := by
  cases hfound : firstIdx (fun i => (Tab.get? t i).isNone) (t.length + 1) 0 with
  | some i => exact ⟨i, rfl, Option.isNone_iff_eq_none.1 (firstIdx_some hfound)⟩
  | none =>
    have listed : Finset.range (t.length + 1) ⊆ (t.map Prod.fst).toFinset := by
      intro i hi
      have := firstIdx_none hfound i (Nat.zero_le i) (by simpa using hi)
      obtain ⟨v, hv⟩ := Option.isSome_iff_exists.1 (Option.isNone_eq_false_iff.1 this)
      exact List.mem_toFinset.2 (List.mem_map_of_mem (Tab.mem_of_get? hv))
    have := (Finset.card_le_card listed).trans (List.toFinset_card_le _)
    simp at this

/-- A transfer that starts takes a free number and stays owed. -/
theorem Dev.transferStart_spec (d : Dev) (q : Nat) (e : List Byte) (write : Bool) :
    ∃ id x, Tab.get? d.mem.xfers id = none ∧ Tab.get? (d.transferStart q e write).mem.xfers id = some x ∧ x.write = write ∧
      x.queue = q ∧ x.x = entryX e ∧ x.y = entryY e ∧ x.w = entryW e ∧ x.h = entryH e ∧
      (d.transferStart q e write).q.owed = d.q.owed ++ [⟨q, entryTag e, entryHandle e, .surface id⟩] ∧
      d.KeepsRegs [.q, .mem] (d.transferStart q e write) := by
  obtain ⟨id, hid, hfree⟩ := Tab.exists_firstIdx d.mem.xfers
  refine ⟨id, ⟨q, entryTag e, entryHandle e, write, handleIdx (entryHandle e), entryX e, entryY e, entryW e, entryH e,
    entryAddr e, entryPitch e⟩, hfree, ?_, rfl, rfl, rfl, rfl, rfl, rfl, ?_, ((Only.refl _ _ d).setMem).owe⟩
  · unfold transferStart
    simp only [hid, Option.getD_some]
    exact Tab.get?_set_same _ _ _
  · unfold transferStart
    simp only [hid, Option.getD_some]
    rfl

/-- SURFACE_WRITE or SURFACE_READ in order (R695). -/
theorem transfer_gives {s : State} {q : Nat} {e : List Byte} {write : Bool} (hq : q < 1032)
    (hop : entryOp e = if write then 0x24 else 0x25) (hst : s.dev.headStarts q e 1 true = true)
    (hok : (s.dev.begun q e 1).transferStatus q e write = stOk) :
    (if write then Instr.surfaceWrite q e else Instr.surfaceRead q e).gives s fun t =>
      ∃ id x, Tab.get? s.dev.mem.xfers id = none ∧ Tab.get? t.dev.mem.xfers id = some x ∧ x.write = write ∧ x.queue = q ∧
        x.x = entryX e ∧ x.y = entryY e ∧ x.w = entryW e ∧ x.h = entryH e ∧
        s.dev.owes t.dev q ⟨q, entryTag e, entryHandle e, .surface id⟩ ∧
        s.Only (s.dev.queueFields q) [.q, .mem, .out] t := by
  have started : (s.dev.begun q e 1).transferD q e write = (s.dev.begun q e 1).transferStart q e write := if_pos hok
  have heq : exec (if write then Instr.surfaceWrite q e else Instr.surfaceRead q e) s =
      .next { s with dev := (s.dev.begun q e 1).transferStart q e write } := by
    rw [← started]
    cases write with
    | true => exact onEntryDev_of_headStarts (act := fun d => d.transferD q e true) hq hop hst
    | false => exact onEntryDev_of_headStarts (act := fun d => d.transferD q e false) hq hop hst
  obtain ⟨id, x, hfree, hget, hwrite, hqueue, hx, hy, hw, hh, owed, kept⟩ := (s.dev.begun q e 1).transferStart_spec q e write
  rw [Dev.begun_mem] at hfree
  exact ⟨_, heq, id, x, hfree, hget, hwrite, hqueue, hx, hy, hw, hh, Dev.owes_of_begun kept owed, Dev.owed_only kept, rfl, rfl⟩

/-- A write whose host read failed writes nothing and completes ABORTED (R705). -/
theorem surfaceTransferDone_failed_gives {s : State} {id : Nat} {x : Xfer} (hx : Tab.get? s.dev.mem.xfers id = some x)
    (hwrite : x.write = true) (hsurf : (s.dev.surf? x.surf).isSome = true) :
    (Instr.surfaceTransferDone id none).gives s fun t =>
      t.hbm = s.hbm ∧ Tab.get? t.dev.mem.xfers id = none ∧
      t.dev.q.owed = s.dev.q.owed.filter (fun o => !(o.kind == OwedKind.surface id)) ∧ s.Within [2] [.q, .mem] t := by
  obtain ⟨u, hu⟩ := Option.isSome_iff_exists.1 hsurf
  generalize hd : ({ s.dev with mem := { s.dev.mem with xfers := Tab.erase s.dev.mem.xfers id } } : Dev) = d
  have heq : exec (.surfaceTransferDone id none) s = .next { s with
      dev := d.settle (fun (o : Owed) => o.kind == OwedKind.surface id) stAborted none } := by
    have hu' : (s.upd fun d => { d with mem := { d.mem with xfers := Tab.erase d.mem.xfers id } }).dev.surf? x.surf = some u := hu
    show Host.Outcome.next (s.xferEnd id none false) = _
    unfold State.xferEnd
    simp only [hx, hu', State.xferRun, hwrite, if_true]
    exact hd ▸ rfl
  obtain ⟨owed, settled⟩ := d.settle_spec (fun (o : Owed) => o.kind == OwedKind.surface id) stAborted none
  refine ⟨_, heq, rfl, ?_, ?_, ?_, rfl⟩
  · exact (congrArg (fun m : MemSt => Tab.get? m.xfers id) (settled.2 .mem (by decide))).trans (hd ▸ Tab.get?_erase_same _ _)
  · exact owed.trans (hd ▸ rfl)
  · have erased : s.dev.Only (inBlocks [2]) (notes ++ [.q, .mem]) d := hd ▸ (Only.refl _ _ s.dev).setMem
    exact Sys2Proof.Only.trans erased (Sys2Proof.Only.mono settled (fun _ h => h) (by decide))

end Sys2Proof.Machine

open Sys2Proof Sys2Proof.Machine

/-- Settles O16: a create takes its index and its memory, the fill clears the portions of its surface, and a transfer takes a
free number; the completions that end them change the block of the queues alone. -/
theorem surfacesAreCreatedZeroedAndTransferred : Obligations.SurfacesAreCreatedZeroedAndTransferred := by
  unfold Obligations.SurfacesAreCreatedZeroedAndTransferred
  exact fun s q e hq => ⟨fun i d' => surfaceCreate_gives hq, fun key rest => surfaceZeroFillDone_gives,
    fun write => transfer_gives hq, fun id x => surfaceTransferDone_failed_gives⟩

end

section
/-! SUPPORT. Messages between the members of a table: what is passed on, and what a member takes from them. -/

namespace Sys2Proof.Machine

namespace Dev.Only

variable {r : Nat → Bool} {l : List Part} {d e : Dev}

theorem setTbl {x : TblSt} (h : d.Only r l e) (hl : Part.tbl ∈ l := by decide) : d.Only r l { e with tbl := x } :=
  h.parts rfl fun p hp => by
    cases p with
    | tbl => exact absurd hl hp
    | _ => rfl

theorem setCal {x : CalSt} (h : d.Only r l e) (hl : Part.cal ∈ l := by decide) : d.Only r l { e with cal := x } :=
  h.parts rfl fun p hp => by
    cases p with
    | cal => exact absurd hl hp
    | _ => rfl

theorem setPush {x : PushSt} (h : d.Only r l e) (hl : Part.push ∈ l := by decide) : d.Only r l { e with push := x } :=
  h.parts rfl fun p hp => by
    cases p with
    | push => exact absurd hl hp
    | _ => rfl

end Dev.Only

/-! ### Sending and passing on -/

/-- From d to x messages went out over table links, and nothing else changed but the count of them. -/
structure Dev.TableSent (d x : Dev) : Prop where
  only : d.Only (fun _ => false) [.tbl, .out] x
  tbl : x.tbl = { d.tbl with sent := x.tbl.sent }

namespace Dev.TableSent

variable {d x y : Dev}

theorem refl (d : Dev) : d.TableSent d := ⟨Only.refl _ _ d, rfl⟩

theorem trans (h : d.TableSent x) (k : x.TableSent y) : d.TableSent y :=
  ⟨Sys2Proof.Only.trans h.only k.only, k.tbl.trans (by rw [h.tbl])⟩

theorem sendOn (d : Dev) (dst hops src epoch : Nat) (mk : Nat → TableHdr → OutMsg) (port : Nat) :
    d.TableSent (d.sendOn dst hops src epoch mk port) :=
  ⟨((Only.refl _ _ d).setTbl).send, rfl⟩

theorem foldl {α : Type} {f : Dev → α → Dev} (hf : ∀ (e : Dev) (a : α), e.TableSent (f e a)) :
    ∀ (l : List α) (d : Dev), d.TableSent (l.foldl f d) := by
  intro l
  induction l with
  | nil => exact refl
  | cons a l ih => exact fun d => trans (hf d a) (ih _)

theorem sendTable (d : Dev) (dst : Nat) (mk : Nat → TableHdr → OutMsg) : d.TableSent (d.sendTable dst mk) :=
  foldl (fun e p => sendOn e _ _ _ _ _ p) _ d

theorem decree (d : Dev) (l : List TableDecision) : d.TableSent (d.decree l) := by
  unfold Dev.decree
  split_ifs
  · exact sendTable d _ _
  · exact refl d

theorem relay (d : Dev) (port : Nat) (h : TableHdr) (mk : Nat → TableHdr → OutMsg) : d.TableSent (d.relay port h mk) := by
  unfold Dev.relay
  split_ifs
  · exact refl d
  all_goals exact foldl (fun e p => sendOn e _ _ _ _ _ p) _ d

/-- What is sent changes no register. -/
theorem get (h : d.TableSent x) (f : Fld) : x.get f = d.get f := h.only.1 f rfl

theorem alarms (h : d.TableSent x) : x.tbl.alarms = d.tbl.alarms := by rw [h.tbl]

theorem grouped (h : d.TableSent x) : x.grouped = d.grouped := by
  rw [Dev.grouped, Dev.grouped, Dev.table, Dev.table, h.get, congrArg TblSt.part h.tbl]

theorem rules (h : d.TableSent x) : x.rules = d.rules := by rw [Dev.rules, Dev.rules, h.grouped, Dev.on, Dev.on, h.get]

end Dev.TableSent

/-! ### Taking a message -/

/-- The block once a message of another member is taken and passed on (R548, R550). -/
def Dev.passed (d : Dev) (port : Nat) (h : TableHdr) (mk : Nat → TableHdr → OutMsg) : Dev := (d.noteEpoch h).relay port h mk

/-- To take a message and pass it on changes no register, and of the parts what is told and what is sent. -/
theorem Dev.passed_only (d : Dev) (port : Nat) (h : TableHdr) (mk : Nat → TableHdr → OutMsg) :
    d.Only (fun _ => false) [.tbl, .out] (d.passed port h mk) :=
  Sys2Proof.Only.trans (b := d.noteEpoch h) ((Only.refl _ _ d).setTbl) (TableSent.relay (d.noteEpoch h) port h mk).only

/-- The epoch that the message carries is noted as its sender's. -/
theorem Dev.passed_tbl (d : Dev) (port : Nat) (h : TableHdr) (mk : Nat → TableHdr → OutMsg) :
    (d.passed port h mk).tbl =
      { d.tbl with epochs := Tab.set d.tbl.epochs h.src h.epoch, sent := (d.passed port h mk).tbl.sent } :=
  (TableSent.relay (d.noteEpoch h) port h mk).tbl

theorem Dev.passed_get (d : Dev) (port : Nat) (h : TableHdr) (mk : Nat → TableHdr → OutMsg) (f : Fld) :
    (d.passed port h mk).get f = d.get f := (d.passed_only port h mk).1 f rfl

theorem Dev.passed_grouped (d : Dev) (port : Nat) (h : TableHdr) (mk : Nat → TableHdr → OutMsg) :
    (d.passed port h mk).grouped = d.grouped := by
  rw [grouped, grouped, table, table, passed_get, congrArg TblSt.part (d.passed_tbl port h mk)]

theorem Dev.passed_rules (d : Dev) (port : Nat) (h : TableHdr) (mk : Nat → TableHdr → OutMsg) :
    (d.passed port h mk).rules = d.rules := by rw [rules, rules, passed_grouped, on, on, passed_get]

theorem Dev.passed_forMe (d : Dev) (port : Nat) (h : TableHdr) (mk : Nat → TableHdr → OutMsg) :
    (d.passed port h mk).forMe h = d.forMe h := by rw [forMe, forMe, ownIdx, ownIdx, passed_get]

/-- A message whose body is data, once it is taken: passed on, and acted on where it is for this device. -/
theorem onTableData_of_takes {s : State} {port : Nat} {h : TableHdr} {mk : Nat → TableHdr → OutMsg} {act : Dev → Dev}
    (hport : port < 8) (htakes : s.dev.takes port h = true) :
    onTableData port h mk s act = .next { s with
      dev := if s.dev.forMe h then act (s.dev.passed port h mk) else s.dev.passed port h mk } := by
  have hme := s.dev.passed_forMe port h mk
  unfold onTableData onUnit
  rw [if_pos (decide_eq_true hport)]
  simp only [State.upd, htakes, Bool.not_true, Bool.false_eq_true, if_false]
  rw [← hme]
  rfl

/-- The frame of a message that is taken and acted on no further. -/
theorem State.passed_frame (s : State) (port : Nat) (h : TableHdr) (mk : Nat → TableHdr → OutMsg) :
    s.Only [] [.tbl, .out] { s with dev := s.dev.passed port h mk } := ⟨s.dev.passed_only port h mk, rfl, rfl⟩

/-- A request, taken: the ruler of the part acts on one that is for it. -/
theorem exec_forward_of_takes {s : State} {port : Nat} {h : TableHdr} {req : TableReq} (hport : port < 8)
    (htakes : s.dev.takes port h = true) :
    exec (.forward port h req) s = .next { s with
      dev := if s.dev.forMe h ∧ s.dev.rules then (s.dev.passed port h fun p h => .tableReq p h req).requested req
        else s.dev.passed port h fun p h => .tableReq p h req } := by
  have heq := onTableData_of_takes (mk := fun p h => .tableReq p h req)
    (act := fun d => if d.rules then d.requested req else d) hport htakes
  simp only [Dev.passed_rules, ← ite_and] at heq
  exact heq

/-- Decisions, taken: a member acts on those of its ruler. -/
theorem exec_state_of_takes {s : State} {port : Nat} {h : TableHdr} {l : List TableDecision} (hport : port < 8)
    (htakes : s.dev.takes port h = true) :
    exec (.state port h l) s = .next { s with
      dev := if s.dev.forMe h ∧ (s.dev.grouped && !s.dev.rules && h.src == s.dev.get R.PUSH_RULER) then
          l.foldl Dev.decided (s.dev.passed port h fun p h => .tableState p h l)
        else s.dev.passed port h fun p h => .tableState p h l } := by
  have heq := onTableData_of_takes (mk := fun p h => .tableState p h l)
    (act := fun d => if d.grouped && !d.rules && h.src == d.get R.PUSH_RULER then l.foldl Dev.decided d else d) hport htakes
  simp only [Dev.passed_rules, Dev.passed_grouped, Dev.passed_get, ← ite_and] at heq
  exact heq

/-- Readings of ambient light, taken. -/
theorem exec_ambient_of_takes {s : State} {port : Nat} {h : TableHdr} {lux : List Nat} (hport : port < 8)
    (htakes : s.dev.takes port h = true) (hme : s.dev.forMe h = true) :
    exec (.ambient port h lux) s = .next { s with
      dev := { s.dev.passed port h (fun p h => .tableAmbient p h lux) with
        cal := { (s.dev.passed port h fun p h => .tableAmbient p h lux).cal with
          ambPeers := Tab.set (s.dev.passed port h fun p h => .tableAmbient p h lux).cal.ambPeers h.src
            (lux, (s.dev.passed port h fun p h => .tableAmbient p h lux).time.now) } } } := by
  have heq := onTableData_of_takes (mk := fun p h => .tableAmbient p h lux)
    (act := fun d => { d with cal := { d.cal with ambPeers := Tab.set d.cal.ambPeers h.src (lux, d.time.now) } }) hport htakes
  rw [if_pos hme] at heq
  exact heq

/-- A request that this device does not rule on is noted and passed on (R549). -/
theorem forward_member_gives {s : State} {port : Nat} {h : TableHdr} {req : TableReq} (hport : port < 8)
    (htakes : s.dev.takes port h = true) (hrules : s.dev.rules = false) :
    (Instr.forward port h req).gives s fun t =>
      Tab.get? t.dev.tbl.epochs h.src = some h.epoch ∧ s.Only [] [.tbl, .out] t := by
  have heq : exec (.forward port h req) s =
      .next { s with dev := s.dev.passed port h fun p h => .tableReq p h req } := by
    rw [exec_forward_of_takes hport htakes, if_neg (by simp [hrules])]
  refine ⟨_, heq, ?_, s.passed_frame _ _ _⟩
  rw [Dev.passed_tbl]
  exact Tab.get?_set_same _ _ _

/-- A request for another member goes on by the port that leads to it (R548, R550). -/
theorem forward_relay_gives {s : State} {port p : Nat} {h : TableHdr} {req : TableReq} (hport : port < 8)
    (htakes : s.dev.takes port h = true) (hme : s.dev.forMe h = false) (hhops : h.hops < 7)
    (hfind : s.dev.tablePorts.find? (fun x => x.2 == h.dst) = some (p, h.dst)) (hp : p ≠ port) :
    (Instr.forward port h req).gives s fun t =>
      OutMsg.tableReq p ⟨h.src, h.dst, h.hops + 1, h.epoch, Tab.getD s.dev.tbl.sent p 0⟩ req ∈ t.dev.out ∧
      s.Only [] [.tbl, .out] t := by
  have heq : exec (.forward port h req) s =
      .next { s with dev := s.dev.passed port h fun p h => .tableReq p h req } := by
    rw [exec_forward_of_takes hport htakes, if_neg (by simp [hme])]
  refine ⟨_, heq, ?_, s.passed_frame _ _ _⟩
  obtain ⟨hown, hall⟩ : h.dst ≠ s.dev.ownIdx ∧ h.dst ≠ 0xFF := by simpa [Dev.forMe] using hme
  have stays : ¬(h.dst = (s.dev.noteEpoch h).ownIdx ∨ 7 ≤ h.hops) := by
    rintro (h' | h')
    · exact hown h'
    · omega
  have leaves : ((s.dev.noteEpoch h).portsTo h.dst).filter (· ≠ port) = [p] := by
    have hfind' : (s.dev.noteEpoch h).tablePorts.find? (fun x => x.2 == h.dst) = some (p, h.dst) := hfind
    rw [Dev.portsTo, hfind']
    exact List.filter_cons_of_pos (by simpa using hp)
  show _ ∈ ((s.dev.noteEpoch h).relay port h _).out
  rw [Dev.relay, if_neg stays, if_neg hall]
  simp only [leaves, List.foldl_cons, List.foldl_nil]
  exact List.mem_cons_self ..

/-! ### Alarms, brightness, ambient light -/

/-- An input that another member of this part has on is on here (R631). -/
theorem Dev.alarmOn_of_peer {d : Dev} {k peer v : Nat} (hgrouped : d.grouped = true) (hpeer : Tab.get? d.tbl.alarms peer = some v)
    (hv : tbit v k = true) : d.alarmOn k = true := by
  have : d.tbl.alarms.any (fun p => tbit p.2 k) = true := List.any_eq_true.2 ⟨_, Tab.mem_of_get? hpeer, hv⟩
  simp [alarmOn, hgrouped, this]

/-- The damage of what is shown changes the push part alone. -/
theorem Dev.shownDamage_only (d : Dev) (before : Nat → Bool) : d.Only (fun _ => false) [.push] (d.shownDamage before) := by
  have marked {x e : Dev} {ks : List Nat} (h : x.Only (fun _ => false) [.push] e) : x.Only (fun _ => false) [.push] (e.markAll ks) :=
    h.foldl (fun e k h => h.skipIf fun h => h.setPush) ks
  have layers {x e : Dev} {hs : List Nat} (h : x.Only (fun _ => false) [.push] e) :
      x.Only (fun _ => false) [.push] (hs.foldl (fun (d : Dev) h =>
        match d.handleOf? clsLayer h with
        | some c => d.markLayer c.record
        | none => d) e) :=
    h.foldl (fun e n h => by
      split
      · exact h.when marked
      · exact h) hs
  exact (Only.refl _ _ d).foldl (fun e k h => h.skipIf layers) _

/-- A register of the sense block has no part in whether an input is on. -/
theorem Dev.alarmOn_put (d : Dev) (f : Fld) (v k : Nat) (hf : R.PUSH_TABLE.key ≠ f.key) : (d.put f v).alarmOn k = d.alarmOn k := by
  have : (d.put f v).grouped = d.grouped := by rw [grouped, grouped, table, table, get_put_ne _ _ _ _ hf, put_tbl]
  rw [alarmOn, alarmOn, this]
  rfl

/-- An input that is on is shown on in `ALARM_STATUS` (R636). -/
theorem Dev.alarmRegs_get (d : Dev) :
    (d.alarmOn 0 = true → d.alarmRegs.get R.SNS_ON0 = 1) ∧ (d.alarmOn 1 = true → d.alarmRegs.get R.SNS_ON1 = 1) := by
  unfold alarmRegs
  extract_lets b a c x
  have kept (e : Dev) {f : Fld} {v : Nat} (hf : R.PUSH_TABLE.key ≠ f.key) : (e.put f v).alarmOn 1 = e.alarmOn 1 :=
    alarmOn_put e f v 1 hf
  have hx : x.alarmOn 1 = d.alarmOn 1 :=
    (kept _ (by decide)).trans <| (kept _ (by decide)).trans <| (kept _ (by decide)).trans <| kept d (by decide)
  constructor
  · intro on
    rw [get_put_ne _ _ _ _ (by decide), get_put_ne _ _ _ _ (by decide), get_put_ne _ _ _ _ (by decide),
      get_put_ne _ _ _ _ (by decide)]
    simp only [x]
    rw [get_put_ne _ _ _ _ (by decide), get_put_same, on]
    rfl
  · intro on
    rw [get_put_ne _ _ _ _ (by decide), get_put_same, hx, on]
    rfl

/-- What the ruler makes of the alarm states of a member. -/
theorem Dev.alarmsTold_spec (d : Dev) (peer : Nat) (on0 on1 : Bool) :
    Tab.get? (d.alarmsTold peer on0 on1).tbl.alarms peer = some ((if on0 then 1 else 0) + if on1 then 2 else 0) ∧
      (d.grouped = true → on0 = true → (d.alarmsTold peer on0 on1).get R.SNS_ON0 = 1) ∧
      (d.grouped = true → on1 = true → (d.alarmsTold peer on0 on1).get R.SNS_ON1 = 1) := by
  unfold alarmsTold
  generalize hx : ({ d with tbl := { d.tbl with
    alarms := Tab.set d.tbl.alarms peer ((if on0 then 1 else 0) + if on1 then 2 else 0) } } : Dev) = x
  have hpeer : Tab.get? x.tbl.alarms peer = some ((if on0 then 1 else 0) + if on1 then 2 else 0) := hx ▸ Tab.get?_set_same _ _ _
  have hgrouped : x.grouped = d.grouped := hx ▸ rfl
  have damaged := x.alarmRegs.shownDamage_only fun k => d.alarmOn k
  obtain ⟨shown0, shown1⟩ := x.alarmRegs_get
  refine ⟨(congrArg (fun t : TblSt => Tab.get? t.alarms peer) (damaged.2 .tbl (by decide))).trans hpeer, ?_, ?_⟩
  · rintro hg rfl
    have on := alarmOn_of_peer (hgrouped.trans hg) hpeer (show tbit _ 0 = true by cases on1 <;> rfl)
    exact (damaged.1 _ rfl).trans (shown0 on)
  · rintro hg rfl
    have on := alarmOn_of_peer (hgrouped.trans hg) hpeer (show tbit _ 1 = true by cases on0 <;> rfl)
    exact (damaged.1 _ rfl).trans (shown1 on)

/-- The alarm states are shared by sending them alone. -/
theorem Dev.TableSent.alarmShare (d : Dev) : d.TableSent d.alarmShare := by
  unfold Dev.alarmShare
  split_ifs
  · exact .refl d
  · exact .decree d _
  · exact .sendTable d _ _

/-- The alarm states of a member, taken by the ruler of its part (R631). -/
theorem forward_alarms_gives {s : State} {port peer : Nat} {h : TableHdr} {on0 on1 : Bool} (hport : port < 8)
    (htakes : s.dev.takes port h = true) (hme : s.dev.forMe h = true) (hrules : s.dev.rules = true) :
    (Instr.forward port h (.alarms peer on0 on1)).gives s fun t =>
      Tab.get? t.dev.tbl.alarms peer = some ((if on0 then 1 else 0) + if on1 then 2 else 0) ∧
      (s.dev.grouped = true → on0 = true → t.dev.get R.SNS_ON0 = 1) ∧
      (s.dev.grouped = true → on1 = true → t.dev.get R.SNS_ON1 = 1) ∧ t.hbm = s.hbm ∧ t.pending = s.pending := by
  generalize hx : s.dev.passed port h (fun p h => .tableReq p h (.alarms peer on0 on1)) = x
  have heq : exec (.forward port h (.alarms peer on0 on1)) s =
      .next { s with dev := (x.alarmsTold peer on0 on1).alarmShare } := by
    rw [exec_forward_of_takes hport htakes, if_pos ⟨hme, hrules⟩, hx]
    rfl
  have shared := Dev.TableSent.alarmShare (x.alarmsTold peer on0 on1)
  have hgrouped : x.grouped = s.dev.grouped := hx ▸ s.dev.passed_grouped _ _ _
  obtain ⟨held, shown0, shown1⟩ := x.alarmsTold_spec peer on0 on1
  rw [hgrouped] at shown0 shown1
  exact ⟨_, heq, shared.alarms ▸ held, fun hg h0 => (shared.get _).trans (shown0 hg h0),
    fun hg h1 => (shared.get _).trans (shown1 hg h1), rfl, rfl⟩

/-- A decision of this member's ruler on brightness (R384). -/
theorem state_bright_gives {s : State} {port b : Nat} {h : TableHdr} (hport : port < 8) (htakes : s.dev.takes port h = true)
    (hme : s.dev.forMe h = true) (hgrouped : s.dev.grouped = true) (hrules : s.dev.rules = false)
    (hsrc : h.src = s.dev.get R.PUSH_RULER) :
    (Instr.state port h [.bright b]).gives s fun t => t.dev.cal.bRuler = some b ∧ s.Only [] [.cal, .tbl, .out] t := by
  generalize hx : s.dev.passed port h (fun p h => .tableState p h [.bright b]) = x
  have heq : exec (.state port h [.bright b]) s = .next { s with dev := { x with cal := { x.cal with bRuler := some b } } } := by
    rw [exec_state_of_takes hport htakes, if_pos ⟨hme, by simp [hgrouped, hrules, hsrc]⟩, hx]
    rfl
  refine ⟨_, heq, rfl, ?_, rfl, rfl⟩
  have passed : s.dev.Only (fun _ => false) [.tbl, .out] x := hx ▸ s.dev.passed_only _ _ _
  exact (Sys2Proof.Only.mono passed (fun _ h => h) (by decide)).setCal

/-- Decisions of a device that is not this member's ruler. -/
theorem state_other_gives {s : State} {port : Nat} {h : TableHdr} {l : List TableDecision} (hport : port < 8)
    (htakes : s.dev.takes port h = true) (hsrc : h.src ≠ s.dev.get R.PUSH_RULER) :
    (Instr.state port h l).gives s fun t => s.Only [] [.tbl, .out] t := by
  have heq : exec (.state port h l) s = .next { s with dev := s.dev.passed port h fun p h => .tableState p h l } := by
    rw [exec_state_of_takes hport htakes, if_neg (by simp [hsrc])]
  exact ⟨_, heq, s.passed_frame _ _ _⟩

/-- The readings of ambient light of another member (R384). -/
theorem ambient_gives {s : State} {port : Nat} {h : TableHdr} {lux : List Nat} (hport : port < 8)
    (htakes : s.dev.takes port h = true) (hme : s.dev.forMe h = true) :
    (Instr.ambient port h lux).gives s fun t =>
      Tab.get? t.dev.cal.ambPeers h.src = some (lux, s.dev.time.now) ∧ s.Only [] [.cal, .tbl, .out] t := by
  generalize hx : s.dev.passed port h (fun p h => .tableAmbient p h lux) = x
  have heq := exec_ambient_of_takes (lux := lux) hport htakes hme
  rw [hx] at heq
  have passed : s.dev.Only (fun _ => false) [.tbl, .out] x := hx ▸ s.dev.passed_only _ _ _
  have htime : x.time = s.dev.time := passed.2 .time (by decide)
  refine ⟨_, heq, (Tab.get?_set_same _ _ _).trans (by rw [htime]), ?_, rfl, rfl⟩
  exact (Sys2Proof.Only.mono passed (fun _ h => h) (by decide)).setCal

/-! ### Bytes of a surface written -/

/-- From s to t the bytes have been written where addr says, one after the other, and every other byte reads as before. -/
structure State.Wrote (addr : Nat → Nat) (bs : List Byte) (s t : State) : Prop where
  canonical : t.canonical
  outside : ∀ a, (∀ i < bs.length, addr i ≠ a) → Memory.get t.hbm a = Memory.get s.hbm a
  inside : (∀ i i', i < bs.length → i' < bs.length → addr i = addr i' → i = i') →
    ∀ i (hi : i < bs.length), Memory.get t.hbm (addr i) = bs[i]

namespace State.Wrote

variable {addr addr' : Nat → Nat} {xs ys : List Byte} {s t u : State}

theorem nil (h : s.canonical) : s.Wrote addr [] s := ⟨h, fun _ _ => rfl, fun _ i hi => absurd hi (Nat.not_lt_zero i)⟩

theorem congr (h : s.Wrote addr xs t) (ha : ∀ i < xs.length, addr i = addr' i) : s.Wrote addr' xs t := by
  obtain ⟨canonical, outside, inside⟩ := h
  refine ⟨canonical, fun a hne => outside a fun i hi => ha i hi ▸ hne i hi, fun inj i hi => ?_⟩
  rw [← ha i hi]
  exact inside (fun i i' hi hi' h => inj i i' hi hi' (by rw [← ha i hi, ← ha i' hi', h])) i hi

/-- A run of bytes written after another. -/
theorem append (h : s.Wrote addr xs t) (k : t.Wrote (fun i => addr (xs.length + i)) ys u) : s.Wrote addr (xs ++ ys) u := by
  refine ⟨k.canonical, fun a ha => ?_, fun inj i hi => ?_⟩
  · simp only [List.length_append] at ha
    exact (k.outside a fun i hi => ha _ (by omega)).trans (h.outside a fun i hi => ha _ (by omega))
  · simp only [List.length_append] at inj hi
    by_cases hx : i < xs.length
    · rw [List.getElem_append_left hx, k.outside _ fun i' hi' he => ?_]
      · exact h.inside (fun i i' hi hi' => inj i i' (by omega) (by omega)) i hx
      · have := inj _ _ (by omega) (by omega) he
        omega
    · have last := k.inside (fun i i' hi hi' he => by
        have := inj _ _ (by omega) (by omega) he
        omega) (i - xs.length) (by omega)
      rw [List.getElem_append_right (by omega)]
      rwa [Nat.add_sub_cancel' (by omega)] at last

/-- A piece written in one run of addresses. -/
theorem piece (s : State) (a : Nat) (bs : List Byte) (h : s.canonical) : s.Wrote (fun i => a + i) bs (s.writePiece a bs).2 := by
  have hhbm : (s.writePiece a bs).2.hbm = Memory.putAll s.hbm a bs := by
    unfold State.writePiece
    dsimp only
    split <;> rfl
  refine ⟨s.wf_writePiece a bs h, fun x hx => ?_, fun _ i hi => ?_⟩
  · rw [hhbm]
    refine Memory.get_putAll_ne bs s.hbm a x h ?_
    by_contra hin
    exact hx (x - a) (by omega) (by omega)
  · rw [hhbm]
    exact Memory.get_putAll_same bs s.hbm a i hi h

end State.Wrote

/-- Within a flit the addresses of a surface's data follow one another. -/
theorem Surf.addr_add (u : Surf) {off i : Nat} (h : i < 32 - off % 32) : u.addr (off + i) = u.addr off + i := by
  have hstripe : (off + i) / 4096 = off / 4096 := by omega
  have hrest : (off + i) % 4096 = off % 4096 + i := by omega
  simp only [Surf.addr, hstripe, hrest]
  omega

/-- Data cut at flits is written where the surface's addresses say. -/
theorem State.putPieces_wrote (u : Surf) : ∀ (n : Nat) (s : State) (off : Nat) (bs : List Byte), bs.length ≤ n → s.canonical →
    s.Wrote (fun i => u.addr (off + i)) bs (s.putPieces u false (chunks n off bs)).2 := by
  intro n
  induction n with
  | zero =>
    intro s off bs hn h
    obtain rfl := List.length_eq_zero_iff.1 (Nat.le_zero.1 hn)
    exact .nil h
  | succ n ih =>
    intro s off bs hn h
    cases bs with
    | nil => exact .nil h
    | cons b t =>
      have first : s.Wrote (fun i => u.addr (off + i)) ((b :: t).take (32 - off % 32))
          (s.writePiece (u.addr off) ((b :: t).take (32 - off % 32))).2 :=
        (Wrote.piece s (u.addr off) _ h).congr fun i hi => (u.addr_add (by rw [List.length_take] at hi; omega)).symm
      have rest := (ih _ (off + (32 - off % 32)) ((b :: t).drop (32 - off % 32))
        (by rw [List.length_drop]; omega) first.canonical).congr (addr' := fun i =>
          u.addr (off + (((b :: t).take (32 - off % 32)).length + i))) fun i hi => by
            rw [List.length_drop] at hi
            rw [List.length_take, Nat.min_eq_left (by omega), Nat.add_assoc]
      have whole := first.append rest
      rw [List.take_append_drop] at whole
      exact whole

/-- What writing data of a surface changes of the block: the poison of flits, and the count of written bytes. -/
theorem State.surfPut_only (s : State) (u : Surf) (off : Nat) (bs : List Byte) :
    s.dev.Only (inBlocks [5]) [.mem] (s.surfPut u false off bs).2.dev ∧ (s.surfPut u false off bs).2.pending = s.pending := by
  have piece (s : State) (a : Nat) (bs : List Byte) :
      s.dev.Only (inBlocks [5]) [.mem] (s.writePiece a bs).2.dev := by
    unfold State.writePiece
    dsimp only
    split
    · exact (Only.refl _ _ _).setMem
    · exact Only.refl _ _ _
  have pieces : ∀ (l : List (Nat × List Byte)) (s : State), s.dev.Only (inBlocks [5]) [.mem] (s.putPieces u false l).2.dev := by
    intro l
    induction l with
    | nil => exact fun s => Only.refl _ _ _
    | cons p l ih => exact fun s => Sys2Proof.Only.trans (piece s _ _) (ih _)
  have counted (d : Dev) (a n : Nat) : d.Only (inBlocks [5]) [.mem] (d.countWrite a n) := by
    unfold Dev.countWrite
    exact Dev.Only.when (Only.refl _ _ d) fun h => h.bump
      (inBlocks_of_mem (by simp only [R.STK_WR_BYTES, Fld.key, List.mem_singleton]; omega))
  exact ⟨Sys2Proof.Only.trans (pieces _ s) (counted _ _ _), (Sound.surfPut s u false off bs).2⟩

theorem State.surfPut_wrote (s : State) (u : Surf) (off : Nat) (bs : List Byte) (h : s.canonical) :
    s.Wrote (fun i => u.addr (off + i)) bs (s.surfPut u false off bs).2 := by
  obtain ⟨canonical, outside, inside⟩ := State.putPieces_wrote u bs.length s off bs le_rfl h
  exact ⟨canonical, outside, inside⟩

/-! ### Rows of a frame -/

/-- Row j of a message written, where the surface has it. -/
def State.putRow (u : Surf) (body : List Byte) (first len : Nat) (s : State) (j : Nat) : State :=
  if first + j < u.h then (s.surfPut u false ((first + j) * u.pitch) (slice body (16 + j * len) len)).2 else s

/-- From s to t the first n rows of a message have been written into the surface. -/
structure State.RowsPut (u : Surf) (body : List Byte) (first len n : Nat) (s t : State) : Prop where
  only : s.dev.Only (inBlocks [5]) [.mem] t.dev
  pending : t.pending = s.pending
  canonical : t.canonical
  rows : ∀ j < n, first + j < u.h → t.surfGet u ((first + j) * u.pitch) len = slice body (16 + j * len) len
  outside : ∀ a, (∀ j i, j < n → first + j < u.h → i < len → u.addr ((first + j) * u.pitch + i) ≠ a) →
    Memory.get t.hbm a = Memory.get s.hbm a

theorem length_slice (bs : List Byte) (off n : Nat) : (slice bs off n).length = n := by
  simp only [slice, List.length_append, List.length_replicate, List.length_take]
  omega

/-- Different bytes of count rows lie at different addresses. -/
def Surf.apart (u : Surf) (first len count : Nat) : Prop :=
  ∀ j j' i i', j < count → j' < count → i < len → i' < len →
    u.addr ((first + j) * u.pitch + i) = u.addr ((first + j') * u.pitch + i') → j = j' ∧ i = i'

/-- One row more. -/
theorem State.RowsPut.succ {u : Surf} {body : List Byte} {first len n count : Nat} {s t : State} (h : RowsPut u body first len n s t)
    (hn : n < count) (inj : u.apart first len count) : RowsPut u body first len (n + 1) s (t.putRow u body first len n) := by
  obtain ⟨only, pending, canonical, rows, outside⟩ := h
  unfold putRow
  split_ifs with hrow
  · obtain ⟨only', pending'⟩ := t.surfPut_only u ((first + n) * u.pitch) (slice body (16 + n * len) len)
    obtain ⟨canonical', outside', inside'⟩ := t.surfPut_wrote u ((first + n) * u.pitch) (slice body (16 + n * len) len) canonical
    simp only [length_slice] at outside' inside'
    refine ⟨Sys2Proof.Only.trans only only', pending'.trans pending, canonical', fun j hj hin => ?_, fun a ha => ?_⟩
    · rcases Nat.lt_succ_iff_lt_or_eq.1 hj with hlt | rfl
      · refine (List.map_congr_left fun i hi => ?_).trans (rows j hlt hin)
        refine outside' _ fun i' hi' he => ?_
        have := (inj n j i' i hn (by omega) hi' (List.mem_range.1 hi) he).1
        omega
      · refine List.ext_getElem (by simp [surfGet, length_slice]) fun i hi _ => ?_
        have hi : i < len := by simpa [surfGet] using hi
        simp only [surfGet, List.getElem_map, List.getElem_range]
        exact inside' (fun i i' hi hi' he => (inj j j i i' hn hn hi hi' he).2) i hi
    · exact (outside' a fun i hi => ha n i (Nat.lt_succ_self n) hrow hi).trans
        (outside a fun j i hj => ha j i (Nat.lt_succ_of_lt hj))
  · refine ⟨only, pending, canonical, fun j hj hin => ?_, fun a ha => outside a fun j i hj => ha j i (Nat.lt_succ_of_lt hj)⟩
    rcases Nat.lt_succ_iff_lt_or_eq.1 hj with hlt | rfl
    · exact rows j hlt hin
    · exact absurd hin hrow

/-- Rows written one after the other. -/
theorem State.putRows_spec {u : Surf} {body : List Byte} {first len count : Nat} {s : State} (hs : s.canonical)
    (inj : u.apart first len count) :
    ∀ n ≤ count, RowsPut u body first len n s ((List.range n).foldl (State.putRow u body first len) s) := by
  intro n
  induction n with
  | zero => exact fun _ => ⟨Only.refl _ _ _, rfl, hs, fun j hj => absurd hj (Nat.not_lt_zero j), fun _ _ => rfl⟩
  | succ n ih =>
    intro hn
    rw [List.range_succ, List.foldl_append]
    exact (ih (by omega)).succ (by omega) inj

/-- Every row of a message is among the rows received. -/
theorem mem_rowsReceived (first count : Nat) (l : List Nat) : ∀ j < count,
    first + j ∈ (List.range count).foldl (fun (l : List Nat) j => if first + j ∈ l then l else (first + j) :: l) l := by
  induction count with
  | zero => exact fun j hj => absurd hj (Nat.not_lt_zero j)
  | succ n ih =>
    intro j hj
    rw [List.range_succ, List.foldl_append, List.foldl_cons, List.foldl_nil]
    rcases Nat.lt_succ_iff_lt_or_eq.1 hj with hlt | rfl
    · split
      · exact ih j hlt
      · exact List.mem_cons_of_mem _ (ih j hlt)
    · split
      · assumption
      · exact List.mem_cons_self ..

/-- A frame that is ready keeps what it is being received as. -/
theorem Remote.finish_same (r : Remote) (height : Nat) :
    (r.finish height).ts = r.ts ∧ (r.finish height).slot = r.slot ∧ (r.finish height).rows = r.rows := by
  unfold Remote.finish
  split
  · split <;> exact ⟨rfl, rfl, rfl⟩
  · exact ⟨rfl, rfl, rfl⟩

/-- A message of type 5 whose header and body are read, once it is taken. -/
theorem exec_frame_of_takes {s : State} {port : Nat} {h : TableHdr} {bytes body : List Byte} (hport : port < 8)
    (hread : readTable 5 bytes = some (h, body)) (htakes : s.dev.takes port h = true) (hme : s.dev.forMe h = true)
    (hlen : 16 ≤ body.length) :
    exec (.frame port bytes) s =
      .next (State.remoteRows { s with dev := s.dev.passed port h (tableBytes 5 body) } h.src body) := by
  have htype : byteAt bytes 0 = 5 := by
    unfold readTable at hread
    split_ifs at hread with hbad
    by_contra hne
    exact hbad (.inr (.inl hne))
  have hme' := (s.dev.passed_forMe port h (tableBytes 5 body)).trans hme
  show onTable port 5 bytes s (fun h body s => if 16 ≤ body.length then s.remoteRows h.src body else s) = _
  unfold onTable
  rw [if_neg (by omega), if_neg (not_not.2 htype)]
  simp only [hread, htakes, Bool.not_true, Bool.false_eq_true, if_false, if_pos hlen]
  exact congrArg Host.Outcome.next (if_pos hme')

/-- What is passed on has no part in which rows are read here. -/
theorem Dev.passed_rowsWanted (d : Dev) (port : Nat) (h : TableHdr) (mk : Nat → TableHdr → OutMsg) (dev n : Nat) :
    (d.passed port h mk).rowsWanted dev n = d.rowsWanted dev n := by
  have : (d.passed port h mk).ch = d.ch := (d.passed_only port h mk).2 .ch (by decide)
  simp only [rowsWanted, liveOf, chansOf, this]

/-- Rows that no layer here reads are passed over. -/
theorem frame_unread_gives {s : State} {port : Nat} {h : TableHdr} {bytes body : List Byte} (hport : port < 8)
    (hread : readTable 5 bytes = some (h, body)) (htakes : s.dev.takes port h = true) (hme : s.dev.forMe h = true)
    (hlen : 16 ≤ body.length) (hwant : s.dev.rowsWanted h.src (leAt body 0 4) = []) :
    (Instr.frame port bytes).gives s fun t => s.Only [] [.tbl, .out] t := by
  refine ⟨_, exec_frame_of_takes hport hread htakes hme hlen, ?_⟩
  have hwant' := (s.dev.passed_rowsWanted port h (tableBytes 5 body) h.src (leAt body 0 4)).trans hwant
  unfold State.remoteRows
  simp only [hwant', List.isEmpty_nil, true_or, if_true]
  exact s.passed_frame _ _ _

/-- The rows of a message as it describes them: n of them from the first, each of len bytes. -/
structure RowsFit (body : List Byte) (count len : Nat) : Prop where
  some : 0 < count
  whole : body.length = 16 + len * count
  words : len % 4 = 0
  wide : 0 < len
  ingest : handleCls (leAt body 0 4) = clsIngest
  index : handleIdx (leAt body 0 4) < 512

/-- The frame as it stands once a message's rows are in. -/
def Remote.received (r : Remote) (want : List (Nat × Nat)) (first count height : Nat) : Remote :=
  let rows := (List.range count).foldl (fun (l : List Nat) j => if first + j ∈ l then l else (first + j) :: l) r.rows
  let r := { r with rows := rows }
  if want.all (fun (w : Nat × Nat) => (List.range (w.2 - w.1)).all (fun j => decide (w.1 + j ∈ rows))) then r.finish height else r

theorem Remote.received_spec (r : Remote) (want : List (Nat × Nat)) (first count height : Nat) :
    (r.received want first count height).ts = r.ts ∧ (r.received want first count height).slot = r.slot ∧
      ∀ j < count, first + j ∈ (r.received want first count height).rows := by
  unfold Remote.received
  dsimp only
  split
  · obtain ⟨hts, hslot, hrows⟩ := Remote.finish_same { r with
      rows := (List.range count).foldl (fun (l : List Nat) j => if first + j ∈ l then l else (first + j) :: l) r.rows } height
    exact ⟨hts, hslot, fun j hj => hrows ▸ mem_rowsReceived first count r.rows j hj⟩
  · exact ⟨rfl, rfl, mem_rowsReceived first count r.rows⟩

/-- Rows of the frame being received are written into its surface and noted as received (R549, R550). -/
theorem State.remoteRows_of_receiving {s : State} {dev : Nat} {body : List Byte} {r : Remote} {u : Surf}
    (hwant : s.dev.rowsWanted dev (leAt body 0 4) ≠ [])
    (fit : RowsFit body (leAt body 10 2) ((body.length - 16) / leAt body 10 2))
    (hr : Tab.get? s.dev.tbl.remote (dev * 2 ^ 32 + leAt body 0 4) = some r) (hts : r.ts = leAt body 4 4)
    (hu : s.dev.surf? (remoteKey dev (handleIdx (leAt body 0 4)) r.slot) = some u)
    (hw : u.w = (body.length - 16) / leAt body 10 2 / 4)
    (hh : u.h = ((s.dev.rowsWanted dev (leAt body 0 4)).map (·.2)).foldl max 0) :
    s.remoteRows dev body =
      ((List.range (leAt body 10 2)).foldl
        (State.putRow u body (leAt body 8 2) ((body.length - 16) / leAt body 10 2)) s).upd fun d =>
          { d with
            tbl := { d.tbl with
              remote := Tab.set d.tbl.remote (dev * 2 ^ 32 + leAt body 0 4)
                (r.received (s.dev.rowsWanted dev (leAt body 0 4)) (leAt body 8 2) (leAt body 10 2)
                  (((s.dev.rowsWanted dev (leAt body 0 4)).map (·.2)).foldl max 0)) } } := by
  obtain ⟨hsome, hwhole, hwords, hwide, hingest, hindex⟩ := fit
  have goes : ¬((s.dev.rowsWanted dev (leAt body 0 4)).isEmpty = true ∨ leAt body 10 2 = 0 ∨
      body.length ≠ 16 + (body.length - 16) / leAt body 10 2 * leAt body 10 2 ∨
      (body.length - 16) / leAt body 10 2 % 4 ≠ 0 ∨ (body.length - 16) / leAt body 10 2 = 0 ∨
      handleCls (leAt body 0 4) ≠ clsIngest ∨ 512 ≤ handleIdx (leAt body 0 4)) := by
    rintro (h | h | h | h | h | h | h)
    exacts [hwant (List.isEmpty_iff.1 h), by omega, h hwhole, h hwords, by omega, h hingest, by omega]
  have surface : s.dev.remoteSurf (remoteKey dev (handleIdx (leAt body 0 4)) r.slot) ((body.length - 16) / leAt body 10 2 / 4)
      (((s.dev.rowsWanted dev (leAt body 0 4)).map (·.2)).foldl max 0) = some (u, s.dev) := by
    unfold Dev.remoteSurf
    simp only [hu]
    exact if_pos ⟨hw, hh⟩
  unfold State.remoteRows
  simp only [if_neg goes, hr, Option.getD_some, ← hts, ne_eq, not_true_eq_false, false_and, if_false, if_true, surface]
  rfl

/-- Rows of the frame being received lie in its surface once the message is taken (R549, R550). -/
theorem frame_rows_gives {s : State} {port : Nat} {h : TableHdr} {bytes body : List Byte} {r : Remote} {u : Surf} (hport : port < 8)
    (hread : readTable 5 bytes = some (h, body)) (htakes : s.dev.takes port h = true) (hme : s.dev.forMe h = true)
    (hcanonical : s.canonical) (hlen : 16 ≤ body.length) (hwant : s.dev.rowsWanted h.src (leAt body 0 4) ≠ [])
    (fit : RowsFit body (leAt body 10 2) ((body.length - 16) / leAt body 10 2))
    (hr : Tab.get? s.dev.tbl.remote (h.src * 2 ^ 32 + leAt body 0 4) = some r) (hts : r.ts = leAt body 4 4)
    (hu : s.dev.surf? (remoteKey h.src (handleIdx (leAt body 0 4)) r.slot) = some u)
    (hw : u.w = (body.length - 16) / leAt body 10 2 / 4)
    (hh : u.h = ((s.dev.rowsWanted h.src (leAt body 0 4)).map (·.2)).foldl max 0)
    (inj : u.apart (leAt body 8 2) ((body.length - 16) / leAt body 10 2) (leAt body 10 2)) :
    (Instr.frame port bytes).gives s fun t =>
      (∃ r', Tab.get? t.dev.tbl.remote (h.src * 2 ^ 32 + leAt body 0 4) = some r' ∧ r'.ts = leAt body 4 4 ∧ r'.slot = r.slot ∧
        ∀ j, j < leAt body 10 2 → leAt body 8 2 + j ∈ r'.rows) ∧
      (∀ j, j < leAt body 10 2 → leAt body 8 2 + j < u.h →
        t.surfGet u ((leAt body 8 2 + j) * u.pitch) ((body.length - 16) / leAt body 10 2) =
          slice body (16 + j * ((body.length - 16) / leAt body 10 2)) ((body.length - 16) / leAt body 10 2)) ∧
      (∀ a, (∀ j i, j < leAt body 10 2 → leAt body 8 2 + j < u.h → i < (body.length - 16) / leAt body 10 2 →
          u.addr ((leAt body 8 2 + j) * u.pitch + i) ≠ a) →
        Memory.get t.hbm a = Memory.get s.hbm a) ∧
      s.Within [5] [.tbl, .mem] t := by
  generalize hx : s.dev.passed port h (tableBytes 5 body) = x
  have passed : s.dev.Only (fun _ => false) [.tbl, .out] x := hx ▸ s.dev.passed_only port h (tableBytes 5 body)
  have hwanted : x.rowsWanted h.src (leAt body 0 4) = s.dev.rowsWanted h.src (leAt body 0 4) := hx ▸ s.dev.passed_rowsWanted ..
  have hremote : x.tbl.remote = s.dev.tbl.remote := by rw [← hx, Dev.passed_tbl]
  have hsurf : x.surf? = s.dev.surf? := by unfold Dev.surf?; rw [show x.mem = s.dev.mem from passed.2 .mem (by decide)]
  have heq := exec_frame_of_takes hport hread htakes hme hlen
  rw [hx, State.remoteRows_of_receiving (s := { s with dev := x }) (r := r) (u := u) (hwanted.symm ▸ hwant) fit (hremote ▸ hr) hts
    (hsurf.symm ▸ hu) hw (hwanted.symm ▸ hh)] at heq
  obtain ⟨only, pending, -, rows, outside⟩ :=
    State.putRows_spec (s := { s with dev := x }) (body := body) hcanonical inj (leAt body 10 2) le_rfl
  obtain ⟨hts', hslot, hrows⟩ := r.received_spec (x.rowsWanted h.src (leAt body 0 4)) (leAt body 8 2) (leAt body 10 2)
    (((x.rowsWanted h.src (leAt body 0 4)).map (·.2)).foldl max 0)
  refine ⟨_, heq, ⟨_, Tab.get?_set_same _ _ _, hts'.trans hts, hslot, hrows⟩, rows, outside, ?_, pending⟩
  exact Dev.Only.setTbl (Sys2Proof.Only.trans (Sys2Proof.Only.mono passed (fun _ _ => rfl) (by decide))
    (Sys2Proof.Only.mono only (fun _ h => h) (by decide)))

end Sys2Proof.Machine

open Sys2Proof Sys2Proof.Machine

/-- Settles O35: what a message changes before it is acted on is the epoch of its sender and what is passed on; the ruler's part,
the member's part and the rows of a frame are each one change after that. -/
theorem membersForwardDecideAndShare : Obligations.MembersForwardDecideAndShare := by
  unfold Obligations.MembersForwardDecideAndShare
  refine fun s port h hport htakes => ⟨fun hme peer on0 on1 => forward_alarms_gives hport htakes hme,
    fun _ req => forward_member_gives hport htakes,
    fun hme b hgrouped hrules => ⟨state_bright_gives hport htakes hme hgrouped hrules, fun hsrc l => state_other_gives hport htakes hsrc⟩,
    fun hme lux => ambient_gives hport htakes hme, fun p req hme hhops hfind hp => forward_relay_gives hport htakes hme hhops hfind hp,
    fun bytes body hread hme hcanonical hlen => ⟨frame_unread_gives hport hread htakes hme hlen, ?_⟩⟩
  intro hwant hsome hwhole hwords hwide hingest hindex r hr hts u hu hw hh inj
  exact frame_rows_gives hport hread htakes hme hcanonical hlen hwant ⟨hsome, hwhole, hwords, hwide, hingest, hindex⟩ hr hts hu hw hh inj

end

section
/-! SUPPORT. A state whose channels list a sense channel of index 256, beyond the 256 of R102, and a contact that it holds. -/

namespace Sys2Proof.Machine

/-- SENSE_CREATE of three slots: one plane, rung 7, the region of the pixel at (0, 0), 64 entries, `PI_ADDR` 8, one contact. -/
def senseEntry : List Byte :=
  [0x96, 3] ++ List.replicate 6 0 ++ [1, 0, 0, 7, 0, 0, 0, 0, 1, 0, 1, 0] ++ List.replicate 8 0 ++ [64, 0, 0, 0, 8] ++
    List.replicate 7 0 ++ [1] ++ List.replicate 55 0

/-- A running device of one square, which is told of as sensed and is not sensed: it has no plane. A contact on it belongs to
sense channel 256, whose registers are those of channel 0. Queue 0 holds one entry. -/
def straySenseIndex : State where
  dev :=
    { regs := [((R.SQ_SIZE_LOG2 0).key, 4), ((R.SQ_EN 0).key, 1), ((R.SQ_STATE 0).key, 1), ((R.SQ_DB 0).key, 3),
        ((R.CQ_SIZE_LOG2 0).key, 4), (R.ADM_STATE.key, admNormal), (R.PWR_SU_STATE.key, suRun)]
      ch := { chans := [(chanKey clsSense 256, { gen := 1, record := putLe (List.replicate 64 0) 24 4 64 })] }
      geo := { width := 8, height := 8, squares := [(0, { flags := 0, x := 0, y := 0, w := 1, h := 1, tileType := 0, calSet := 0 })] }
      sns := { squares := [(0, { state := 1 })], contacts := [
        { id := 0, square := 0, plane := 0, cells := [], order := 0, opened := 0, owner := some (256, mkHandle 1 clsSense 256),
          told := true, x := 0, y := 0, area := 0, peak := 0, edge := false, persistent := false, absorb := none }] } }

/-- The producer index of sense channel i that a command leaves. -/
def piAfter (o : Out) (i : Nat) : Option Nat :=
  match o with
  | .next t => some (t.dev.get (R.SCH_PI i))
  | _ => none

theorem piAfter_next (t : State) (i : Nat) : piAfter (.next t) i = some (t.dev.get (R.SCH_PI i)) := rfl

/-- The square that is no longer sensed ends its contact with a report to channel 256, which counts in the register of
channel 0. -/
theorem straySenseIndex_pi : piAfter (exec (.senseCreate 0 senseEntry) straySenseIndex) 0 = some 1 := by decide +kernel

end Sys2Proof.Machine

open Sys2Proof Sys2Proof.Machine

/-- Refutes O17: the statement speaks of every state, also of one where sense channel 256 stands, whose registers are those of
channel 0. SENSE_CREATE then takes index 0, and the contact that channel 256 loses leaves `PI` of channel 0 at 1. -/
theorem not_admittedCreatesMakeChannels : ¬ Obligations.AdmittedCreatesMakeChannels := by
  unfold Obligations.AdmittedCreatesMakeChannels
  intro h
  obtain ⟨-, -, -, hsense⟩ := h straySenseIndex 0 0 senseEntry (by decide) (by decide) (by decide +kernel)
  obtain ⟨t, ht, -, -, -, -, hpi, -⟩ := hsense (by decide +kernel) (by decide +kernel) (by decide +kernel) (by decide +kernel)
    (by decide +kernel) (by decide +kernel) (by decide +kernel) (by decide +kernel) (by decide +kernel) (by decide +kernel)
  have counted := straySenseIndex_pi
  rw [ht, piAfter_next, hpi] at counted
  exact absurd counted (by decide)

end

section
/-! SUPPORT. Writes of dictionary objects that act on the block: what a write that ends at once leaves, and the pip that is failed
by command. -/

namespace Sys2Proof.Machine

/-! ### A write that acts and ends -/

/-- A write that no entry, event or response tells of ends as it is. -/
theorem Dev.endWrite_untold {d before : Dev} {w : ObjWrite} {st : Nat} (hst : st ≠ stLocked ∧ st ≠ stLimit)
    (hidx : w.idx < 0x7000 ∨ 0x8000 ≤ w.idx) (hans : w.answer st (d.remainOf w) = none) : d.endWrite before w st = d := by
  have hplain : ¬(st = stLocked ∨ st = stLimit) := by tauto
  have hsecret : ¬(0x7000 ≤ w.idx ∧ w.idx < 0x8000) := by omega
  have entries : before.entriesOf w st = [] := by
    unfold entriesOf writeEntries
    exact if_neg (by tauto)
  unfold endWrite
  rw [if_neg hplain, entries]
  dsimp only [List.foldl_nil]
  rw [if_neg (by tauto), hans]
  rfl

/-- A write by one of the five roles, where the object is served. -/
theorem directWrite_of_serves {s : State} {role idx sub typ : Nat} {raw : List Byte} (hrole : role < 5)
    (hserves : s.dev.serves role idx = true) :
    directWrite role idx sub typ raw s = .next { s with dev := s.dev.objWrite (writeOf role default idx sub typ raw) } := by
  unfold directWrite onUnit
  rw [if_pos (decide_eq_true hrole)]
  simp only [State.upd, hserves, if_true]

/-- A write that passes its checks acts at once, where its object is not journaled and nothing waits for a response. -/
theorem Dev.objWrite_acts {d : Dev} {role idx sub typ : Nat} {env : StartEnv} {raw : List Byte}
    (hinner : innerIdx idx sub typ = idx) (hacc : (objDef? idx sub).map (·.acc.journaled) = some false) (hidx : 0x8000 ≤ idx)
    (hst : d.writeStatus role idx sub typ raw = stOk) (hacted : (d.actWrite (reqOf role) env idx sub raw).1 = stOk) :
    d.objWrite (writeOf role env idx sub typ raw) = (d.actWrite (reqOf role) env idx sub raw).2 := by
  have inner : (writeOf role env idx sub typ raw).inner = idx := hinner
  have hst' : d.writeStatus (writeOf role env idx sub typ raw).r.role idx sub typ raw = stOk := hst
  obtain ⟨o, ho, hjournaled⟩ := Option.map_eq_some_iff.1 hacc
  have himage : idx ≠ 0x2001 := by omega
  unfold objWrite
  rw [inner]
  dsimp only [writeOf] at hst' ⊢
  simp only [hst', ne_eq, not_true_eq_false, if_false, if_neg himage, ho, hjournaled, Bool.false_eq_true, hacted]
  exact endWrite_untold (by decide) (.inr hidx) rfl

/-- Big-endian bytes read as the number that they were written from. -/
theorem beOf_beBytes (n : Nat) : ∀ v : Nat, beOf (beBytes n v) = v % 256 ^ n := by
  induction n with
  | zero => intro v; simp [beOf, beBytes, leBytes, Nat.mod_one]
  | succ n ih =>
    intro v
    have last : beOf (beBytes (n + 1) v) = beOf (beBytes n (v / 256)) * 256 + v % 256 := by
      simp [beOf, beBytes, leBytes, List.foldl_append]
    rw [last, ih, Nat.pow_succ, Nat.mul_comm (256 ^ n), Nat.mod_mul]
    omega

/-! ### A pip that is failed by command -/

/-- From d to e pip p has failed, and nothing outside the blocks of admission and the fabric has changed but what is noted. -/
structure Dev.PipOut (p : Nat) (d e : Dev) : Prop where
  only : d.Only (inBlocks [3, 4]) (notes ++ [.pip]) e
  state : e.get (R.PIP_STATE p) = pipFailed
  active : tbit (e.get (R.CUP_ACTIVE (cupOf p))) (p % 8) = false
  todo : e.todo p = []

namespace Dev.PipOut

variable {p : Nat} {d e x : Dev}

/-- The fields of a failed pip are those of the fabric. -/
theorem state_block (p : Nat) : (R.PIP_STATE p).key / 0x4000000 = 4 := by simp only [R.PIP_STATE, Fld.key]; omega

theorem active_block (c : Nat) : (R.CUP_ACTIVE c).key / 0x4000000 = 4 := by simp only [R.CUP_ACTIVE, Fld.key]; omega

/-- Another field of the two blocks. -/
theorem put {f : Fld} {v : Nat} (h : d.PipOut p e) (hf : f.key / 0x4000000 ∈ [3, 4]) (hs : (R.PIP_STATE p).key ≠ f.key)
    (hc : (R.CUP_ACTIVE (cupOf p)).key ≠ f.key) : d.PipOut p (e.put f v) :=
  ⟨h.only.put (inBlocks_of_mem hf), (get_put_ne _ _ _ _ hs).trans h.state, (congrArg (tbit · _) (get_put_ne _ _ _ _ hc)).trans h.active,
    h.todo⟩

/-- What is noted. -/
theorem note (h : d.PipOut p e) (k : e.Noted x) : d.PipOut p x := by
  have hs := k.1 (R.PIP_STATE p) (noteBlock_eq_false.2 (by rw [state_block]; decide))
  have hc := k.1 (R.CUP_ACTIVE (cupOf p)) (noteBlock_eq_false.2 (by rw [active_block]; decide))
  have hpip : x.pip = e.pip := k.2 .pip (by decide)
  exact ⟨h.only.note k inBlocks_of_noteBlock, hs.trans h.state, (congrArg (tbit · _) hc).trans h.active,
    (by rw [Dev.todo, hpip]; exact h.todo)⟩

theorem raiseD {n y : Nat} (h : d.PipOut p e) : d.PipOut p (e.raiseD n y) := h.note (Noting.raiseD_any e n y)

/-- A change of the pips' entries that leaves this one none. -/
theorem setPip {y : PipSt} (h : d.PipOut p e) (hy : Tab.getD y.todo p [] = []) : d.PipOut p { e with pip := y } :=
  ⟨h.only.parts rfl fun part hpart => by
    cases part with
    | pip => exact absurd (by decide) hpart
    | _ => rfl, h.state, h.active, hy⟩

theorem when {c : Prop} {_ : Decidable c} (h : d.PipOut p e) (hx : c → d.PipOut p e → d.PipOut p x) :
    d.PipOut p (if c then x else e) := by
  split_ifs with hc
  · exact hx hc h
  · exact h

theorem skipIf {c : Prop} {_ : Decidable c} (h : d.PipOut p e) (hx : d.PipOut p e → d.PipOut p x) :
    d.PipOut p (if c then e else x) := by
  split_ifs
  · exact h
  · exact hx h

theorem foldl {α : Type} {f : Dev → α → Dev} (h : d.PipOut p e) (hf : ∀ (e : Dev) (a : α), d.PipOut p e → d.PipOut p (f e a)) :
    ∀ l : List α, d.PipOut p (l.foldl f e) := by
  intro l
  induction l generalizing e with
  | nil => exact h
  | cons a l ih => exact ih (hf e a h)

/-- An active pip is not the one that failed, nor does it stand in its register. -/
theorem state_ne_of_active (h : d.PipOut p e) {n : Nat} (hn : e.pipActive n = true) : (R.PIP_STATE p).key ≠ (R.PIP_STATE n).key := by
  intro hkey
  have same : R.PIP_STATE p = R.PIP_STATE n := by
    have : p % 256 = n % 256 := by simp only [R.PIP_STATE, Fld.key] at hkey; omega
    simp only [R.PIP_STATE, this]
  have hfailed : e.get (R.PIP_STATE n) = pipFailed := same ▸ h.state
  simp [Dev.pipActive, hfailed] at hn

/-- An active pip that begins its idle period. -/
theorem beginIdle {n : Nat} (h : d.PipOut p e) (hn : e.pipActive n = true) : d.PipOut p (e.beginIdle n) := by
  have hne := h.state_ne_of_active hn
  have cleared : d.PipOut p (e.putWork n none) := h.setPip h.todo
  have idle : d.PipOut p ((e.putWork n none).put (R.PIP_ATTEMPT n) 0) := by
    refine cleared.put ?_ ?_ ?_
    · simp only [R.PIP_ATTEMPT, Fld.key, List.mem_cons, List.not_mem_nil, or_false]; omega
    · simp only [R.PIP_STATE, R.PIP_ATTEMPT, Fld.key]; omega
    · simp only [R.CUP_ACTIVE, R.PIP_ATTEMPT, Fld.key]; omega
  have shown (v : Nat) : d.PipOut p (((e.putWork n none).put (R.PIP_ATTEMPT n) 0).putPip n v) := by
    refine idle.put ?_ hne ?_
    · simp [state_block]
    · simp only [R.CUP_ACTIVE, R.PIP_STATE, Fld.key]; omega
  unfold Dev.beginIdle
  dsimp only
  split
  · exact shown _
  · exact shown _

/-- Entries put in an orphan pool wake parked pips, never the failed one. -/
theorem orphan {c : Nat} {l : List Nat} (h : d.PipOut p e) : d.PipOut p (e.orphan c l) := by
  have pooled : d.PipOut p (({ e with pip := { e.pip with
      orphans := Tab.set e.pip.orphans c (Tab.getD e.pip.orphans c [] ++ l) } } : Dev).bump R.FAB_ORPHANED l.length) := by
    have filled : d.PipOut p { e with pip := { e.pip with
        orphans := Tab.set e.pip.orphans c (Tab.getD e.pip.orphans c [] ++ l) } } := h.setPip h.todo
    refine filled.put (f := R.FAB_ORPHANED) (by decide) ?_ ?_
    · simp only [R.PIP_STATE, R.FAB_ORPHANED, Fld.key]; omega
    · simp only [R.CUP_ACTIVE, R.FAB_ORPHANED, Fld.key]; omega
  refine h.skipIf fun _ => pooled.skipIf fun h => h.foldl (fun e v h => h.foldl (fun e i h => h.when fun hwake h => ?_) _) _
  simp only [Bool.and_eq_true] at hwake
  exact h.beginIdle hwake.1.1

/-- A status bit raised with its event, in a register of a cup's or a pip's faults. -/
theorem flagRaise {f : Fld} {n : Nat} (h : d.PipOut p e) (hf : f.key / 0x4000000 ∈ [3, 4]) (hs : (R.PIP_STATE p).key ≠ f.key)
    (hc : (R.CUP_ACTIVE (cupOf p)).key ≠ f.key) : d.PipOut p (e.flagRaise f n) := (h.put hf hs hc).raiseD

/-- A field of the admission block. -/
theorem putAdm {f : Fld} {v : Nat} (h : d.PipOut p e) (hf : f.key / 0x4000000 = 3) : d.PipOut p (e.put f v) := by
  refine h.put (by simp [hf]) (fun he => ?_) fun he => ?_
  · have := state_block p
    rw [he, hf] at this
    exact absurd this (by decide)
  · have := active_block (cupOf p)
    rw [he, hf] at this
    exact absurd this (by decide)

theorem short (h : d.PipOut p e) : d.PipOut p e.short :=
  (((h.putAdm (by decide)).raiseD).putAdm (by decide)).when fun _ h => h.putAdm (by decide)

theorem pipLoss {q : Nat} (h : d.PipOut p e) : d.PipOut p (e.pipLoss q) := by
  have counted : d.PipOut p (e.put (R.FAB_ACTIVE q) (e.activePips q).length) := by
    refine h.put ?_ ?_ ?_
    · simp only [R.FAB_ACTIVE, Fld.key, List.mem_cons, List.not_mem_nil, or_false]; omega
    · simp only [R.PIP_STATE, R.FAB_ACTIVE, Fld.key]; omega
    · simp only [R.CUP_ACTIVE, R.FAB_ACTIVE, Fld.key]; omega
  exact (((counted.putAdm (by decide)).raiseD).putAdm (by simp only [R.ADM_NPIPS, Fld.key]; omega)).skipIf short

theorem cupFlag {c lo : Nat} {f : Fld} (h : d.PipOut p e) (hf : f.key = (0x401008 + 0x100 * (c % 32)) * 64 + lo) (hlo : lo < 64) :
    d.PipOut p (e.cupFlag c f) := by
  refine h.flagRaise ?_ ?_ ?_
  · rw [hf, List.mem_cons, List.mem_singleton]; omega
  · rw [hf]; simp only [R.PIP_STATE, Fld.key]; omega
  · rw [hf]; simp only [R.CUP_ACTIVE, Fld.key]; omega

end Dev.PipOut

/-- A bit cleared reads 0. -/
theorem tbit_clrBit (v i : Nat) : tbit (clrBit v i) i = false := by
  unfold clrBit
  split_ifs with h
  · have hone : v / 2 ^ i % 2 = 1 := by simpa [tbit, bit] using h
    have hsub : (v - 2 ^ i) / 2 ^ i = v / 2 ^ i - 1 := by simpa using Nat.sub_mul_div v (2 ^ i) 1
    simp only [tbit, bit, hsub, beq_eq_false_iff_ne]
    omega
  · exact Bool.eq_false_iff.2 h

theorem clrBit_le (v i : Nat) : clrBit v i ≤ v := by
  unfold clrBit
  split_ifs
  · exact Nat.sub_le _ _
  · exact le_rfl

/-- A pip that fails, its bit among the active ones of its cup cleared, has nothing left to do (R189). -/
theorem Dev.pipOut_shut (d : Dev) (p : Nat) :
    d.PipOut p ((((d.putPip p pipFailed).put (R.CUP_ACTIVE (cupOf p))
      (clrBit (d.get (R.CUP_ACTIVE (cupOf p))) (p % 8))).putTodo p []).putWork p none) := by
  generalize hx : d.putPip p pipFailed = x
  generalize hv : clrBit (d.get (R.CUP_ACTIVE (cupOf p))) (p % 8) = v
  have small : v < 2 ^ 8 := hv ▸ (clrBit_le _ _).trans_lt (d.get_lt _)
  have hstate : x.get (R.PIP_STATE p) = pipFailed := hx ▸ get_put_same _ _ _
  have only : d.Only (inBlocks [3, 4]) (notes ++ [.pip]) (x.put (R.CUP_ACTIVE (cupOf p)) v) :=
    hx ▸ ((Only.refl _ _ d).put (inBlocks_of_mem (by simp [PipOut.state_block]))).put
      (inBlocks_of_mem (by simp [PipOut.active_block]))
  refine ⟨?_, ?_, ?_, ?_⟩
  · refine Dev.Only.parts (Dev.Only.put (f := R.PIP_REMAIN p) (v := 0) (only.parts rfl fun part hpart => ?_)
      (inBlocks_of_mem ?_)) rfl fun part hpart => ?_
    · cases part with
      | pip => exact absurd (by decide) hpart
      | _ => rfl
    · simp only [R.PIP_REMAIN, Fld.key, List.mem_cons, List.not_mem_nil, or_false]; omega
    · cases part with
      | pip => exact absurd (by decide) hpart
      | _ => rfl
  · refine (get_put_ne _ _ _ _ ?_).trans ((get_put_ne _ _ _ _ ?_).trans hstate)
    · simp only [R.PIP_STATE, R.PIP_REMAIN, Fld.key]; omega
    · simp only [R.PIP_STATE, R.CUP_ACTIVE, Fld.key]; omega
  · have read : (x.put (R.CUP_ACTIVE (cupOf p)) v).get (R.CUP_ACTIVE (cupOf p)) = v :=
      (get_put_same _ _ _).trans (Nat.mod_eq_of_lt small)
    refine (congrArg (tbit · _) ((get_put_ne _ _ _ _ ?_).trans read)).trans (hv ▸ tbit_clrBit _ _)
    simp only [R.CUP_ACTIVE, R.PIP_REMAIN, Fld.key]; omega
  · exact (congrArg (Option.getD · []) (Tab.get?_set_same _ _ _)).trans rfl

/-- Status bits raised with their events leave every pending bit. -/
theorem Pending.flagRaise (d : Dev) (f : Fld) (ev : Nat) (h : f.key < 0x4008000 ∨ 0x400A000 ≤ f.key) :
    d.PendLe (d.flagRaise f ev) := trans (flag d f h) (raiseD _ _ _)

theorem Pending.short (d : Dev) : d.PendLe d.short := by
  unfold Dev.short
  have told : d.PendLe ((d.flagRaise R.ADM_PACE_SHORT 67).bump R.ADM_SHED_CNT 1) :=
    trans (flagRaise _ _ _ (by decide)) (bump _ _ _ (by decide))
  exact ite_of (trans told (put _ _ _ (by decide))) told

theorem Pending.pipLoss (d : Dev) (q : Nat) : d.PendLe (d.pipLoss q) := by
  unfold Dev.pipLoss
  have told (n : Nat) : d.PendLe (((d.put (R.FAB_ACTIVE q) n).flagRaise R.ADM_PIP_LOSS 72).put (R.ADM_NPIPS q) n) := by
    refine trans (trans (put _ _ _ ?_) (flagRaise _ _ _ (by decide))) (put _ _ _ ?_)
    · simp only [R.FAB_ACTIVE, Fld.key]; omega
    · simp only [R.ADM_NPIPS, Fld.key]; omega
  exact ite_of (told _) (trans (told _) (short _))

theorem Pending.cupFlag {c lo : Nat} {f : Fld} (d : Dev) (hf : f.key = (0x401008 + 0x100 * (c % 32)) * 64 + lo) (hlo : lo < 64) :
    d.PendLe (d.cupFlag c f) := flagRaise _ _ _ (by omega)

/-- An active pip that fails is FAILED, active no more, and told of by its own event (R189). -/
theorem Dev.pipOut_failPip {d : Dev} {p : Nat} (hp : p < 256) (hactive : d.pipActive p = true) :
    d.PipOut p (d.failPip p false) ∧ (d.failPip p false).pends (96 + p) = true := by
  have out (l : List Nat) := (d.pipOut_shut p).orphan (c := cupOf p) (l := l)
  generalize hx : (((d.putPip p pipFailed).put (R.CUP_ACTIVE (cupOf p))
    (clrBit (d.get (R.CUP_ACTIVE (cupOf p))) (p % 8))).orphanPip p) = x
  have shut : d.PipOut p x := hx ▸ out _
  have told : d.PipOut p (x.pipFlag p (R.PIP_FAULT p)) := by
    refine shut.flagRaise ?_ ?_ ?_
    · simp only [R.PIP_FAULT, Fld.key, List.mem_cons, List.not_mem_nil, or_false]; omega
    · simp only [R.PIP_STATE, R.PIP_FAULT, Fld.key]; omega
    · simp only [R.CUP_ACTIVE, R.PIP_FAULT, Fld.key]; omega
  have heq : d.failPip p false = (x.pipFlag p (R.PIP_FAULT p)).cupFlag (cupOf p) (R.CUP_PIP_FAULT (cupOf p)) := by
    unfold failPip
    simp only [hactive, Bool.not_true, Bool.false_eq_true, if_false, hx]
  have pends : (x.pipFlag p (R.PIP_FAULT p)).pends (96 + p) = true := x.pends_flagRaise (R.PIP_FAULT p) (by omega)
  rw [heq]
  exact ⟨told.cupFlag (lo := 2) rfl (by omega),
    Pending.cupFlag (c := cupOf p) (f := R.CUP_PIP_FAULT (cupOf p)) (lo := 2) _ rfl (by omega) (96 + p) (by omega) pends⟩

/-- The failure of an active pip, for which a reserve stands in or its quarter loses pace (R189, R192). -/
theorem Dev.pipOut_pipFails {d : Dev} {p : Nat} (hp : p < 256) (hactive : d.pipActive p = true) :
    d.PipOut p (d.pipFails p false) ∧ (d.pipFails p false).pends (96 + p) = true := by
  obtain ⟨out, pends⟩ := pipOut_failPip hp hactive
  unfold pipFails
  simp only [hactive, Bool.not_true, Bool.false_eq_true, if_false]
  generalize d.failPip p false = x at out pends ⊢
  split_ifs
  · exact ⟨out, pends⟩
  · have told : d.PipOut p (x.cupFlag (cupOf p) (R.CUP_RES_NONE (cupOf p))) := out.cupFlag (lo := 5) rfl (by omega)
    exact ⟨told.pipLoss, Pending.pipLoss _ _ (96 + p) (by omega)
      (Pending.cupFlag (c := cupOf p) (f := R.CUP_RES_NONE (cupOf p)) (lo := 5) _ rfl (by omega) (96 + p) (by omega) pends)⟩

/-- A command fails an active pip once its ledger entry is made (R92, R96). -/
theorem Dev.pipOut_failByCommand {d : Dev} {r : Req} {p : Nat} (hp : p < 256) (hactive : d.pipActive p = true) :
    d.PipOut p (d.failByCommand r p) ∧ (d.failByCommand r p).pends (96 + p) = true := by
  unfold failByCommand
  extract_lets c m slot
  generalize hx : d.ledger _ = x
  have noted : d.Noted x := hx ▸ Noting.ledger _ _
  have same (f : Fld) (hf : f.key / 0x4000000 = 4) : x.get f = d.get f := noted.1 f (noteBlock_eq_false.2 (by rw [hf]; decide))
  have hslot : x.slotOf p = d.slotOf p := by rw [slotOf, slotMap, noted.2 .pip (by decide), slotOf, slotMap]
  have hactive' : x.pipActive p = true := by
    unfold pipActive at hactive ⊢
    rw [hslot, same _ (PipOut.state_block p)]
    exact hactive
  obtain ⟨⟨only, state, active, todo⟩, pends⟩ := pipOut_pipFails hp hactive'
  exact ⟨⟨Sys2Proof.Only.trans ((Only.refl _ _ d).note noted inBlocks_of_noteBlock) only, state, active, todo⟩, pends⟩

/-- PIP_FAIL of an active pip, by a role whose write passes its checks. -/
theorem pipFailCmd_gives {s : State} {role p : Nat} (hrole : role < 5) (hp : p < 256) (hserves : s.dev.serves role 0xA000 = true)
    (hst : s.dev.writeStatus role 0xA000 3 tU8 (beBytes 1 p) = stOk) (hactive : s.dev.pipActive p = true) :
    (Instr.pipFailCmd role p).gives s fun t =>
      t.dev.get (R.PIP_STATE p) = pipFailed ∧ tbit (t.dev.get (R.CUP_ACTIVE (cupOf p))) (p % 8) = false ∧
      t.dev.pends (96 + p) = true ∧ t.dev.todo p = [] ∧ t.hbm = s.hbm ∧ s.Within [3, 4] [.pip] t := by
  have value : beOf (beBytes 1 p) = p := (beOf_beBytes 1 p).trans (Nat.mod_eq_of_lt hp)
  have acted : s.dev.actWrite (reqOf role) default 0xA000 3 (beBytes 1 p) = (stOk, s.dev.failByCommand (reqOf role) p) := by
    simp [Dev.actWrite, value]
  have heq : exec (.pipFailCmd role p) s = .next { s with dev := s.dev.failByCommand (reqOf role) p } := by
    show execPipFailCmd role p s = _
    unfold execPipFailCmd
    rw [if_neg (by omega), directWrite_of_serves hrole hserves]
    rw [Dev.objWrite_acts rfl (by decide +kernel) (by decide) hst (by rw [acted]), acted]
  obtain ⟨⟨only, state, active, todo⟩, pends⟩ := Dev.pipOut_failByCommand (r := reqOf role) hp hactive
  exact ⟨_, heq, state, active, pends, todo, rfl, only, rfl⟩

end Sys2Proof.Machine
end

section
/-! SUPPORT. What a raised event and a ledger entry leave alone in the persistent store, the chain of the ledger, and the store's own
commands. -/

namespace Sys2Proof.Machine

/-! ### Events are told in the block of the event controller -/

/-- The fields of the event controller. -/
def eventBlock (k : Nat) : Bool := decide (k / 0x4000000 = 1)

/-- From d to e something was told: no field of another block and no part but the events and what is sent out has changed. -/
abbrev Dev.Tells (d e : Dev) : Prop := d.Only eventBlock [.events, .out] e

namespace Dev.Tells

variable {d e : Dev}

theorem mapEv {f : EvSt → EvSt} (h : d.Tells e) (hf : (f e.ev).still = e.ev.still := by rfl) : d.Tells (e.mapEv f) :=
  Sys2Proof.Only.trans h (Sys2Proof.Only.mapEv e f hf (by decide))

theorem putRing {r v : Nat} {f : Fld} (h : d.Tells e) (hr : r < 32)
    (hf : 0x100400 + 0x20 * r ≤ f.addr ∧ f.addr < 0x100420 + 0x20 * r ∧ f.lo < 64) : d.Tells (e.put f v) :=
  h.put (decide_eq_true (by unfold Fld.key; omega))

theorem told {f g : Fld} {n : Nat} (h : d.Tells e) (hf : eventBlock f.key = true) (hg : eventBlock g.key = true) :
    d.Tells ((e.bump f n).flag g) := (h.bump hf).flag hg

theorem msi {fn vec : Nat} (h : d.Tells e) : d.Tells (e.msi fn vec) := by
  unfold Dev.msi
  exact h.branch (fun h => told h (by decide) (by decide)) fun h => h.branch (fun h => mapEv h) fun h => h.send

theorem eringCount {r : Nat} (h : d.Tells e) : d.Tells (e.eringCount r) := by
  unfold Dev.eringCount
  exact h.branch (fun h => msi (mapEv h)) fun h => mapEv h

theorem eringLose {r : Nat} (h : d.Tells e) : d.Tells (e.eringLose r) := mapEv (told h (by decide) (by decide))

theorem eringStep {r tail phase : Nat} (h : d.Tells e) (hr : r < 32) : d.Tells (e.eringStep r tail phase) := by
  have tailed : d.Tells (e.put (R.ERING_TAIL r) tail) := putRing h hr (by simp only [R.ERING_TAIL]; omega)
  exact tailed.when fun h => putRing h hr (by simp only [R.ERING_PHASE]; omega)

theorem eringWrite {r : Nat} {rec : EvRec} (h : d.Tells e) (hr : r < 32) : d.Tells (e.eringWrite r rec) := by
  unfold Dev.eringWrite
  refine h.branch eringLose fun h => h.branch (fun h => ?_) fun h => ?_
  · exact eringLose (putRing h hr (by simp only [R.ERING_FULL]; omega))
  · exact eringCount (eringStep (mapEv h.send) hr)

theorem bankRecord {rec : EvRec} (h : d.Tells e) : d.Tells (e.bankRecord rec) :=
  h.skipIf fun h => h.branch (fun h => told h (by decide) (by decide)) fun h => mapEv h

theorem deliver {rec : EvRec} {b : Bool} (h : d.Tells e) : d.Tells (e.deliver rec b) := by
  unfold Dev.deliver
  have counted : d.Tells (e.bump R.EV_DELIVERED 1) := h.bump (by decide)
  exact ((counted.when msi).when fun h => eringWrite h (Dev.get_lt _ _)).when bankRecord

theorem deliverHold {rec : EvRec} (h : d.Tells e) : d.Tells (e.deliverHold rec) := (deliver h).skipIf fun h => mapEv h

theorem raiseOut {rec : EvRec} (h : d.Tells e) : d.Tells (e.raiseOut rec) := by
  unfold Dev.raiseOut
  refine h.skipIf fun h => ?_
  split
  · exact mapEv h
  · exact deliverHold h

theorem raiseCore {n x : Nat} (h : d.Tells e) (hn : n < 1024) : d.Tells (e.raiseCore n x) := by
  have pending : d.Tells (e.putMap R.EV_PEND n true) :=
    h.putMap (decide_eq_true (by simp only [R.EV_PEND, Fld.key]; omega))
  exact raiseOut (pending.when bankRecord)

theorem raiseCoreOnce {n : Nat} (h : d.Tells e) (hn : n < 1024) : d.Tells (e.raiseCoreOnce n) :=
  h.skipIf fun h => raiseCore (mapEv h) hn

end Dev.Tells

/-! ### A ledger entry -/

/-- The fields of the persistent store that a ledger entry changes. -/
def ledgerFields : List Fld :=
  [R.ST_LEDGER_SEQ, R.ST_LEDGER_PSEQ, R.ST_LEDGER_ENTRIES, R.ST_MRAM_WR_LINES, R.ST_UNREAD_LOSS, R.ST_SUPPRESSED, R.ST_SUPPRESS]

/-- The fields of the event controller, and those of the store that a ledger entry changes. -/
def entryFields (k : Nat) : Bool := eventBlock k || regsOf ledgerFields k

/-- From d to e entries were made: the store has changed in what entries change alone. -/
abbrev Dev.Enters (d e : Dev) : Prop := d.Only entryFields notes e

/-- The count of entries in the present second (R809). -/
def Dev.secondCount (d : Dev) : Nat × Nat × Nat := (d.bank.second, d.bank.inSecond, d.bank.droppedSecond)

namespace Dev.Enters

variable {d e x : Dev}

theorem tells (h : d.Enters e) (k : e.Tells x) : d.Enters x :=
  Sys2Proof.Only.trans h (Sys2Proof.Only.mono k (fun f hf => (Bool.or_eq_false_iff.1 hf).1) (by decide))

theorem mapBank {f : BankSt → BankSt} (h : d.Enters e) (hf : (f e.bank).still = e.bank.still := by rfl) : d.Enters (e.mapBank f) :=
  Sys2Proof.Only.trans h (Sys2Proof.Only.mapBank e f hf (by decide))

theorem raisedOnce {f : Fld} {n : Nat} (h : d.Enters e) (hf : entryFields f.key = true) (hn : n < 1024) :
    d.Enters ((e.flag f).raiseCoreOnce n) := tells (h.flag hf) (Dev.Tells.raiseCoreOnce (Only.refl _ _ _) hn)

theorem unreadLoss {prot : Bool} {seq : Nat} (h : d.Enters e) : d.Enters (e.unreadLoss prot seq) :=
  h.when fun h => raisedOnce h (by decide) (by decide)

theorem ledgerLine {prot : Bool} {tail : List Byte} (h : d.Enters e) : d.Enters (e.ledgerLine prot tail) := by
  unfold Dev.ledgerLine
  refine unreadLoss (((Dev.Only.put (mapBank h ?_) ?_).bump (by decide)).bump (by decide))
  · cases prot <;> rfl
  · cases prot <;> decide

theorem ledgerMore {prot : Bool} {n : Nat} : ∀ {e : Dev} {data : List Byte}, d.Enters e → d.Enters (e.ledgerMore prot n data) := by
  induction n with
  | zero => exact fun h => h
  | succ n ih => exact fun h => ih (ledgerLine h)

theorem ledgerWrite {r : LedReq} (h : d.Enters e) : d.Enters (e.ledgerWrite r) := ledgerMore (ledgerLine h)

theorem ledgerSecond (h : d.Enters e) : d.Enters e.ledgerSecond :=
  Dev.Only.skipIf (mapBank h) fun h => mapBank (ledgerWrite h)

theorem ledger {r : LedReq} (h : d.Enters e) : d.Enters (e.ledger r) := by
  unfold Dev.ledger
  refine h.skipIf fun h => h.branch (fun h => mapBank h) fun h => (h.skipIf ledgerSecond).branch ledgerWrite fun h =>
    h.branch (fun h => ledgerWrite (mapBank h)) fun h => ?_
  exact raisedOnce (Dev.Only.bump (mapBank h) (by decide)) (by decide) (by decide)

theorem raiseD {n y : Nat} (h : d.Enters e) (hn : n < 1024) : d.Enters (e.raiseD n y) :=
  (tells h (Dev.Tells.raiseCore (Only.refl _ _ _) hn)).when ledger

end Dev.Enters

/-! ### Commands of the store -/

/-- A change of what the banker holds. -/
theorem Dev.Only.setBank {r : Nat → Bool} {l : List Part} {d e : Dev} {x : BankSt} (h : d.Only r l e)
    (hl : Part.bank ∈ l ∧ Part.ledger ∈ l := by decide) : d.Only r l { e with bank := x } :=
  h.parts rfl fun p hp => by
    cases p with
    | bank => exact absurd hl.1 hp
    | ledger => exact absurd hl.2 hp
    | _ => rfl

/-- What is entered is noted. -/
theorem Dev.Enters.noted {d e : Dev} (h : d.Enters e) : d.Noted e := by
  refine Sys2Proof.Only.mono h (fun k hk => ?_) fun _ hp => hp
  obtain ⟨hev, hst⟩ := noteBlock_eq_false.1 hk
  refine Bool.or_eq_false_iff.2 ⟨decide_eq_false hev, regsOf_eq_false.2 fun f hf he => ?_⟩
  simp only [ledgerFields, List.mem_cons, List.not_mem_nil, or_false] at hf
  rcases hf with rfl | rfl | rfl | rfl | rfl | rfl | rfl <;> exact hst (he ▸ by decide)

/-- What the banker holds beside the ledger stands where a frame leaves it out. -/
theorem Dev.Only.held {α : Type} {r : Nat → Bool} {l : List Part} {d e : Dev} (f : BankSt → α) (h : d.Only r l e)
    (hl : Part.bank ∉ l := by decide) (hf : ∀ b, f b.still = f b := by exact fun _ => rfl) : f e.bank = f d.bank := by
  rw [← hf, h.2 .bank hl, hf]

/-- It stands where something was noted. -/
theorem Dev.Noted.held {α : Type} {d e : Dev} (f : BankSt → α) (h : d.Noted e) (hf : ∀ b, f b.still = f b := by exact fun _ => rfl) :
    f e.bank = f d.bank := Dev.Only.held f h (by decide) hf

/-- A block moved for wear warns of it where the worst line is worn (R811). -/
theorem Dev.wearWarn_spec (d : Dev) :
    d.wearWarn.bank.lastMove = d.bank.lastMove ∧
      (d.bank.wearWarned = false → 80000 < d.get R.ST_WORST_WRITES_K →
        d.wearWarn.bank.wearWarned = true ∧ d.wearWarn.pends 975 = true) := by
  have heq : d.wearWarn = if !d.bank.wearWarned && decide (80000 < d.get R.ST_WORST_WRITES_K) then
      (({ d with bank := { d.bank with wearWarned := true } } : Dev).raise 975).ledger ⟨false, 0x0702, 0x1F, 1, [], false⟩ else d := rfl
  rw [heq]
  generalize hx : ({ d with bank := { d.bank with wearWarned := true } } : Dev) = x
  have told : x.Noted ((x.raise 975).ledger ⟨false, 0x0702, 0x1F, 1, [], false⟩) :=
    Noting.trans (Noting.raise x 975 (by decide)) (Noting.ledger _ _)
  refine ⟨?_, fun hwarned hworst => ?_⟩
  · split
    · exact (told.held BankSt.lastMove).trans (hx ▸ rfl)
    · rfl
  · simp only [hwarned, hworst, Bool.not_false, decide_true, Bool.and_self, if_true]
    exact ⟨(told.held BankSt.wearWarned).trans (hx ▸ rfl), Pending.ledger _ _ 975 (by decide) (Pending.raised _ _ _ (by decide))⟩

theorem Dev.wearWarn_only {r : Nat → Bool} {l : List Part} {d e : Dev} (h : d.Only r l e) (hr : ∀ k, noteBlock k = true → r k = true)
    (hl : notes ⊆ l ∧ Part.bank ∈ l := by decide) : d.Only r l e.wearWarn := by
  obtain ⟨hnotes, hbank⟩ := hl
  unfold wearWarn
  refine h.when fun h => Dev.Only.note ?_ (Noting.ledger _ _) hr hnotes
  exact (h.setBank ⟨hbank, hnotes (by decide)⟩).note (Noting.raise _ _ (by decide)) hr hnotes

theorem exec_wearMove {s : State} (hrun : s.dev.bank.restarting = false) (hwrite : s.dev.bank.writeProtect = false)
    (hmove : s.dev.bank.lastMove ≠ some s.dev.sec) :
    exec .wearMove s = .next { s with
      dev := ((({ s.dev with bank := { s.dev.bank with lastMove := some s.dev.sec } } : Dev).bump R.ST_MRAM_WR_LINES 1024).ledger
        ⟨false, 0x0701, 0x1F, 1, [], false⟩).wearWarn } := by
  simp [exec, execWearMove, State.upd, hrun, hwrite, hmove]

/-- A block moves for wear once in a second (R811). -/
theorem wearMove_gives {s : State} (hrun : s.dev.bank.restarting = false) (hwrite : s.dev.bank.writeProtect = false)
    (hmove : s.dev.bank.lastMove ≠ some s.dev.sec) :
    Instr.wearMove.gives s fun t =>
      t.dev.bank.lastMove = some s.dev.sec ∧
      (s.dev.bank.wearWarned = false → 80000 < s.dev.get R.ST_WORST_WRITES_K →
        t.dev.bank.wearWarned = true ∧ t.dev.pends 975 = true) ∧ s.Noting [] [.bank] t := by
  refine ⟨_, exec_wearMove hrun hwrite hmove, ?_⟩
  generalize hd : ({ s.dev with bank := { s.dev.bank with lastMove := some s.dev.sec } } : Dev) = d
  have entered : d.Enters ((d.bump R.ST_MRAM_WR_LINES 1024).ledger ⟨false, 0x0701, 0x1F, 1, [], false⟩) :=
    Dev.Enters.ledger ((Only.refl _ _ d).bump (by decide))
  generalize (d.bump R.ST_MRAM_WR_LINES 1024).ledger ⟨false, 0x0701, 0x1F, 1, [], false⟩ = x at entered
  obtain ⟨moved, warned⟩ := x.wearWarn_spec
  refine ⟨?_, fun hwarned hworst => warned ?_ ?_, Dev.wearWarn_only ?_ orNote_of_noteBlock, rfl, rfl⟩
  · exact moved.trans ((entered.noted.held BankSt.lastMove).trans (hd ▸ rfl))
  · exact (entered.noted.held BankSt.wearWarned).trans (hd ▸ hwarned)
  · rw [entered.1 R.ST_WORST_WRITES_K (by decide), ← hd]
    exact hworst
  · have set : s.dev.Only (orNote []) (notes ++ [.bank]) d := hd ▸ (Only.refl _ _ s.dev).setBank
    exact set.note entered.noted orNote_of_noteBlock

theorem exec_wearMove_again {s : State} (hmove : s.dev.bank.lastMove = some s.dev.sec) : exec .wearMove s = .next s := by
  simp [exec, execWearMove, State.upd, hmove]

theorem exec_mramScrub_corrected {s : State} {corrected : List Nat} (hrun : s.dev.bank.restarting = false)
    (hwrite : s.dev.bank.writeProtect = false) (hen : s.dev.get R.ST_SCRUB_EN = 1) :
    exec (.mramScrub corrected none) s = .next { s with dev := s.dev.bump R.ST_MRAM_WR_LINES corrected.length } := by
  simp [exec, execMramScrub, State.upd, Dev.on, hrun, hwrite, hen]

theorem exec_mramScrub_failed {s : State} {corrected : List Nat} {line : Nat} (hrun : s.dev.bank.restarting = false)
    (hwrite : s.dev.bank.writeProtect = false) (hen : s.dev.get R.ST_SCRUB_EN = 1) :
    exec (.mramScrub corrected (some line)) s =
      .next { s with dev := (s.dev.bump R.ST_MRAM_WR_LINES corrected.length).retireBlock line } := by
  simp [exec, execMramScrub, State.upd, Dev.on, hrun, hwrite, hen]

/-- The lines that a scrub rewrites are counted (R812). -/
theorem mramScrub_corrected_gives {s : State} {corrected : List Nat} (hrun : s.dev.bank.restarting = false)
    (hwrite : s.dev.bank.writeProtect = false) (hen : s.dev.get R.ST_SCRUB_EN = 1) :
    (Instr.mramScrub corrected none).gives s fun t =>
      t.dev.get R.ST_MRAM_WR_LINES = (s.dev.get R.ST_MRAM_WR_LINES + corrected.length) % 2 ^ 64 ∧ s.Noting [] [] t :=
  ⟨_, exec_mramScrub_corrected hrun hwrite hen, Dev.get_bump_same _ _ _,
    (Only.refl (orNote []) notes s.dev).bump (orNote_of_noteBlock _ (by decide)), rfl, rfl⟩

/-- The block of a line that fails is retired (R812). -/
theorem Dev.retireBlock_spec (d : Dev) (line : Nat) :
    (d.retireBlock line).get R.ST_RETIRED_BLOCKS = (d.get R.ST_RETIRED_BLOCKS + 1) % 2 ^ 13 ∧
      (d.retireBlock line).get R.ST_RETIRE = 1 ∧ (d.retireBlock line).pends 974 = true ∧ d.Noted (d.retireBlock line) := by
  have heq : d.retireBlock line = ((((d.bump R.ST_RETIRED_BLOCKS 1).bump R.ST_MRAM_WR_LINES 1024).flag R.ST_RETIRE).raise 974).ledger
      ⟨false, 0x0700, 0x1F, 1, leBytes 4 (line / 1024) ++ leBytes 4 (line % 1024), false⟩ := rfl
  rw [heq]
  generalize hx : ((d.bump R.ST_RETIRED_BLOCKS 1).bump R.ST_MRAM_WR_LINES 1024).flag R.ST_RETIRE = x
  have entered : x.Enters ((x.raise 974).ledger ⟨false, 0x0700, 0x1F, 1, leBytes 4 (line / 1024) ++ leBytes 4 (line % 1024), false⟩) :=
    Dev.Enters.ledger (Dev.Enters.raiseD (Only.refl _ _ x) (by decide))
  have counted : d.Noted x :=
    hx ▸ (((Only.refl _ _ d).bump (by decide)).bump (by decide)).flag (by decide)
  refine ⟨(entered.1 R.ST_RETIRED_BLOCKS (by decide)).trans ?_,
    (entered.1 R.ST_RETIRE (by decide)).trans (hx ▸ get_flag_same _ _),
    Pending.ledger _ _ 974 (by decide) (Pending.raised _ _ _ (by decide)), Noting.trans counted entered.noted⟩
  rw [← hx, get_flag_ne _ _ _ (by decide), get_bump_ne _ _ _ _ (by decide), get_bump_same]
  rfl

theorem mramScrub_failed_gives {s : State} {corrected : List Nat} (line : Nat) (hrun : s.dev.bank.restarting = false)
    (hwrite : s.dev.bank.writeProtect = false) (hen : s.dev.get R.ST_SCRUB_EN = 1) :
    (Instr.mramScrub corrected (some line)).gives s fun t =>
      t.dev.get R.ST_RETIRED_BLOCKS = (s.dev.get R.ST_RETIRED_BLOCKS + 1) % 2 ^ 13 ∧ t.dev.get R.ST_RETIRE = 1 ∧
      t.dev.pends 974 = true ∧ s.Noting [] [] t := by
  obtain ⟨retired, flagged, pends, noted⟩ := (s.dev.bump R.ST_MRAM_WR_LINES corrected.length).retireBlock_spec line
  refine ⟨_, exec_mramScrub_failed hrun hwrite hen, retired.trans ?_, flagged, pends, ?_, rfl, rfl⟩
  · rw [Dev.get_bump_ne _ _ _ _ (by decide)]
  · have counted : s.dev.Noted (s.dev.bump R.ST_MRAM_WR_LINES corrected.length) := (Only.refl _ _ s.dev).bump (by decide)
    exact (Only.refl (orNote []) notes s.dev).note (Noting.trans counted noted) orNote_of_noteBlock

/-! ### The end of a second -/

theorem Dev.unreadLoss_bank (d : Dev) (prot : Bool) (seq : Nat) : (d.unreadLoss prot seq).bank = d.bank := by
  unfold unreadLoss
  have told := Tells.raiseCoreOnce (n := 971) (Only.refl _ _ (d.flag R.ST_UNREAD_LOSS)) (by decide)
  by_cases h : ledgerCap prot < seq ∧ d.objNat 0x8000 (if prot then 6 else 5) 0 < seq - ledgerCap prot
  · rw [if_pos h]
    exact told.2 .ledger (by decide)
  · rw [if_neg h]

theorem Dev.ledgerLine_secondCount (d : Dev) (prot : Bool) (tail : List Byte) :
    (d.ledgerLine prot tail).secondCount = d.secondCount := by
  unfold secondCount ledgerLine
  rw [unreadLoss_bank]
  cases prot <;> rfl

theorem Dev.ledgerMore_secondCount (prot : Bool) (n : Nat) :
    ∀ (d : Dev) (data : List Byte), (d.ledgerMore prot n data).secondCount = d.secondCount := by
  induction n with
  | zero => exact fun _ _ => rfl
  | succ n ih => exact fun d data => (ih _ _).trans (d.ledgerLine_secondCount _ _)

/-- An entry written leaves the count of the second. -/
theorem Dev.ledgerWrite_secondCount (d : Dev) (r : LedReq) : (d.ledgerWrite r).secondCount = d.secondCount :=
  (ledgerMore_secondCount _ _ _ _).trans (d.ledgerLine_secondCount _ _)

/-- The end of a second counts afresh, and one entry tells of what was dropped (R809). -/
theorem Dev.ledgerSecond_secondCount (d : Dev) :
    d.ledgerSecond.secondCount = (d.sec, (if d.bank.droppedSecond = 0 then 0 else 1), 0) := by
  unfold ledgerSecond
  extract_lets n x y
  by_cases hn : n = 0
  · rw [if_pos hn, if_pos hn]
    rfl
  · rw [if_neg hn, if_neg hn]
    have kept : y.secondCount = (d.sec, 0, 0) := x.ledgerWrite_secondCount _
    simp only [secondCount, Prod.mk.injEq] at kept
    obtain ⟨hsecond, -, hdropped⟩ := kept
    simp [secondCount, mapBank, hsecond, hdropped]

theorem ledgerSecondEnd_gives {s : State} (hrun : s.dev.bank.restarting = false) (hwrite : s.dev.bank.writeProtect = false) :
    Instr.ledgerSecondEnd.gives s fun t =>
      t.dev.bank.second = s.dev.sec ∧ t.dev.bank.droppedSecond = 0 ∧
      t.dev.bank.inSecond = (if s.dev.bank.droppedSecond = 0 then 0 else 1) ∧ s.Noting [] [.bank] t := by
  have heq : exec .ledgerSecondEnd s = .next { s with dev := s.dev.ledgerSecond } := by
    simp [exec, execLedgerSecondEnd, State.upd, hrun, hwrite]
  have counted := s.dev.ledgerSecond_secondCount
  simp only [Dev.secondCount, Prod.mk.injEq] at counted
  obtain ⟨hsecond, hin, hdropped⟩ := counted
  have only : s.dev.Only (orNote []) (notes ++ [.bank]) s.dev.ledgerSecond :=
    Dev.Only.note (Only.refl _ _ s.dev) (Noting.ledgerSecond _) orNote_of_noteBlock
  exact ⟨_, heq, hsecond, hdropped, hin, only, rfl, rfl⟩

/-! ### The chain of the ledger -/

/-- The first entry that does not follow from the one before, among those from SEQ on; the oldest entry kept vouches for the next
where it is not the first ever made (R808). -/
def firstBreak (ring : List Ledger) (seq : Nat) : Nat :=
  match ring with
  | [] => 0
  | l :: t => if l.seq = 1 then chainFail (l :: t) (List.replicate 16 0) seq else chainFail t l.lmac seq

/-- A chain that is verified is told of where it breaks. -/
theorem Dev.verifyChain_spec (d : Dev) (prot : Bool) (seq : Nat) :
    (d.verifyChain prot seq).bank.firstFail = firstBreak (d.ledgerRing prot).reverse seq ∧
      ((d.verifyChain prot seq).bank.firstFail ≠ 0 → (d.verifyChain prot seq).pends 985 = true) ∧
      d.Only (orNote []) (notes ++ [.bank]) (d.verifyChain prot seq) := by
  have heq : d.verifyChain prot seq =
      if firstBreak (d.ledgerRing prot).reverse seq = 0 then
        { d with bank := { d.bank with firstFail := firstBreak (d.ledgerRing prot).reverse seq } }
      else ({ d with bank := { d.bank with firstFail := firstBreak (d.ledgerRing prot).reverse seq } } : Dev).raiseLedger 985 0 0x1F := rfl
  rw [heq]
  generalize firstBreak (d.ledgerRing prot).reverse seq = bad
  have set : d.Only (orNote []) (notes ++ [.bank]) { d with bank := { d.bank with firstFail := bad } } :=
    (Only.refl _ _ d).setBank
  split_ifs with hbad
  · exact ⟨rfl, fun h => absurd hbad h, set⟩
  · have noted := Noting.raiseLedger ({ d with bank := { d.bank with firstFail := bad } } : Dev) 985 0 0x1F (by decide)
    exact ⟨noted.held BankSt.firstFail, fun _ => Pending.ledger _ _ 985 (by decide) (Pending.raised _ _ _ (by decide)),
      set.note noted orNote_of_noteBlock⟩

/-- A write of SEQ verifies the chain that the requester's cursor reads. -/
theorem chainVerify_gives {s : State} {role seq : Nat} (hrole : role < 5) (hseq : seq < 2 ^ 64)
    (hserves : s.dev.serves role 0x8002 = true) (hst : s.dev.writeStatus role 0x8002 1 tU64 (beBytes 8 seq) = stOk) :
    let prot := (s.dev.cursorOf (reqOf role).key).2 == 1
    let ring := (s.dev.ledgerRing prot).reverse
    (Instr.chainVerify role seq).gives s fun t =>
      (∀ l rest, ring = l :: rest → l.seq = 1 →
        t.dev.bank.firstFail = chainFail (l :: rest) (List.replicate 16 0) seq) ∧
      (∀ l rest, ring = l :: rest → l.seq ≠ 1 → t.dev.bank.firstFail = chainFail rest l.lmac seq) ∧
      (t.dev.bank.firstFail ≠ 0 → t.dev.pends 985 = true) ∧ s.Noting [] [.bank] t := by
  intro prot ring
  have value : beOf (beBytes 8 seq) = seq := (beOf_beBytes 8 seq).trans (Nat.mod_eq_of_lt (by omega))
  have acted : s.dev.actWrite (reqOf role) default 0x8002 1 (beBytes 8 seq) = (stOk, s.dev.verifyChain prot seq) := by
    simp [Dev.actWrite, value, prot]
  have heq : exec (.chainVerify role seq) s = .next { s with dev := s.dev.verifyChain prot seq } := by
    show execChainVerify role seq s = _
    unfold execChainVerify
    rw [if_neg (by omega), directWrite_of_serves hrole hserves,
      Dev.objWrite_acts rfl (by decide +kernel) (by decide) hst (by rw [acted]), acted]
  obtain ⟨first, pends, only⟩ := s.dev.verifyChain_spec prot seq
  refine ⟨_, heq, fun l rest hring hl => ?_, fun l rest hring hl => ?_, pends, only, rfl, rfl⟩
  · exact first.trans ((congrArg (firstBreak · seq) hring).trans (if_pos hl))
  · exact first.trans ((congrArg (firstBreak · seq) hring).trans (if_neg hl))

end Sys2Proof.Machine
end

section
/-! SUPPORT. An image loaded by a requester of the dictionary: what stands while it is taken, and what it leaves staged. -/

namespace Sys2Proof.Machine

/-- No view of an object is a field of the power block. -/
theorem views_block : ∀ v ∈ views, v.2.key / 0x4000000 ≠ 16 := by decide +kernel

theorem viewOf_block {key : Nat} {f : Fld} (h : viewOf key = some f) : f.key / 0x4000000 ≠ 16 := by
  obtain ⟨v, hv, rfl⟩ := Option.map_eq_some_iff.1 h
  exact views_block v (List.mem_of_find?_eq_some hv)

/-- What stands from the acceptance of an image to its journal transaction: the device runs on the geometry g, nothing is staged, and
MRAM takes writes. -/
structure Dev.Taking (g : GeoSt) (e : Dev) : Prop where
  runs : e.get R.PWR_SU_STATE = suRun
  geo : e.geo = g
  staged : e.bank.staged = none
  writes : e.bank.writeProtect = false
  status : e.bank.imageStatus = stOk

namespace Dev.Taking

variable {g : GeoSt} {e : Dev}

/-- A field that does not tell the state of start-up. -/
theorem put {f : Fld} {v : Nat} (h : e.Taking g) (hf : R.PWR_SU_STATE.key ≠ f.key) : (e.put f v).Taking g :=
  ⟨(get_put_ne _ _ _ _ hf).trans h.runs, h.geo, h.staged, h.writes, h.status⟩

/-- A field of another block than that of power. -/
theorem putOut {f : Fld} {v : Nat} (h : e.Taking g) (hf : f.key / 0x4000000 ≠ 16) : (e.put f v).Taking g :=
  h.put fun he => hf (he ▸ by decide)

theorem note {x : Dev} (h : e.Taking g) (k : e.Noted x) : x.Taking g :=
  ⟨(k.1 _ (by decide)).trans h.runs, (k.2 .geo (by decide)).trans h.geo, (k.held BankSt.staged).trans h.staged,
    (k.held BankSt.writeProtect).trans h.writes, (k.held BankSt.imageStatus).trans h.status⟩

theorem setSnk {x : SnkSt} (h : e.Taking g) : Dev.Taking g { e with snk := x } := ⟨h.runs, h.geo, h.staged, h.writes, h.status⟩

theorem setSns {x : SnsSt} (h : e.Taking g) : Dev.Taking g { e with sns := x } := ⟨h.runs, h.geo, h.staged, h.writes, h.status⟩

theorem setPush {x : PushSt} (h : e.Taking g) : Dev.Taking g { e with push := x } := ⟨h.runs, h.geo, h.staged, h.writes, h.status⟩

theorem send {m : OutMsg} (h : e.Taking g) : (e.send m).Taking g := ⟨h.runs, h.geo, h.staged, h.writes, h.status⟩

theorem ite {p : Prop} {_ : Decidable p} {x y : Dev} (h : x.Taking g) (k : y.Taking g) : (if p then x else y).Taking g := by
  split_ifs <;> assumption

theorem iteSnd {α : Type} {p : Prop} {_ : Decidable p} {x y : α × Dev} (h : x.2.Taking g) (k : y.2.Taking g) :
    (if p then x else y).2.Taking g := by split_ifs <;> assumption

theorem foldl {α : Type} {f : Dev → α → Dev} (h : e.Taking g) (hf : ∀ (e : Dev) (a : α), e.Taking g → (f e a).Taking g) :
    ∀ l : List α, (l.foldl f e).Taking g := by
  intro l
  induction l generalizing e with
  | nil => exact h
  | cons a l ih => exact ih (hf e a h)

/-! ### Frames down a snake -/

theorem snkFlag {s : Nat} {f : Fld} (h : e.Taking g) (hf : f.key / 0x4000000 ≠ 16) : (e.snkFlag s f).Taking g :=
  (h.putOut hf).note (Noting.raiseD_any _ _ _)

theorem inject {s ftype pos : Nat} {down : Bool} (h : e.Taking g) : (e.inject s ftype pos down).2.Taking g := by
  have counted {x : SnkSt} : (({ e with snk := x } : Dev).bump (R.SNK_FI_CNT s) 1).Taking g :=
    h.setSnk.putOut (by simp only [R.SNK_FI_CNT, Fld.key]; omega)
  have left {x : SnkSt} {v : Nat} : ((({ e with snk := x } : Dev).bump (R.SNK_FI_CNT s) 1).put (R.SNK_FI_LEFT s) v).Taking g :=
    counted.putOut (by simp only [R.SNK_FI_LEFT, Fld.key]; omega)
  unfold Dev.inject
  exact iteSnd h (iteSnd h.setSnk (iteSnd counted (ite (left.snkFlag (by simp only [R.SNK_FI_DONE, Fld.key]; omega)) left)))

theorem onLane {s act : Nat} {ws : List LinkWord} (h : e.Taking g) : (e.onLane s act ws).Taking g := by
  have counted : (e.bump (R.SNK_DN_FRAMES s) 1).Taking g := h.putOut (by simp only [R.SNK_DN_FRAMES, Fld.key]; omega)
  exact ite counted (ite counted.send (ite counted.send (ite counted.send.send counted.send)))

theorem sendDown {s ftype pos : Nat} {ws : List LinkWord} (h : e.Taking g) : (e.sendDown s ftype pos ws).Taking g := by
  unfold Dev.sendDown
  have injected : (e.inject s ftype pos true).2.Taking g := h.inject
  generalize e.inject s ftype pos true = x at injected
  obtain ⟨act, e⟩ := x
  dsimp only at injected ⊢
  split
  · exact injected.setSnk.onLane.onLane
  · exact ite injected.setSnk injected.onLane

theorem sendEnum {s pos bcast arg : Nat} {payload : List LinkWord} (h : e.Taking g) : (e.sendEnum s pos bcast arg payload).Taking g :=
  ite h.setSnk h.sendDown

theorem sendConfig {s p : Nat} (h : e.Taking g) : (e.sendConfig s p).Taking g := by
  unfold Dev.sendConfig
  split
  · exact h.sendEnum
  · exact h

theorem reconfig {s : Nat} {ps : List Nat} (h : e.Taking g) : (e.reconfig s ps).Taking g := by
  unfold Dev.reconfig
  dsimp only
  split
  · exact h.setSnk
  · split
    · exact h
    · exact h.setSnk.sendConfig

theorem reconfigAll (h : e.Taking g) : e.reconfigAll.Taking g := h.foldl (fun _ _ h => h.reconfig) _

/-! ### The values of an image -/

theorem markAll {ks : List Nat} (h : e.Taking g) : (e.markAll ks).Taking g := h.foldl (fun _ _ h => ite h h.setPush) _

theorem bindTo {role transport k j v : Nat} (h : e.Taking g) : (e.bindTo role transport k j v).Taking g := by
  unfold Dev.bindTo
  extract_lets old was x y
  refine ite h (Taking.note ?_ (Noting.ledger _ _))
  refine Taking.foldl h.setSns (fun e n h => ?_) _
  refine ite h ?_
  split
  · exact ite h.markAll h
  · exact h

theorem setValue {idx sub : Nat} {raw : List Byte} (h : e.Taking g) : (e.setValue idx sub raw).Taking g := by
  have set : Dev.Taking g { e with bank := { e.bank with objs := Tab.set e.bank.objs (objKey idx sub) raw } } :=
    ⟨h.runs, h.geo, h.staged, h.writes, h.status⟩
  unfold Dev.setValue
  dsimp only
  split
  · exact set
  · next f hf => exact ite set (set.putOut (viewOf_block hf))

theorem dictApply {recs : List DictRec} (h : e.Taking g) : (e.dictApply recs).Taking g :=
  h.foldl (fun _ _ h => ite h (ite h.setSns h.setValue)) _

theorem setTime {x : TimeSt} (h : e.Taking g) : Dev.Taking g { e with time := x } := ⟨h.runs, h.geo, h.staged, h.writes, h.status⟩

theorem dictModes {recs : List DictRec} (h : e.Taking g) : (e.dictModes recs).Taking g :=
  h.foldl (fun _ _ h => ite h.setTime h) _

theorem domNeed {js : List Nat} (h : e.Taking g) : (e.domNeed js).Taking g :=
  h.foldl (fun _ j h => ite (h.put (by simp only [R.PWR_SU_STATE, R.PWR_DOM_OFF_REQ, Fld.key]; omega)) h) _

end Dev.Taking

/-! ### The transaction and the turn of an image -/

/-- A running device whose journal is idle stages a transaction (R812). -/
theorem Dev.journal_of_idle {d : Dev} {t : Txn} (hruns : d.get R.PWR_SU_STATE = suRun) (hstaged : d.bank.staged = none)
    (hwrites : d.bank.writeProtect = false) :
    d.journal t = ({ d with bank := { d.bank with staged := some t } } : Dev).journalRegs := by
  unfold journal running
  simp only [hwrites, hstaged, hruns, beq_self_eq_true, Bool.not_true, Bool.false_and, Bool.false_eq_true, if_false]

/-- A timing scheduled for a turn changes no more than its registers, what is scheduled and what is noted. -/
theorem Dev.scheduleAt_spec (d : Dev) (ne : Nat) (t : Timing) :
    (∃ y, (d.scheduleAt ne t).sched.timing = some y ∧ y.ne = ne) ∧
      d.Only (orNote [R.PUSH_TCHG_REPLACED, R.PUSH_TCHG, R.PUSH_TCHG_TURN]) (notes ++ [.sched]) (d.scheduleAt ne t) := by
  unfold scheduleAt
  extract_lets x v y
  have replaced : d.Only (orNote [R.PUSH_TCHG_REPLACED, R.PUSH_TCHG, R.PUSH_TCHG_TURN]) (notes ++ [.sched]) x :=
    (Only.refl _ _ d).when fun h => h.flag (orNote_of_mem (by simp))
  have scheduled : d.Only (orNote [R.PUSH_TCHG_REPLACED, R.PUSH_TCHG, R.PUSH_TCHG_TURN]) (notes ++ [.sched]) y :=
    replaced.parts rfl fun p hp => by
      cases p with
      | sched => exact absurd (by decide) hp
      | _ => rfl
  have shown := (scheduled.put (v := 1) (orNote_of_mem (f := R.PUSH_TCHG) (by simp))).put (v := ne)
    (orNote_of_mem (f := R.PUSH_TCHG_TURN) (by simp))
  exact ⟨⟨{ t with ne := ne, announced := false },
    congrArg SchedSt.timing ((Noting.raise ((y.put R.PUSH_TCHG 1).put R.PUSH_TCHG_TURN ne) 832 (by decide)).2 .sched (by decide)), rfl⟩,
    shown.note (Noting.raise _ _ (by decide)) orNote_of_noteBlock⟩

/-- The values of an image in force, its bindings made (R92, R96). -/
def Dev.imageBound (d : Dev) (im : ImageData) : Dev :=
  ((im.dict.foldl (fun (d : Dev) r =>
    if 0x6200 ≤ r.idx ∧ r.idx ≤ 0x6201 ∧ 4 ≤ r.sub then d.bindTo 2 2 (r.idx - 0x6200) (r.sub - 4) (beOf r.raw) else d) d).dictApply
      im.dict).dictModes im.dict

/-- The same with the squares told of a new hold and the turn of the image known. -/
def Dev.imageValues (d : Dev) (im : ImageData) (ne : Nat) : Dev :=
  let e := if (d.imageBound im).holdMs = d.holdMs then d.imageBound im else (d.imageBound im).reconfigAll
  { e with bank := { e.bank with imageTurn := ne } }

theorem Dev.Taking.imageValues {g : GeoSt} {d : Dev} {im : ImageData} {ne : Nat} (h : d.Taking g) : (d.imageValues im ne).Taking g := by
  have bound : (d.imageBound im).Taking g := (h.foldl (fun _ _ h => .ite h.bindTo h) _).dictApply.dictModes
  obtain ⟨runs, geo, staged, writes, status⟩ : (if (d.imageBound im).holdMs = d.holdMs then d.imageBound im
    else (d.imageBound im).reconfigAll).Taking g := .ite bound bound.reconfigAll
  exact ⟨runs, geo, staged, writes, status⟩

/-- Domains that an image needs change what the banker holds in nothing. -/
theorem Dev.domNeed_bank (js : List Nat) : ∀ d : Dev, (d.domNeed js).bank = d.bank := by
  induction js with
  | nil => exact fun _ => rfl
  | cons j js ih =>
    intro d
    refine (ih _).trans ?_
    show (if _ then _ else _ : Dev).bank = _
    split <;> rfl

/-- The transaction that an image is staged in. -/
def imageTxn (img : List Byte) (im : ImageData) : Txn :=
  { objs := im.dict.filterMap (fun r =>
      match objDef? r.inner r.sub with
      | some o => if o.acc.journaled then some (objKey r.inner r.sub, r.raw) else none
      | none => none)
    image := some img
    answer := none }

theorem Dev.acceptImageAt_eq (d : Dev) (img : List Byte) (im : ImageData) (ne : Nat) :
    ∃ js, d.acceptImageAt img im none ne =
      (((d.imageValues im ne).domNeed js).journal (imageTxn img im)).scheduleAt ne (d.imageTiming img im) := ⟨_, rfl⟩

/-- An image that a running device accepts is staged for its turn, and the geometry stands until then. -/
theorem Dev.acceptImageAt_spec {g : GeoSt} {d : Dev} (img : List Byte) (im : ImageData) (ne : Nat) (h : d.Taking g) :
    (d.acceptImageAt img im none ne).bank.imageStatus = stOk ∧ (d.acceptImageAt img im none ne).bank.imageTurn = ne ∧
      (∃ t, (d.acceptImageAt img im none ne).bank.staged = some t ∧ t.image = some img) ∧
      (∃ y, (d.acceptImageAt img im none ne).sched.timing = some y ∧ y.ne = ne) ∧ (d.acceptImageAt img im none ne).geo = g := by
  obtain ⟨js, heq⟩ := d.acceptImageAt_eq img im ne
  rw [heq]
  obtain ⟨runs, geo, staged, writes, status⟩ := (h.imageValues (im := im) (ne := ne)).domNeed (js := js)
  have turn : ((d.imageValues im ne).domNeed js).bank.imageTurn = ne := congrArg BankSt.imageTurn (domNeed_bank js _)
  generalize (d.imageValues im ne).domNeed js = x at runs geo staged writes status turn
  rw [journal_of_idle runs staged writes]
  obtain ⟨timed, only⟩ :=
    (({ x with bank := { x.bank with staged := some (imageTxn img im) } } : Dev).journalRegs).scheduleAt_spec ne (d.imageTiming img im)
  exact ⟨(only.held BankSt.imageStatus).trans status, (only.held BankSt.imageTurn).trans turn, ⟨_, only.held BankSt.staged, rfl⟩, timed,
    (only.2 .geo (by decide)).trans geo⟩

/-! ### IMAGE_LOAD -/

/-- A write of the image while MRAM takes writes. -/
theorem exec_imageLoad {s : State} {role : Nat} {img : List Byte} (hrole : role < 5) (hserves : s.dev.serves role 0x2001 = true)
    (hwrites : s.dev.bank.writeProtect = false) (hst : s.dev.writeStatus role 0x2001 0 tBlob img = stOk) :
    exec (.imageLoad role img) s = .next { s with dev := s.dev.imageWrite (writeOf role default 0x2001 0 tBlob img) } := by
  have inner : (writeOf role default 0x2001 0 tBlob img).inner = 0x2001 := rfl
  have hst' : s.dev.writeStatus (writeOf role default 0x2001 0 tBlob img).r.role 0x2001 0 tBlob img = stOk := hst
  show directWrite role 0x2001 0 tBlob img s = _
  rw [directWrite_of_serves hrole hserves]
  refine congrArg (fun d => Host.Outcome.next { s with dev := d }) ?_
  unfold Dev.objWrite
  rw [inner]
  dsimp only [writeOf] at hst' ⊢
  simp only [hst', ne_eq, not_true_eq_false, if_false, if_true, hwrites, Bool.false_eq_true]

/-- An image that a check refuses changes its status alone (R96). -/
theorem imageLoad_refused_gives {s : State} {role st : Nat} {img : List Byte} (hrole : role < 5)
    (hserves : s.dev.serves role 0x2001 = true) (hwrites : s.dev.bank.writeProtect = false)
    (hst : s.dev.writeStatus role 0x2001 0 tBlob img = stOk) (hcheck : s.dev.checkImage img = (st, none)) (hok : st ≠ stOk)
    (hlocked : st ≠ stLocked) (hlimit : st ≠ stLimit) :
    (Instr.imageLoad role img).gives s fun t =>
      t.dev.bank.imageStatus = st ∧ t.dev.sched = s.dev.sched ∧ t.dev.bank.objs = s.dev.bank.objs ∧
      t.dev.bank.staged = s.dev.bank.staged ∧ s.Only [] [.bank, .ledger] t := by
  have heq : exec (.imageLoad role img) s = .next { s with dev := { s.dev with bank := { s.dev.bank with imageStatus := st } } } := by
    rw [exec_imageLoad hrole hserves hwrites hst]
    refine congrArg (fun d => Host.Outcome.next { s with dev := d }) ?_
    have offered : s.dev.offerImage img none = (st, { s.dev with bank := { s.dev.bank with imageStatus := st } }) := by
      unfold Dev.offerImage
      rw [hcheck]
    unfold Dev.imageWrite
    dsimp only [writeOf]
    simp only [offered, if_neg hok]
    exact Dev.endWrite_untold ⟨hlocked, hlimit⟩ (.inl (show 0x2001 < 0x7000 by decide)) rfl
  exact ⟨_, heq, rfl, rfl, rfl, rfl, (Only.refl _ _ s.dev).setBank, rfl, rfl⟩

/-- An image that passes its checks is staged in a device that runs alone (R92, R96). -/
theorem imageLoad_accepted_gives {s : State} {role : Nat} {img : List Byte} {im : ImageData} (hrole : role < 5)
    (hserves : s.dev.serves role 0x2001 = true) (hwrites : s.dev.bank.writeProtect = false)
    (hst : s.dev.writeStatus role 0x2001 0 tBlob img = stOk) (hcheck : s.dev.checkImage img = (stOk, some im))
    (halone : s.dev.grouped = false) (hruns : s.dev.running = true) (hstaged : s.dev.bank.staged = none) :
    (Instr.imageLoad role img).gives s fun t =>
      t.dev.bank.imageStatus = stOk ∧ t.dev.bank.imageTurn = s.dev.time.turn + s.dev.lead ∧
      (∃ x, t.dev.bank.staged = some x ∧ x.image = some img) ∧
      (∃ y, t.dev.sched.timing = some y ∧ y.ne = s.dev.time.turn + s.dev.lead) ∧ t.dev.geo = s.dev.geo ∧
      t.hbm = s.hbm ∧ t.pending = s.pending := by
  generalize hd : ({ s.dev with bank := { s.dev.bank with imageStatus := stOk } } : Dev) = d
  generalize hne : s.dev.time.turn + s.dev.lead = ne
  have rules : d.rules = true := by
    have alone : d.grouped = false := hd ▸ halone
    rw [Dev.rules, alone, Bool.not_false, Bool.true_or]
  have heq : exec (.imageLoad role img) s = .next { s with dev := (d.acceptImageAt img im none ne).decree [.image img ne] } := by
    rw [exec_imageLoad hrole hserves hwrites hst]
    refine congrArg (fun d => Host.Outcome.next { s with dev := d }) ?_
    have offered : s.dev.offerImage img none = (stOk, (d.acceptImageAt img im none ne).decree [.image img ne]) := by
      have turn : s.dev.time.turn + d.lead = ne := by rw [← hd]; exact hne
      unfold Dev.offerImage
      rw [hcheck]
      dsimp only
      rw [hd, if_pos rules, turn]
    unfold Dev.imageWrite
    dsimp only [writeOf]
    simp only [offered, if_true]
  have taking : d.Taking s.dev.geo := hd ▸ ⟨eq_of_beq hruns, rfl, hstaged, hwrites, rfl⟩
  obtain ⟨status, turn, staged, timed, geo⟩ := d.acceptImageAt_spec img im ne taking
  obtain ⟨only, -⟩ := Dev.TableSent.decree (d.acceptImageAt img im none ne) [.image img ne]
  have bank := only.2 .ledger (by decide)
  have sched := only.2 .sched (by decide)
  refine ⟨_, heq, (congrArg BankSt.imageStatus bank).trans status, (congrArg BankSt.imageTurn bank).trans turn, ?_, ?_,
    (only.2 .geo (by decide)).trans geo, rfl, rfl⟩
  · obtain ⟨x, hx, himage⟩ := staged
    exact ⟨x, (congrArg BankSt.staged bank).trans hx, himage⟩
  · obtain ⟨y, hy, hturn⟩ := timed
    exact ⟨y, (congrArg SchedSt.timing sched).trans hy, hturn⟩

end Sys2Proof.Machine
end

section
/-! SUPPORT. A warm reset by command: what stands from the reset of the block on through the steps of start-up. -/

namespace Sys2Proof.Machine

/-- Every field but the cause of the last reset and the count of warm resets, which start-up leaves alone (R838). -/
def calm (k : Nat) : Bool := decide (k ≠ R.PWR_RESET_CAUSE.key) && decide (k ≠ R.PWR_WARM_CNT.key)

theorem calm_iff {k : Nat} : calm k = true ↔ k ≠ R.PWR_RESET_CAUSE.key ∧ k ≠ R.PWR_WARM_CNT.key := by simp [calm]

/-- The two fields lie in the block of power and resets. -/
theorem calm_of_block {k : Nat} (h : k / 0x4000000 ≠ 16) : calm k = true := by
  have hcause : R.PWR_RESET_CAUSE.key / 0x4000000 = 16 := by decide
  have hwarms : R.PWR_WARM_CNT.key / 0x4000000 = 16 := by decide
  exact calm_iff.2 ⟨fun he => h (he ▸ hcause), fun he => h (he ▸ hwarms)⟩

/-- What stands while a device starts up after a warm reset: the cause of the reset is c, n warm resets are counted, no layer channel
and no entry is left, and the blitter has nothing to do. -/
structure Dev.Fresh (c n : Nat) (e : Dev) : Prop where
  cause : e.get R.PWR_RESET_CAUSE = c
  warms : e.get R.PWR_WARM_CNT = n
  layers : ∀ i, i < 1024 → e.chan? clsLayer i = none
  owed : e.q.owed = []
  idle : e.blt = {}

namespace Dev.Fresh

variable {c n : Nat} {e : Dev}

/-! ### The rules -/

theorem put {f : Fld} {v : Nat} (h : e.Fresh c n) (hf : calm f.key = true) : (e.put f v).Fresh c n := by
  obtain ⟨hcause, hwarms⟩ := calm_iff.1 hf
  exact ⟨(get_put_ne _ _ _ _ (Ne.symm hcause)).trans h.cause, (get_put_ne _ _ _ _ (Ne.symm hwarms)).trans h.warms, h.layers,
    h.owed, h.idle⟩

theorem note {x : Dev} (h : e.Fresh c n) (k : e.Noted x) : x.Fresh c n :=
  ⟨(k.1 _ (by decide)).trans h.cause, (k.1 _ (by decide)).trans h.warms,
    fun i hi => (chan?_congr (k.2 .ch (by decide)) _ _).trans (h.layers i hi), (congrArg QSt.owed (k.2 .q (by decide))).trans h.owed,
    (k.2 .blt (by decide)).trans h.idle⟩

/-- A change of other parts. -/
theorem same {x : Dev} (h : e.Fresh c n) (hr : x.regs = e.regs := by rfl) (hch : x.ch = e.ch := by rfl) (hq : x.q = e.q := by rfl)
    (hblt : x.blt = e.blt := by rfl) : x.Fresh c n :=
  ⟨(get_congr hr _).trans h.cause, (get_congr hr _).trans h.warms, fun i hi => (chan?_congr hch _ _).trans (h.layers i hi),
    (congrArg QSt.owed hq).trans h.owed, hblt.trans h.idle⟩

theorem ite {p : Prop} {_ : Decidable p} {x y : Dev} (h : x.Fresh c n) (k : y.Fresh c n) : (if p then x else y).Fresh c n := by
  split_ifs <;> assumption

theorem when {p : Prop} {_ : Decidable p} {x : Dev} (h : e.Fresh c n) (hx : e.Fresh c n → x.Fresh c n) :
    (if p then x else e).Fresh c n := ite (hx h) h

theorem skipIf {p : Prop} {_ : Decidable p} {x : Dev} (h : e.Fresh c n) (hx : e.Fresh c n → x.Fresh c n) :
    (if p then e else x).Fresh c n := ite h (hx h)

theorem foldl {α : Type} {f : Dev → α → Dev} (h : e.Fresh c n) (hf : ∀ (e : Dev) (a : α), e.Fresh c n → (f e a).Fresh c n) :
    ∀ l : List α, (l.foldl f e).Fresh c n := by
  intro l
  induction l generalizing e with
  | nil => exact h
  | cons a l ih => exact ih (hf e a h)

/-- A walk that keeps an answer beside the block. -/
theorem foldlSnd {α β : Type} {f : β × Dev → α → β × Dev} {p : β × Dev} (h : p.2.Fresh c n)
    (hf : ∀ (p : β × Dev) (a : α), p.2.Fresh c n → (f p a).2.Fresh c n) : ∀ l : List α, (l.foldl f p).2.Fresh c n := by
  intro l
  induction l generalizing p with
  | nil => exact h
  | cons a l ih => exact ih (hf p a h)

/-- A field of another block than that of power. -/
theorem putOut {f : Fld} {v : Nat} (h : e.Fresh c n) (hf : f.key / 0x4000000 ≠ 16) : (e.put f v).Fresh c n := h.put (calm_of_block hf)

theorem putMapOut {f : Nat → Fld} {i : Nat} {b : Bool} (h : e.Fresh c n) (hf : (f (i / 32)).key / 0x4000000 ≠ 16) :
    (e.putMap f i b).Fresh c n := h.putOut hf

theorem raise {m : Nat} (h : e.Fresh c n) : (e.raise m).Fresh c n := h.note (Noting.raiseD_any _ _ _)
theorem ledger {r : LedReq} (h : e.Fresh c n) : (e.ledger r).Fresh c n := h.note (Noting.ledger _ _)
theorem send {m : OutMsg} (h : e.Fresh c n) : (e.send m).Fresh c n := h.same

theorem flagRaise {f : Fld} {m : Nat} (h : e.Fresh c n) (hf : calm f.key = true) : (e.flagRaise f m).Fresh c n :=
  (h.put hf).note (Noting.raiseD_any _ _ _)

/-! ### Responses and the journal -/

theorem mbxDone {bytes : List Byte} {auth stale : Bool} (h : e.Fresh c n) : (e.mbxDone bytes auth stale).Fresh c n := by
  have resp : (e.putResp bytes).Fresh c n := h.foldl (fun _ k h => h.putOut (by simp only [R.MBX_RESP, Fld.key]; omega)) _
  have shown : ((((e.putResp bytes).put R.MBX_RESP_LEN bytes.length).put R.MBX_MBX_STATE 2).flag R.MBX_DONE).Fresh c n :=
    ((resp.put (by decide)).put (by decide)).put (by decide)
  exact ((shown.when fun h => h.put (by decide)).when fun h => h.put (by decide)).note (Noting.raiseD_any _ _ _)

theorem respond {transport tok : Nat} {dest : Option (Nat × Nat × Nat)} {bytes : List Byte} (h : e.Fresh c n) :
    (e.respond transport tok dest bytes).Fresh c n := by
  unfold Dev.respond
  split
  · refine ite (mbxDone ?_) h
    exact h.same
  · split
    · exact h
    · exact h.same

theorem reply? {r : Option Reply} (h : e.Fresh c n) : (e.reply? r).Fresh c n := by
  cases r with
  | some r =>
    refine foldl (respond ?_) (fun _ _ h => h.respond) _
    exact h.same
  | none => exact h

theorem commitTxn {t : Txn} (h : e.Fresh c n) : (e.commitTxn t).Fresh c n := by
  have counted {x : BankSt} {v : Nat} : ((({ e with bank := x } : Dev).bump R.ST_JCOMMITS 1).bump R.ST_MRAM_WR_LINES v).Fresh c n :=
    put (put h.same (by decide)) (by decide)
  exact same (reply? (foldl counted (fun _ _ h => h.ledger) t.entries))

theorem journalRegs (h : e.Fresh c n) : e.journalRegs.Fresh c n := (h.put (by decide)).put (by decide)

theorem journal {t : Txn} (h : e.Fresh c n) : (e.journal t).Fresh c n := by
  unfold Dev.journal
  refine ite h (ite h.commitTxn (journalRegs ?_))
  split <;> exact h.same

theorem journalIdle (h : e.Fresh c n) : e.journalIdle.Fresh c n := by
  unfold Dev.journalIdle
  refine h.skipIf fun h => journalRegs ?_
  exact foldl h.same (fun _ _ h => h.commitTxn) _

/-! ### Entries and commands that are flushed -/

/-- No entry is left to complete. -/
theorem settle {p : Owed → Bool} {st : Nat} {applied : Option Nat} (h : e.Fresh c n) : (e.settle p st applied).Fresh c n := by
  unfold Dev.settle
  rw [h.owed]
  exact ⟨h.cause, h.warms, h.layers, rfl, h.idle⟩

theorem settleFirst {p : Owed → Bool} {st : Nat} {applied : Option Nat} (h : e.Fresh c n) : (e.settleFirst p st applied).Fresh c n := by
  unfold Dev.settleFirst
  rw [h.owed]
  exact h

/-- The blitter has no command to flush. -/
theorem flushBlit (h : e.Fresh c n) : e.flushBlit.Fresh c n := by
  have heq : e.flushBlit = { e.put R.BLT_ACTIVE 0 with blt := {} } := by
    have kept : (e.put R.BLT_ACTIVE 0).blt = {} := h.idle
    unfold Dev.flushBlit
    simp only [h.idle, kept, List.filterMap_nil, List.foldl_nil, List.map_nil]
  have shown : (e.put R.BLT_ACTIVE 0).Fresh c n := h.put (by decide)
  rw [heq]
  exact ⟨shown.cause, shown.warms, shown.layers, shown.owed, rfl⟩

theorem flushStarted (h : e.Fresh c n) : e.flushStarted.Fresh c n := by
  unfold Dev.flushStarted
  rw [h.owed]
  exact note (put (settle (same h.flushBlit)) (by decide)) (Noting.raiseD_any _ _ _)

theorem stopWork (h : e.Fresh c n) : e.stopWork.Fresh c n := by
  have stopped {p v : Nat} {e : Dev} (h : e.Fresh c n) : (e.put (R.PIP_STATE p) v).Fresh c n :=
    h.putOut (by simp only [R.PIP_STATE, Fld.key]; omega)
  unfold Dev.stopWork
  extract_lets pips occ retry
  have hpips : pips.Fresh c n :=
    h.foldl (fun _ p h => putOut (h.when stopped) (by simp only [R.PIP_REMAIN, Fld.key]; omega)) _
  have hocc : occ.Fresh c n := hpips.foldl (fun _ b h => h.putOut (by simp only [R.PSN_OCC, Fld.key]; omega)) _
  have hretry : retry.Fresh c n := hocc.foldl (fun _ f h => h.putOut (by simp only [R.PSN_RETRY_OCC, Fld.key]; omega)) _
  clear_value retry
  exact hretry.same

theorem deviceStop {st : Nat} (h : e.Fresh c n) : (e.deviceStop st).Fresh c n := by
  refine ite (h.ledger) (put (stopWork (flushStarted (raise (h.put ?_)))) ?_)
  · decide
  · decide

theorem deviceFault {st : Nat} (h : e.Fresh c n) : (e.deviceFault st).Fresh c n := h.deviceStop.journalIdle

theorem startFails (h : e.Fresh c n) : e.startFails.Fresh c n := raise (same h.deviceFault)

/-! ### Snake ports -/

/-- No blit command waits for a fired line. -/
theorem plShot {i : Nat} (h : e.Fresh c n) : (e.plShot i).Fresh c n := by
  have fired {x : PushSt} : ((({ e with push := x } : Dev).put (R.PUSH_PL_FIRE_TURN i) e.time.turn).raise (844 + i)).Fresh c n :=
    raise (putOut h.same (by simp only [R.PUSH_PL_FIRE_TURN, Fld.key]; omega))
  refine Fresh.foldl fired (fun _ p h => h.when fun h => ?_) _
  unfold Dev.blitWaitEnds
  rw [h.idle]
  exact h

theorem plFire (h : e.Fresh c n) : e.plFire.Fresh c n := h.skipIf fun h => h.foldl (fun _ _ h => h.when plShot) _

theorem dropFlight {k : Nat} {f : Flight} (h : e.Fresh c n) : (e.dropFlight k f).Fresh c n :=
  putOut (same h) (by simp only [R.PSN_RETRY_OCC, Fld.key]; omega)

theorem putBuf {s : Nat} {l : List BufPatch} (h : e.Fresh c n) : (e.putBuf s l).Fresh c n :=
  putOut (same h) (by simp only [R.PSN_OCC, Fld.key]; omega)

theorem leaveOut {k : Nat} (h : e.Fresh c n) : (e.leaveOut k).Fresh c n := h.skipIf fun h => h.same

theorem dropSquares {s k : Nat} (h : e.Fresh c n) : (e.dropSquares s k).Fresh c n := by
  unfold Dev.dropSquares
  extract_lets mine flights buf lines p awaits tx cfg q cut
  have hflights : flights.Fresh c n := h.foldl (fun _ p h => h.foldl (fun _ _ h => h.dropFlight) p.2) _
  have hlines : lines.Fresh c n := plFire (hflights.putBuf.foldl (fun _ _ h => h.leaveOut) _)
  clear_value lines
  have hcut : cut.Fresh c n := hlines.same
  clear_value cut
  exact hcut.skipIf fun h => h.same

theorem putPort {s st : Nat} (h : e.Fresh c n) : (e.putPort s st).Fresh c n := h.putOut (by simp only [R.SNK_STATE, Fld.key]; omega)

theorem endWalk {s : Nat} (h : e.Fresh c n) : (e.endWalk s).Fresh c n := h.same

theorem goFatal {s cause : Nat} (h : e.Fresh c n) : (e.goFatal s cause).Fresh c n :=
  ledger (flagRaise h.dropSquares.endWalk.putPort (calm_of_block (by simp only [R.SNK_FATAL, Fld.key]; omega)))

theorem portDown {s : Nat} (h : e.Fresh c n) : (e.portDown s).Fresh c n := h.dropSquares.endWalk.putPort

theorem portUp {s : Nat} (h : e.Fresh c n) : (e.portUp s).Fresh c n := h.when putPort

/-! ### Drives of the clip store -/

theorem presentRegs (h : e.Fresh c n) : e.presentRegs.Fresh c n := h.put (by decide)

theorem abortClipWrites (h : e.Fresh c n) : e.abortClipWrites.Fresh c n :=
  h.foldl (fun _ _ h => put (settleFirst h.same) (by decide)) _

theorem failStore (h : e.Fresh c n) : e.failStore.Fresh c n :=
  h.when fun h => abortClipWrites (flagRaise (h.put (by decide)) (by decide))

theorem driveState {r v : Nat} (h : e.Fresh c n) : (e.put (R.DRV_STATE r) v).Fresh c n :=
  h.putOut (by simp only [R.DRV_STATE, Fld.key]; omega)

theorem failDrive {r : Nat} (h : e.Fresh c n) : (e.failDrive r).Fresh c n :=
  (presentRegs (flagRaise h.driveState (calm_of_block (by simp only [R.DRV_FAILED, Fld.key]; omega)))).when failStore

theorem driveLink {r v w : Nat} (h : e.Fresh c n) : ((e.put (R.DRV_LINK_UP r) v).put (R.DRV_SIZE r) w).Fresh c n :=
  putOut (h.putOut (by simp only [R.DRV_LINK_UP, Fld.key]; omega)) (by simp only [R.DRV_SIZE, Fld.key]; omega)

theorem driveFound {i : DriveInfo} (h : e.Fresh c n) : (e.driveFound i).Fresh c n := by
  unfold Dev.driveFound
  extract_lets r x y linked replaced
  have hlinked : linked.Fresh c n := driveLink (same h)
  exact ite hlinked.failDrive hlinked.driveState.presentRegs

theorem driveGone {r : Nat} (h : e.Fresh c n) : (e.driveGone r).Fresh c n := by
  unfold Dev.driveGone
  extract_lets x y unlinked
  have hunlinked : unlinked.Fresh c n := driveLink (same h)
  exact ite hunlinked.failDrive hunlinked.driveState.presentRegs

theorem rescan {drives : List DriveInfo} (h : e.Fresh c n) : (e.rescan drives).Fresh c n := by
  refine h.foldl (fun _ r h => ?_) _
  split
  · exact h.driveFound
  · exact h.driveGone

theorem clipRegs (h : e.Fresh c n) : e.clipRegs.Fresh c n := put (h.put (by decide)) (by decide)

/-! ### Domains and synthesizers -/

theorem putDom {j : Nat} {b : Bool} (h : e.Fresh c n) : (e.putDom j b).Fresh c n := by
  refine h.put (calm_iff.2 ?_)
  simp only [R.PWR_DOM_ON, R.PWR_RESET_CAUSE, R.PWR_WARM_CNT, Fld.key]
  omega

theorem putSyn {s st : Nat} (h : e.Fresh c n) : (e.putSyn s st).Fresh c n := by
  have stated : (e.put (R.SYNS_STATE s) st).Fresh c n := h.putOut (by simp only [R.SYNS_STATE, Fld.key]; omega)
  have gated (v : Nat) : ((e.put (R.SYNS_STATE s) st).put (R.SYNS_GATED s) v).Fresh c n :=
    stated.putOut (by simp only [R.SYNS_GATED, Fld.key]; omega)
  exact putMapOut (gated _) (by simp only [R.SYN_LOCKED_MAP, Fld.key]; omega)

theorem domDown {j : Nat} (h : e.Fresh c n) : (e.domDown j).Fresh c n := by
  unfold Dev.domDown
  extract_lets ports syns
  have hports : ports.Fresh c n := h.when fun h => h.foldl (fun _ _ h => h.portDown) _
  refine putDom ?_
  show (match domSyn j with | some s => _ | none => _ : Dev).Fresh c n
  split
  · exact hports.putSyn
  · exact hports

theorem cupHub {k : Nat} (h : e.Fresh c n) : (e.cupFlag k (R.CUP_HUB_FAULT k)).Fresh c n :=
  h.flagRaise (calm_of_block (by simp only [R.CUP_HUB_FAULT, Fld.key]; omega))

theorem domErr (h : e.Fresh c n) : ((e.flag R.PWR_DOM_ERR).raiseLedger 937 64 16).Fresh c n :=
  note (h.put (by decide)) (Noting.raiseLedger _ _ _ _ (by decide))

theorem domFails {j : Nat} (h : e.Fresh c n) : (e.domFails j).Fresh c n := by
  unfold Dev.domFails
  extract_lets told drives x
  have htold : told.Fresh c n := h.domErr
  have hdrives : drives.Fresh c n := htold.when fun h => h.foldl (fun _ _ h => h.when failDrive) _
  clear_value drives
  exact ite htold.deviceFault (ite htold.cupHub (ite htold.cupHub (ite (htold.foldl (fun _ _ h => h.goFatal) _) (domDown hdrives.same))))

theorem domainsUp {bad : List Nat} (h : e.Fresh c n) : (e.domainsUp bad).2.Fresh c n := by
  refine foldlSnd h (fun p j h => ?_) _
  split_ifs
  · exact h
  · exact h.domErr
  · exact h.domFails
  · exact h.putDom

theorem synFlag {s : Nat} {f : Fld} (h : e.Fresh c n) (hf : f.key / 0x4000000 ≠ 16) : (e.synFlag s f).Fresh c n :=
  h.flagRaise (calm_of_block hf)

theorem putBand {s band cw : Nat} (h : e.Fresh c n) : (e.putBand s band cw).Fresh c n :=
  putOut (h.putOut (by simp only [R.SYNS_BAND_8, Fld.key]; omega)) (by simp only [R.SYNS_CW_8, Fld.key]; omega)

theorem putEntry {s t band cw tj : Nat} (h : e.Fresh c n) : (e.putEntry s t band cw tj).Fresh c n := by
  have banded : (e.put (R.SYNS_BAND_20 s t) band).Fresh c n := h.putOut (by simp only [R.SYNS_BAND_20, Fld.key]; omega)
  have word : ((e.put (R.SYNS_BAND_20 s t) band).put (R.SYNS_CW_20 s t) cw).Fresh c n :=
    banded.putOut (by simp only [R.SYNS_CW_20, Fld.key]; omega)
  exact putOut (putOut word (f := R.SYNS_VALID s t) (by simp only [R.SYNS_VALID, Fld.key]; omega))
    (by simp only [R.SYNS_TJ, Fld.key]; omega)

theorem synUp {bands : List (Nat × Nat × Nat)} {s : Nat} (h : e.Fresh c n) : (e.synUp bands s).Fresh c n :=
  synFlag (putSyn (ite h.putBand (synFlag h.putBand.putEntry (by simp only [R.SYNS_SEARCH, Fld.key]; omega))))
    (by simp only [R.SYNS_LOCK, Fld.key]; omega)

theorem synsUp {bands : List (Nat × Nat × Nat)} (h : e.Fresh c n) : (e.synsUp bands).Fresh c n := by
  refine h.foldl (fun _ j h => ?_) _
  split
  · exact h.when synUp
  · exact h

/-! ### Slots, stacks and the pace trial -/

theorem cupUp {slots : List Nat} {k : Nat} (h : e.Fresh c n) : (e.cupUp slots k).Fresh c n := by
  unfold Dev.cupUp
  extract_lets map m shown counted x
  have hshown : shown.Fresh c n := h.foldl (fun _ _ h => h.putOut (by simp only [R.PIP_SLOT, Fld.key]; omega)) _
  have hmap : (shown.put (R.CUP_SLOT_MAP k) map).Fresh c n := hshown.putOut (by simp only [R.CUP_SLOT_MAP, Fld.key]; omega)
  have hactive (v : Nat) : ((shown.put (R.CUP_SLOT_MAP k) map).put (R.CUP_ACTIVE k) v).Fresh c n :=
    hmap.putOut (by simp only [R.CUP_ACTIVE, Fld.key]; omega)
  have hcounted : counted.Fresh c n := (hactive _).putOut (by simp only [R.CUP_RES_AVAIL, Fld.key]; omega)
  clear_value counted
  exact hcounted.same

theorem cupOut {k code : Nat} (h : e.Fresh c n) : (e.cupOut k code).Fresh c n :=
  ledger (raise (h.putOut (by simp only [R.CUP_SLOT_MAP, Fld.key]; omega)))

theorem reserveRegs {q : Nat} (h : e.Fresh c n) : (e.reserveRegs q).Fresh c n :=
  h.putOut (by simp only [R.FAB_RES_AVAIL, Fld.key]; omega)

theorem short (h : e.Fresh c n) : e.short.Fresh c n :=
  (put (flagRaise h (by decide)) (by decide)).when fun h => h.put (by decide)

theorem activeCount {q v : Nat} (h : e.Fresh c n) : (e.put (R.FAB_ACTIVE q) v).Fresh c n :=
  h.putOut (by simp only [R.FAB_ACTIVE, Fld.key]; omega)

theorem pipLoss {q : Nat} (h : e.Fresh c n) : (e.pipLoss q).Fresh c n :=
  (putOut (flagRaise h.activeCount (f := R.ADM_PIP_LOSS) (by decide)) (by simp only [R.ADM_NPIPS, Fld.key]; omega)).skipIf short

theorem slotsUp {env : StartEnv} (h : e.Fresh c n) : (e.slotsUp env).Fresh c n := by
  refine Fresh.foldl (Fresh.foldl (Fresh.foldl h (fun _ k h => ?_) _) (fun _ _ h => h.activeCount.reserveRegs) _)
    (fun _ _ h => h.skipIf pipLoss) _
  exact h.cupUp.when cupOut

theorem stackState {k v : Nat} (h : e.Fresh c n) : (e.put (R.STK_STATE k) v).Fresh c n :=
  h.putOut (by simp only [R.STK_STATE, Fld.key]; omega)

theorem stackTrained {k temp : Nat} (h : e.Fresh c n) : (e.stackTrained k temp).Fresh c n := by
  unfold Dev.stackTrained
  extract_lets counted x
  have hfails : ((e.put (R.STK_STATE k) stkReady).put (R.STK_FAILS k) 0).Fresh c n :=
    h.stackState.putOut (by simp only [R.STK_FAILS, Fld.key]; omega)
  have htemp : (((e.put (R.STK_STATE k) stkReady).put (R.STK_FAILS k) 0).put (R.STK_TEMP_TRAIN k) temp).Fresh c n :=
    hfails.putOut (by simp only [R.STK_TEMP_TRAIN, Fld.key]; omega)
  have hcounted : counted.Fresh c n := htemp.putOut (by simp only [R.STK_DUE, Fld.key]; omega)
  clear_value counted
  exact hcounted.same

theorem stacksUp {env : StartEnv} (h : e.Fresh c n) : (e.stacksUp env).2.Fresh c n := by
  refine foldlSnd h (fun p k h => ?_) _
  extract_lets t read
  have hread : read.Fresh c n := h.putOut (by simp only [R.STK_TEMP, Fld.key]; omega)
  have dead : ((read.put (R.STK_STATE k) stkDead).stkFlag k (R.STK_FATAL k)).Fresh c n :=
    hread.stackState.flagRaise (calm_of_block (by simp only [R.STK_FATAL, Fld.key]; omega))
  split_ifs
  · exact dead.raise (m := 7)
  · exact hread.stackTrained

theorem putTarget {mv : Nat} (h : e.Fresh c n) : (e.putTarget mv).Fresh c n :=
  h.skipIf fun h => send (h.put (by decide))

theorem planDirty (h : e.Fresh c n) : e.planDirty.Fresh c n := h.same

theorem admRegs (h : e.Fresh c n) : e.admRegs.Fresh c n := by
  unfold Dev.admRegs
  extract_lets cap quarters memory all rungs
  have hquarters : quarters.Fresh c n := h.foldl (fun _ q h => h.putOut (by simp only [R.ADM_LOAD_Q, Fld.key]; omega)) _
  have hmemory : memory.Fresh c n := hquarters.foldl (fun _ k h => h.putOut (by simp only [R.ADM_LOAD_S, Fld.key]; omega)) _
  have hrungs : rungs.Fresh c n := hmemory.foldl (fun _ r h =>
    putOut (h.putOut (by simp only [R.ADM_STAKES, Fld.key]; omega)) (by simp only [R.ADM_DEMOTED_N, Fld.key]; omega)) _
  exact hrungs.foldl (fun _ j h =>
    putOut (h.putOut (by simp only [R.XSD_CHANNELS, Fld.key]; omega)) (by simp only [R.XSD_LOAD, Fld.key]; omega)) _

theorem trialResult {paces : List Nat} (h : e.Fresh c n) : (e.trialResult paces).Fresh c n := by
  unfold Dev.trialResult
  extract_lets pace quarters pips done low flagged x trial
  have quarter (q v w u : Nat) {e : Dev} (h : e.Fresh c n) :
      (((e.put (R.ADM_TRIAL q) v).put (R.ADM_PA q) w).put (R.ADM_NPIPS q) u).Fresh c n := by
    have trialled : (e.put (R.ADM_TRIAL q) v).Fresh c n := h.putOut (by simp only [R.ADM_TRIAL, Fld.key]; omega)
    have paced : ((e.put (R.ADM_TRIAL q) v).put (R.ADM_PA q) w).Fresh c n := trialled.putOut (by simp only [R.ADM_PA, Fld.key]; omega)
    exact paced.putOut (by simp only [R.ADM_NPIPS, Fld.key]; omega)
  have hquarters : quarters.Fresh c n := h.foldl (fun _ q h => quarter q _ _ _ h) _
  have hpips : pips.Fresh c n := hquarters.foldl (fun _ p h => h.when fun h => h.putOut (by simp only [R.PIP_STATE, Fld.key]; omega)) _
  have hdone : done.Fresh c n := flagRaise (hpips.put (by decide)) (by decide)
  have hflagged : flagged.Fresh c n := hdone.when fun h => h.flagRaise (by decide)
  clear_value flagged
  exact admRegs (planDirty hflagged.same)

theorem trialUp {env : StartEnv} (h : e.Fresh c n) : (e.trialUp env).Fresh c n := by
  have trial : ((e.putTarget (e.get R.ADM_VADM_MV)).put R.ADM_STATE admTrial).Fresh c n := h.putTarget.put (by decide)
  exact trial.trialResult (paces := env.trialPaces)

/-! ### The table, the ports and the first turn -/

theorem indexError (h : e.Fresh c n) : e.indexError.Fresh c n := ledger (raise h)

theorem sendHello {port : Nat} (h : e.Fresh c n) : (e.sendHello port).Fresh c n := h.when fun h => h.same

/-- A channel of the table is no layer channel. -/
theorem chanKey_table_ne {port i : Nat} (hi : i < 1024) : chanKey clsLayer i ≠ chanKey clsTable port := by
  simp only [chanKey, clsLayer, clsTable]
  omega

theorem tableChannel {port dev : Nat} (h : e.Fresh c n) : (e.tableChannel port dev).Fresh c n := by
  unfold Dev.tableChannel
  extract_lets x free
  have hfree : free.Fresh c n := h.when fun h => ⟨h.cause, h.warms,
    fun i hi => (Tab.get?_erase_ne _ _ _ (chanKey_table_ne hi)).trans (h.layers i hi), h.owed, h.idle⟩
  clear_value free
  exact admRegs ⟨hfree.cause, hfree.warms, fun i hi => (Tab.get?_set_ne _ _ _ _ (chanKey_table_ne hi)).trans (hfree.layers i hi),
    hfree.owed, hfree.idle⟩

theorem putRuler {r : Nat} (h : e.Fresh c n) : (e.putRuler r).Fresh c n := put (h.put (by decide)) (by decide)

theorem putEpoch {m : Nat} (h : e.Fresh c n) : (e.putEpoch m).Fresh c n := by
  have told : (e.put R.PUSH_EPOCH m).Fresh c n := h.put (by decide)
  exact ite h (journal told.same)

theorem tableUp {env : StartEnv} (h : e.Fresh c n) : (e.tableUp env).Fresh c n := by
  unfold Dev.tableUp
  extract_lets devices told peers part linked x members top ruled
  have htold : told.Fresh c n := h.put (by decide)
  have hlinked : linked.Fresh c n := htold.foldl (fun _ _ h => h.when fun h => h.sendHello.tableChannel) _
  clear_value linked
  have hmembers : members.Fresh c n := hlinked.same
  clear_value members
  have hruled : ruled.Fresh c n := hmembers.putRuler.putEpoch.raise
  have tabled {x : Dev} {v : Nat} (h : x.Fresh c n) : (x.put R.PUSH_TABLE v).Fresh c n := h.put (by decide)
  exact ite (tabled htold) (ite (indexError (tabled htold)) (ite (tabled hruled) (raise (tabled hruled))))

theorem portsUp {env : StartEnv} (h : e.Fresh c n) : (e.portsUp env).Fresh c n := by
  unfold Dev.portsUp
  extract_lets sizes store drives
  have hstore : store.Fresh c n := h.when fun h => clipRegs (h.put (by decide))
  have hdrives : drives.Fresh c n := hstore.rescan
  exact hdrives.foldl (fun _ _ h => h.when portUp) _

theorem markAll {ks : List Nat} (h : e.Fresh c n) : (e.markAll ks).Fresh c n := h.foldl (fun _ _ h => h.skipIf fun h => h.same) _

theorem flows {i v : Nat} (h : e.Fresh c n) : (e.put (R.IPORT_FLOWS i) v).Fresh c n :=
  h.putOut (by simp only [R.IPORT_FLOWS, Fld.key]; omega)

theorem flowRegs (h : e.Fresh c n) : e.flowRegs.Fresh c n := by
  unfold Dev.flowRegs
  exact h.foldl (fun _ _ h => h.flows) _

theorem advance {units : Nat} (h : e.Fresh c n) : (e.advance units).Fresh c n := h.same

theorem runUp {env : StartEnv} (h : e.Fresh c n) : (e.runUp env).Fresh c n := by
  unfold Dev.runUp
  extract_lets later runs x phase
  have hlater : later.Fresh c n := h.advance
  have hruns : runs.Fresh c n := put (hlater.put (by decide)) (by decide)
  clear_value runs
  have hphase : phase.Fresh c n := hruns.same
  exact hphase.raise.markAll.flowRegs.admRegs

theorem startLate {env : StartEnv} (h : e.Fresh c n) : (e.startLate env).Fresh c n := by
  unfold Dev.startLate
  have trained : (e.stacksUp env).2.Fresh c n := h.stacksUp
  generalize e.stacksUp env = p at trained
  exact ite trained.startFails trained.trialUp.tableUp.portsUp.runUp

theorem loadImage (h : e.Fresh c n) : e.loadImage.Fresh c n := by
  unfold Dev.loadImage
  split
  · exact h.same
  · split
    · exact h.same
    · exact put (put (h.same) (by decide)) (by decide)

theorem startMain {env : StartEnv} {level : Nat} (h : e.Fresh c n) : (e.startMain env level).Fresh c n := by
  unfold Dev.startMain
  extract_lets told loaded
  have hloaded : loaded.Fresh c n := h.ledger.loadImage
  have powered : (loaded.domainsUp env.badDomains).2.Fresh c n := hloaded.domainsUp
  generalize loaded.domainsUp env.badDomains = p at powered
  exact ite powered.startFails powered.synsUp.slotsUp.startLate

theorem viewsApply {lo hi : Nat} (h : e.Fresh c n) : (e.viewsApply lo hi).Fresh c n := by
  have shown : ∀ (l : List (Nat × Fld)), (∀ v ∈ l, v.2.key / 0x4000000 ≠ 16) → ∀ {e : Dev}, e.Fresh c n →
      (l.foldl (fun (d : Dev) (v : Nat × Fld) =>
        if lo ≤ v.2.addr ∧ v.2.addr < hi then
          match Tab.get? d.bank.objs v.1 with
          | some b => d.put v.2 (beOf b)
          | none => d
        else d) e).Fresh c n := by
    intro l
    induction l with
    | nil => exact fun _ _ h => h
    | cons v l ih =>
      intro hl e h
      obtain ⟨hv, hl⟩ := List.forall_mem_cons.1 hl
      refine ih hl (h.when fun h => ?_)
      split
      · exact h.putOut hv
      · exact h
  exact shown views views_block h

end Dev.Fresh

/-! ### The reset -/

/-- A queue that ends changes the block of the queues alone. -/
theorem Dev.Only.killQueue {d e : Dev} {q : Nat} (h : d.Only calm [.q] e) : d.Only calm [.q] (e.killQueue q) := by
  have en : calm (qEN q).key = true := calm_of_block (by unfold qEN; split_ifs <;> simp only [R.SQ_EN, R.PQ_EN, Fld.key] <;> omega)
  have out : calm (qOUT q).key = true := calm_of_block (by unfold qOUT; split_ifs <;> simp only [R.SQ_OUT, R.PQ_OUT, Fld.key] <;> omega)
  have state : calm (qSTATE q).key = true :=
    calm_of_block (by unfold qSTATE; split_ifs <;> simp only [R.SQ_STATE, R.PQ_STATE, Fld.key] <;> omega)
  exact h.when fun h => ((h.put en).put out).put state

/-- A ring that ends changes the block of the queues and what it held. -/
theorem Dev.Only.killRing {d e : Dev} {k : Nat} {owed : Bool} (h : d.Only calm [.q] e) : d.Only calm [.q] (e.killRing k owed) := by
  have dropped : calm (R.CQ_DROPPED k).key = true := calm_of_block (by simp only [R.CQ_DROPPED, Fld.key]; omega)
  have en : calm (R.CQ_EN k).key = true := calm_of_block (by simp only [R.CQ_EN, Fld.key]; omega)
  have held : calm (R.CQ_HELD k).key = true := calm_of_block (by simp only [R.CQ_HELD, Fld.key]; omega)
  have resv : calm (R.CQ_RESV k).key = true := calm_of_block (by simp only [R.CQ_RESV, Fld.key]; omega)
  exact Dev.Only.when (Dev.Only.setQ (h.when fun h => h.flag dropped)) fun h => ((h.put en).put held).put resv

theorem Dev.Only.killFunction {d e : Dev} {f : Nat} {drop : Bool} (h : d.Only calm [.q] e) : d.Only calm [.q] (e.killFunction f drop) :=
  Dev.Only.foldl (Dev.Only.foldl h.setQ (fun _ _ h => h.killQueue) _) (fun _ _ h => h.killRing) _

/-- A field that a table of fields keeps reads as before. -/
theorem Dev.get_of_drop {d e : Dev} {p : Nat → Bool} {f : Fld} (hr : e.regs = Tab.drop d.regs p) (hp : p f.key = false) :
    e.get f = d.get f := by
  rw [Dev.get, hr, Tab.getD, Tab.get?_drop_ne _ _ _ hp]
  rfl

/-- What a warm reset leaves (R838, R851). -/
theorem Dev.fresh_warmReset {c n : Nat} {d : Dev} (hcause : d.get R.PWR_RESET_CAUSE = c) (hwarms : d.get R.PWR_WARM_CNT = n) :
    d.warmReset.Fresh c n := by
  have killed : d.Only calm [.q] ((List.range 32).foldl (fun (d : Dev) f => d.killFunction f true) d) :=
    (Only.refl _ _ d).foldl (fun _ _ h => h.killFunction) _
  unfold warmReset
  generalize (List.range 32).foldl (fun (d : Dev) f => d.killFunction f true) d = x at killed
  generalize d.clipKept = kept
  refine Dev.Fresh.journalIdle (Dev.Fresh.put ?_ (by decide))
  refine ⟨?_, ?_, fun _ _ => rfl, rfl, rfl⟩
  · exact (get_of_drop (d := x) (p := fun k => !warmKeeps k) rfl (by decide)).trans ((killed.get (by decide)).trans hcause)
  · exact (get_of_drop (d := x) (p := fun k => !warmKeeps k) rfl (by decide)).trans ((killed.get (by decide)).trans hwarms)

/-- A warm reset by command counts, and start-up leaves its cause and its count (R838, R851). -/
theorem Dev.fresh_warmStart (d : Dev) (env : StartEnv) :
    (d.warmStart 1 env).Fresh 1 ((d.get R.PWR_WARM_CNT + 1) % 2 ^ 64) := by
  unfold warmStart
  extract_lets recovery marked reset viewed synced
  have cause : marked.get R.PWR_RESET_CAUSE = 1 := (get_bump_ne _ _ _ _ (by decide)).trans (get_put_same _ _ _)
  have warms : marked.get R.PWR_WARM_CNT = (d.get R.PWR_WARM_CNT + 1) % 2 ^ 64 := by
    refine (get_bump_same _ _ _).trans ?_
    rw [get_put_ne _ _ _ _ (by decide), get_put_ne _ _ _ _ (by decide)]
    rfl
  have hreset : reset.Fresh 1 ((d.get R.PWR_WARM_CNT + 1) % 2 ^ 64) := fresh_warmReset cause warms
  have hviewed : viewed.Fresh 1 ((d.get R.PWR_WARM_CNT + 1) % 2 ^ 64) := (hreset.put (by decide)).viewsApply.viewsApply
  have hsynced : synced.Fresh 1 ((d.get R.PWR_WARM_CNT + 1) % 2 ^ 64) := hviewed.putSyn.putSyn
  exact .ite (hsynced.put (by decide)) hsynced.startMain

/-- WARM_RESET_CMD where power is not failing. -/
theorem warmResetCmd_gives {s : State} {role : Nat} (env : StartEnv) (hrole : role < 5) (hserves : s.dev.serves role 0xA000 = true)
    (hst : s.dev.writeStatus role 0xA000 4 tBool (beBytes 1 1) = stOk) (hpower : s.dev.get R.PWR_SU_STATE ≠ suPfail) :
    (Instr.warmResetCmd role 1 env).gives s fun t =>
      t.dev.get R.PWR_RESET_CAUSE = 1 ∧ t.dev.get R.PWR_WARM_CNT = (s.dev.get R.PWR_WARM_CNT + 1) % 2 ^ 64 ∧
      (∀ i, i < 1024 → t.dev.chan? clsLayer i = none) ∧ t.hbm = s.hbm ∧ t.pending = s.pending := by
  have acted : s.dev.actWrite (reqOf role) env 0xA000 4 (beBytes 1 1) = (stOk, s.dev.warmStart 1 env) := by
    simp [Dev.actWrite, hpower]
  have heq : exec (.warmResetCmd role 1 env) s = .next { s with dev := s.dev.warmStart 1 env } := by
    show execWarmResetCmd role 1 env s = _
    unfold execWarmResetCmd onUnit
    simp only [State.upd, if_neg (by decide : ¬256 ≤ 1), hrole, decide_true, hserves, if_true]
    rw [Dev.objWrite_acts rfl (by decide +kernel) (by decide) hst (by rw [acted]), acted]
  obtain ⟨cause, warms, layers, -, -⟩ := s.dev.fresh_warmStart env
  exact ⟨_, heq, cause, warms, layers, rfl, rfl⟩

end Sys2Proof.Machine

open Sys2Proof Sys2Proof.Machine

/-- Settles O49: the commands of the dictionary act through one write each, and what each leaves alone is followed operation by
operation; in the store, entries of the ledger leave alone the fields that a command sets. -/
theorem dictionaryCommandsAndTheStore : Obligations.DictionaryCommandsAndTheStore := by
  unfold Obligations.DictionaryCommandsAndTheStore
  refine ⟨fun s role hrole => ⟨fun p env hp hserves => ?_, fun seq hseq => chainVerify_gives hrole hseq,
    fun img hserves hwrites hst => ?_⟩, fun s hrun hwrites => ⟨wearMove_gives hrun hwrites, exec_wearMove_again,
      fun corrected hen => ?_, ledgerSecondEnd_gives hrun hwrites⟩⟩
  · exact ⟨pipFailCmd_gives hrole hp hserves, warmResetCmd_gives env hrole hserves⟩
  · exact ⟨fun st => imageLoad_refused_gives hrole hserves hwrites hst, fun im => imageLoad_accepted_gives hrole hserves hwrites hst⟩
  · exact ⟨mramScrub_corrected_gives hrun hwrites hen, fun line => mramScrub_failed_gives line hrun hwrites hen⟩

end

section
/-! SUPPORT. A state whose register of stakes on a JPEG XS decoder (R567) tells of one that its channels do not hold. -/

namespace Sys2Proof.Machine

/-- CLIP_UPDATE of clip channel 0: clip 1 at its own rate, four lookahead surfaces on stack 0, its one frame, rung 7. -/
def clipEntry : List Byte :=
  [0x94, 2, 0, 0, 0, 0, 0x20, 1, 1, 0, 0, 0, 0, 0, 4, 1] ++ List.replicate 16 0 ++ [7] ++ List.replicate 31 0

/-- The clip channel that the entry names; it has the record that the entry brings. -/
def clipChannel : Chan := { gen := 1, record := clipRecord clipEntry, stake := clipRecord clipEntry }

/-- The clip that it plays: one frame of one pixel at a rate of 1/1. -/
def clipStored : Pack :=
  { fmt := 0x04, kamius := false, w := 1, h := 1, rateNum := 1, rateDen := 1, frames := 1, length := 64, fcrcs := [0] }

/-- A running device with that channel and clip, and no ingest channel, where `XSD_CHANNELS` of decoder 0 tells
of one stake. Queue 0 holds one entry. -/
def staleDecoderStakes : State where
  dev :=
    { regs := [((R.SQ_SIZE_LOG2 0).key, 4), ((R.SQ_EN 0).key, 1), ((R.SQ_STATE 0).key, 1), ((R.SQ_DB 0).key, 2),
        ((R.CQ_SIZE_LOG2 0).key, 4), (R.ADM_STATE.key, admNormal), (R.PWR_SU_STATE.key, suRun), ((R.XSD_CHANNELS 0).key, 1)]
      ch := { chans := [(chanKey clsClip 0, clipChannel)] }
      ing := { packs := [(1, clipStored)] } }

/-- The value of a field that a command leaves. -/
def fieldAfter (o : Out) (f : Fld) : Option Nat :=
  match o with
  | .next t => some (t.dev.get f)
  | _ => none

theorem fieldAfter_next (t : State) (f : Fld) : fieldAfter (.next t) f = some (t.dev.get f) := rfl

/-- The admission of the update shows the ledger anew (R181, R567), also in the ingest block: no stake on decoder 0. -/
theorem staleDecoderStakes_refreshed :
    fieldAfter (exec (.clipUpdate 0 clipEntry) staleDecoderStakes) (R.XSD_CHANNELS 0) = some 0 := by decide

end Sys2Proof.Machine

open Sys2Proof Sys2Proof.Machine

/-- Refutes O18: an admitted CLIP_UPDATE shows the ledger anew in `XSD_CHANNELS` and `XSD_LOAD` too, which lie in the ingest
block, and the statement leaves CLIP_UPDATE the blocks of queues and admission alone. The statement speaks of every state, also
of one where `XSD_CHANNELS` tells of a stake that no channel holds; there the update changes it. -/
theorem not_updatesReplaceRecordsAndReadmitStakes : ¬ Obligations.UpdatesReplaceRecordsAndReadmitStakes := by
  unfold Obligations.UpdatesReplaceRecordsAndReadmitStakes
  intro h
  obtain ⟨-, hclip, -⟩ := h staleDecoderStakes 0 clipEntry clipChannel (by decide) (by decide) (by decide)
    (by decide)
  obtain ⟨t, ht, -, -, -, -, -, -, ⟨frame, -⟩, -⟩ := hclip _ (by decide) (by decide) (by decide)
    (by decide) (by decide) (Option.eq_some_of_isSome (by decide)) (by decide)
  have refreshed := staleDecoderStakes_refreshed
  rw [ht, fieldAfter_next, frame (R.XSD_CHANNELS 0) (by decide)] at refreshed
  exact absurd refreshed (by decide)

end

section
/-! SUPPORT. The deal plan of a quarter (R207, R208): every entry goes to one pip, and no two pips differ by more than one entry. -/

namespace Sys2Proof.Machine

-- One theorem after the other, as in the sections above.
set_option Elab.async false

/-! ### One class -/

-- Written out and proved by linear arithmetic: this theorem waits for no declaration before it, and while it is elaborated the checks of
-- the text above come to their end, for which the first declaration that needs them would hold a thread.
/-- The pips that get one entry more than the others follow one another from the deal's beginning, around the quarter. -/
theorem share_eq {n ptr len i : Nat} (hptr : ptr < n) (hi : i < n) :
    (if i < ptr then 1 else 0) + (if (i + n - ptr) % n < len % n then len / n + 1 else len / n) =
      len / n + (ptr + len % n) / n + (if i < (ptr + len % n) % n then 1 else 0) := by
  have hn : 0 < n := hptr.pos
  have hextra : len % n < n := Nat.mod_lt _ hn
  have hturn : i + n - ptr + ptr = i + n := Nat.sub_add_cancel (by linarith)
  have hoff := Nat.div_add_mod (i + n - ptr) n
  have hofflt := Nat.mod_lt (i + n - ptr) hn
  have hend := Nat.div_add_mod (ptr + len % n) n
  have hendlt := Nat.mod_lt (ptr + len % n) hn
  generalize len / n = base
  generalize (i + n - ptr) / n = turns at *
  generalize (i + n - ptr) % n = off at *
  generalize (ptr + len % n) / n = carry at *
  generalize (ptr + len % n) % n = last at *
  generalize len % n = extra at *
  have hturns : turns < 2 := by nlinarith
  have hcarry : carry < 2 := by nlinarith
  rw [← hoff] at hturn
  clear hoff hn
  interval_cases turns <;> interval_cases carry <;> split_ifs <;> linarith

/-- How many entries of a class of len pip i of n gets where the deal begins at ptr. -/
def dealSize (n ptr len i : Nat) : Nat := if (i + n - ptr) % n < len % n then len / n + 1 else len / n

/-- Whether pip i is among the first m. -/
def among (m i : Nat) : Nat := if i < m then 1 else 0

/-- With its share of one more class, a pip has what it would have were the deal to end where it does. -/
theorem among_add_dealSize {n ptr len i : Nat} (hptr : ptr < n) (hi : i < n) :
    among ptr i + dealSize n ptr len i = len / n + (ptr + len % n) / n + among ((ptr + len % n) % n) i :=
  share_eq hptr hi

/-- So many of n pips are among the first m. -/
theorem sum_among {n m : Nat} (h : m ≤ n) : ((List.range n).map (among m)).sum = m := by
  have upTo : ∀ k, ((List.range k).map (among m)).sum = min k m := by
    intro k
    induction k with
    | zero => simp
    | succ k ih =>
      rw [List.range_succ, List.map_append, List.sum_append, ih]
      simp only [List.map_cons, List.map_nil, List.sum_cons, List.sum_nil, among]
      split_ifs <;> omega
  rw [upTo, Nat.min_eq_right h]

/-- A class is dealt out whole. -/
theorem sum_dealSize {n ptr : Nat} (len : Nat) (hptr : ptr < n) : ((List.range n).map (dealSize n ptr len)).sum = len := by
  have hpos : 0 < n := by omega
  have both : ((List.range n).map fun i => among ptr i + dealSize n ptr len i).sum =
      ((List.range n).map fun i => len / n + (ptr + len % n) / n + among ((ptr + len % n) % n) i).sum :=
    congrArg List.sum (List.map_congr_left fun i hi => among_add_dealSize hptr (List.mem_range.1 hi))
  rw [List.sum_map_add, List.sum_map_add, sum_among hptr.le, sum_among (Nat.mod_lt _ hpos).le, List.map_const', List.sum_replicate,
    List.length_range, smul_eq_mul] at both
  have turn := Nat.div_add_mod (ptr + len % n) n
  have whole := Nat.div_add_mod len n
  rw [Nat.mul_add] at both
  omega

/-- One pip's slice of a class, taken at an offset. -/
def dealStep (size : Nat → Nat) (cls : List Nat) (acc : Nat × List (List Nat)) (x : List Nat × Nat) : Nat × List (List Nat) :=
  (acc.1 + size x.2, acc.2 ++ [x.1 ++ (cls.drop acc.1).take (size x.2)])

/-- Slices dealt from an offset on: where they take the class to its end, every entry from there on is dealt once, and each pip's
list grows by its share. -/
theorem dealStep_foldl (size : Nat → Nat) (cls : List Nat) : ∀ (plan : List (List Nat)) (k off : Nat) (acc : List (List Nat)),
    off + ((List.range' k plan.length).map size).sum = cls.length →
    let r := ((plan.zipIdx k).foldl (dealStep size cls) (off, acc)).2
    r.flatten.Perm (acc.flatten ++ plan.flatten ++ cls.drop off) ∧
      r.map List.length = acc.map List.length ++ (plan.zipIdx k).map fun x => x.1.length + size x.2 := by
  intro plan
  induction plan with
  | nil =>
    intro k off acc hsum
    have hend : cls.drop off = [] := List.drop_eq_nil_of_le (by simpa using hsum.ge)
    simp [hend]
  | cons x plan ih =>
    intro k off acc hsum
    simp only [List.length_cons, List.range'_succ, List.map_cons, List.sum_cons] at hsum
    obtain ⟨perm, lengths⟩ := ih (k + 1) (off + size k) (acc ++ [x ++ (cls.drop off).take (size k)]) (by omega)
    refine ⟨perm.trans ?_, lengths.trans ?_⟩
    · have cut : (cls.drop off).take (size k) ++ cls.drop (off + size k) = cls.drop off := by
        rw [← List.drop_drop, List.take_append_drop]
      generalize (cls.drop off).take (size k) = got at cut ⊢
      rw [← cut]
      simp only [List.flatten_append, List.flatten_cons, List.flatten_nil, List.append_nil, List.append_assoc]
      refine List.Perm.append_left _ (List.Perm.append_left _ ?_)
      rw [← List.append_assoc, ← List.append_assoc]
      exact List.perm_append_comm.append_right _
    · have share : min (size k) (cls.length - off) = size k := Nat.min_eq_left (by omega)
      simp [share]

/-- A class dealt: the plan holds its entries beside those it held, and each pip's list has grown by its share. -/
theorem dealClass_spec {n ptr : Nat} {cls : List Nat} {plan : List (List Nat)} (hptr : ptr < n) (hlen : plan.length = n) :
    (dealClass n ptr cls plan).flatten.Perm (plan.flatten ++ cls) ∧
      (dealClass n ptr cls plan).map List.length = plan.zipIdx.map fun x => x.1.length + dealSize n ptr cls.length x.2 := by
  have whole : 0 + ((List.range' 0 plan.length).map (dealSize n ptr cls.length)).sum = cls.length := by
    rw [Nat.zero_add, hlen, ← List.range_eq_range', sum_dealSize _ hptr]
  exact dealStep_foldl (dealSize n ptr cls.length) cls plan 0 0 [] whole

/-! ### The plan -/

/-- A plan for n pips that holds the given entries, the next class to be dealt from ptr on: the pips before it have one entry more
than the others. -/
structure Dealt (n ptr : Nat) (plan : List (List Nat)) (entries : List Nat) : Prop where
  ptr_lt : ptr < n
  perm : plan.flatten.Perm entries
  lengths : ∃ base, plan.map List.length = (List.range n).map fun i => base + among ptr i

theorem Dealt.length {n ptr : Nat} {plan : List (List Nat)} {entries : List Nat} (h : Dealt n ptr plan entries) : plan.length = n := by
  obtain ⟨base, hl⟩ := h.lengths
  simpa using congrArg List.length hl

/-- One class more. -/
theorem Dealt.dealClass {n ptr : Nat} {plan : List (List Nat)} {entries cls : List Nat} (h : Dealt n ptr plan entries) :
    Dealt n ((ptr + cls.length % n) % n) (dealClass n ptr cls plan) (entries ++ cls) := by
  obtain ⟨hperm, hlens⟩ := dealClass_spec (cls := cls) h.ptr_lt h.length
  obtain ⟨base, hl⟩ := h.lengths
  refine ⟨Nat.mod_lt _ (by have := h.ptr_lt; omega), hperm.trans (h.perm.append_right _),
    base + (cls.length / n + (ptr + cls.length % n) / n), hlens.trans (List.ext_getElem ?_ fun i h1 h2 => ?_)⟩
  · simp [h.length]
  · simp only [List.length_map, List.length_range] at h2
    have hi : i < plan.length := by rwa [h.length]
    have held : plan[i].length = base + among ptr i := by
      have same := List.getElem_of_eq hl (i := i) (by rwa [List.length_map])
      rwa [List.getElem_map, List.getElem_map, List.getElem_range] at same
    have grown := among_add_dealSize (len := cls.length) h.ptr_lt h2
    simp only [List.getElem_map, List.getElem_zipIdx, List.getElem_range, Nat.zero_add, held]
    omega

/-- A plan that holds nothing. -/
theorem Dealt.empty {n : Nat} (hn : 0 < n) : Dealt n 0 (List.replicate n []) [] := by
  refine ⟨hn, by simp, 0, ?_⟩
  simp [among]

/-- One class after the other, each from where the last ended. -/
theorem Dealt.foldl {n : Nat} (classes : List (List Nat)) : ∀ {ptr : Nat} {plan : List (List Nat)} {entries : List Nat},
    Dealt n ptr plan entries → ∃ ptr', Dealt n ptr' (classes.foldl (fun (acc : Nat × List (List Nat)) c =>
      ((acc.1 + c.length % n) % n, Machine.dealClass n acc.1 c acc.2)) (ptr, plan)).2 (entries ++ classes.flatten) := by
  induction classes with
  | nil => exact fun h => ⟨_, by simpa using h⟩
  | cons c classes ih =>
    intro ptr plan entries h
    obtain ⟨ptr', rest⟩ := ih (h.dealClass (cls := c))
    exact ⟨ptr', by simpa using rest⟩

/-- The plan of a quarter holds every entry once, and no two of its pips differ by more than one entry (R208). -/
theorem buildPlan_spec {n : Nat} (classes : List (List Nat)) (hn : 0 < n) :
    (buildPlan n classes).length = n ∧ (buildPlan n classes).flatten.Perm classes.flatten ∧
      ∀ a ∈ buildPlan n classes, ∀ b ∈ buildPlan n classes, a.length ≤ b.length + 1 := by
  obtain ⟨ptr, dealt⟩ := Dealt.foldl classes (Dealt.empty hn)
  rw [List.nil_append] at dealt
  obtain ⟨base, hl⟩ := dealt.lengths
  have share : ∀ a ∈ buildPlan n classes, base ≤ a.length ∧ a.length ≤ base + 1 := by
    intro a ha
    have : a.length ∈ (List.range n).map fun i => base + among ptr i := hl ▸ List.mem_map_of_mem ha
    obtain ⟨i, -, hi⟩ := List.mem_map.1 this
    unfold among at hi
    split_ifs at hi <;> omega
  refine ⟨dealt.length, dealt.perm, fun a ha b hb => ?_⟩
  have := share a ha
  have := share b hb
  omega

end Sys2Proof.Machine
end

section
/-! SUPPORT. The pace monitors of the cups (R220, R222), and the loop that raises VCORE by them (R835). -/

namespace Sys2Proof.Machine

-- One theorem after the other, as above: no thread waits for the checks of the text before.
set_option Elab.async false

/-! ### Frames within frames -/

/-- A frame within another. -/
theorem Dev.Only.widen {r r' : Nat → Bool} {l l' : List Part} {d e : Dev} (h : d.Only r l e) (hr : ∀ k, r k = true → r' k = true)
    (hl : l ⊆ l') : d.Only r' l' e :=
  Sys2Proof.Only.mono h (fun k hk => Bool.eq_false_iff.2 fun ht => absurd (hr k ht) (Bool.eq_false_iff.1 hk)) hl

theorem orNote_mono {l l' : List Fld} (h : l ⊆ l') (k : Nat) (hk : orNote l k = true) : orNote l' k = true := by
  rcases Bool.or_eq_true_iff.1 hk with hn | hf
  · exact orNote_of_noteBlock k hn
  · obtain ⟨f, hm, rfl⟩ := regsOf_eq_true.1 hf
    exact orNote_of_mem (h hm)

/-- A status bit raised with its event changes nothing but the bit and what is noted. -/
theorem Dev.flagRaise_only (d : Dev) (f : Fld) (n : Nat) : d.Only (orNote [f]) notes (d.flagRaise f n) :=
  ((Only.refl _ _ d).flag (orNote_of_mem (List.mem_singleton_self f))).note (Noting.raiseD_any _ _ _) orNote_of_noteBlock

/-! ### One sample of one cup -/

/-- Raising an event under a key of its own notes it. -/
theorem Noting.raiseOnceKey (d : Dev) (key e x : Nat) : d.Noted (d.raiseOnceKey key e x) :=
  ite_of (refl d) (trans (mapEv d fun v => { v with once := key :: v.once }) (raiseD_any _ e x))

/-- The reading of a sample with its extremes. -/
def Dev.paceShown (d : Dev) (c v : Nat) : Dev :=
  ((d.put (R.CUP_PACE_NOW c) v).put (R.CUP_PACE_MIN c) (min v ((d.put (R.CUP_PACE_NOW c) v).get (R.CUP_PACE_MIN c)))).put
    (R.CUP_PACE_MAX c) (max v ((d.put (R.CUP_PACE_NOW c) v).get (R.CUP_PACE_MAX c)))

/-- What a sample records of a reading below PA. -/
def Dev.paceBelow (d : Dev) (c : Nat) (below : Bool) : Dev :=
  if below then
    (((d.put (R.CUP_BELOW c) 1).bumpSat (R.CUP_BELOW_US c) 1).flag (R.CUP_PACE_LOW c)).raiseOnceKey (100000 + c) (352 + c) (2 ^ 0)
  else (d.put (R.CUP_BELOW c) 0).put (R.CUP_BELOW_US c) 0

/-- What a sample records of a reading below the floor. -/
def Dev.paceFloor (d : Dev) (c : Nat) (below : Bool) : Dev :=
  if below then (d.flag (R.CUP_PACE_FLOOR c)).raiseOnceKey (200000 + c) (352 + c) (2 ^ 1) else d

/-- A sample shows its reading, then records whether it lies below PA, and below the floor. -/
theorem Dev.samplePace_eq (d : Dev) (c n : Nat) :
    d.samplePace c n =
      let v := paceReading (d.get (R.CUP_MON_SCALE c)) n
      ((d.paceShown c v).paceBelow c (decide (v < d.get (R.ADM_PA (c / 8))))).paceFloor c (decide (v < 3072)) := by
  simp only [samplePace, paceShown, paceBelow, paceFloor, decide_eq_true_eq]

/-- A reading fills 16 bits at the most. -/
theorem paceReading_lt (scale n : Nat) : paceReading scale n < 2 ^ 16 := by
  unfold paceReading
  omega

/-- The fields in which a sample records whether its reading lies below PA. -/
def belowFields (c : Nat) : List Fld := [R.CUP_BELOW c, R.CUP_BELOW_US c, R.CUP_PACE_LOW c]

/-- The fields of a cup lie beside one another (R226). -/
theorem belowFields_cup {c : Nat} {f : Fld} (hf : f ∈ belowFields c) : f.key / 0x4000 = 0x4010 + c % 32 := by
  simp only [belowFields, List.mem_cons, List.not_mem_nil, or_false] at hf
  rcases hf with rfl | rfl | rfl <;> simp only [R.CUP_BELOW, R.CUP_BELOW_US, R.CUP_PACE_LOW, Fld.key] <;> omega

/-- The fields of a cup are not those of events and the ledger. -/
theorem untold_of_cup {c k : Nat} (h : k / 0x4000 = 0x4010 + c % 32) : noteBlock k = false := noteBlock_eq_false.2 (by omega)

theorem Dev.paceBelow_only (d : Dev) (c : Nat) (below : Bool) : d.Only (orNote (belowFields c)) notes (d.paceBelow c below) := by
  have named : ∀ f ∈ belowFields c, orNote (belowFields c) f.key = true := fun _ => orNote_of_mem
  simp only [belowFields, List.forall_mem_cons] at named
  obtain ⟨hbelow, hus, hlow, -⟩ := named
  have start := Only.refl (orNote (belowFields c)) notes d
  exact .ite ((((start.put hbelow).put hus).flag hlow).note (Noting.raiseOnceKey _ _ _ _) orNote_of_noteBlock)
    ((start.put hbelow).put hus)

theorem Dev.paceFloor_only (d : Dev) (c : Nat) (below : Bool) :
    d.Only (orNote [R.CUP_PACE_FLOOR c]) notes (d.paceFloor c below) :=
  (Only.refl _ _ d).when fun h =>
    (h.flag (orNote_of_mem (List.mem_singleton_self _))).note (Noting.raiseOnceKey _ _ _ _) orNote_of_noteBlock

/-- A reading and its extremes are read back. -/
theorem Dev.paceShown_get (d : Dev) {c v : Nat} (hv : v < 2 ^ 16) :
    (d.paceShown c v).get (R.CUP_PACE_NOW c) = v ∧
      (d.paceShown c v).get (R.CUP_PACE_MIN c) = min v (d.get (R.CUP_PACE_MIN c)) ∧
      (d.paceShown c v).get (R.CUP_PACE_MAX c) = max v (d.get (R.CUP_PACE_MAX c)) := by
  have nowMin : (R.CUP_PACE_MIN c).key ≠ (R.CUP_PACE_NOW c).key := by simp only [R.CUP_PACE_MIN, R.CUP_PACE_NOW, Fld.key]; omega
  have nowMax : (R.CUP_PACE_MAX c).key ≠ (R.CUP_PACE_NOW c).key := by simp only [R.CUP_PACE_MAX, R.CUP_PACE_NOW, Fld.key]; omega
  have minMax : (R.CUP_PACE_MIN c).key ≠ (R.CUP_PACE_MAX c).key := by simp only [R.CUP_PACE_MIN, R.CUP_PACE_MAX, Fld.key]; omega
  unfold paceShown
  rw [get_put_ne _ _ _ _ nowMin, get_put_ne _ _ _ _ nowMax]
  refine ⟨?_, ?_, ?_⟩
  · rw [get_put_ne _ _ _ _ nowMax.symm, get_put_ne _ _ _ _ nowMin.symm, get_put_same]
    exact Nat.mod_eq_of_lt hv
  · rw [get_put_ne _ _ _ _ minMax, get_put_same]
    exact Nat.mod_eq_of_lt ((Nat.min_le_left _ _).trans_lt hv)
  · rw [get_put_same]
    exact Nat.mod_eq_of_lt (Nat.max_lt.2 ⟨hv, d.get_lt _⟩)

/-- A reading below PA is flagged, and the time below PA grows by 1 µs; another ends it. -/
theorem Dev.paceBelow_get (d : Dev) (c : Nat) (below : Bool) :
    (d.paceBelow c below).get (R.CUP_BELOW c) = (if below then 1 else 0) ∧
      (d.paceBelow c below).get (R.CUP_BELOW_US c) = (if below then min (d.get (R.CUP_BELOW_US c) + 1) 0xFFFF else 0) ∧
      (below = true → (d.paceBelow c below).get (R.CUP_PACE_LOW c) = 1) := by
  have belowUs : (R.CUP_BELOW c).key ≠ (R.CUP_BELOW_US c).key := by simp only [R.CUP_BELOW, R.CUP_BELOW_US, Fld.key]; omega
  have belowLow : (R.CUP_BELOW c).key ≠ (R.CUP_PACE_LOW c).key := by simp only [R.CUP_BELOW, R.CUP_PACE_LOW, Fld.key]; omega
  have usLow : (R.CUP_BELOW_US c).key ≠ (R.CUP_PACE_LOW c).key := by simp only [R.CUP_BELOW_US, R.CUP_PACE_LOW, Fld.key]; omega
  have untold : ∀ f ∈ belowFields c, noteBlock f.key = false := fun f hf => untold_of_cup (belowFields_cup hf)
  simp only [belowFields, List.forall_mem_cons] at untold
  obtain ⟨hbelow, hus, hlow, -⟩ := untold
  cases below with
  | false =>
    refine ⟨?_, ?_, fun h => absurd h (by decide)⟩
    · exact (get_put_ne _ _ _ _ belowUs).trans (get_put_same _ _ _)
    · exact get_put_same _ _ _
  | true =>
    have told (x : Dev) {f : Fld} (hf : noteBlock f.key = false) :
        (x.raiseOnceKey (100000 + c) (352 + c) (2 ^ 0)).get f = x.get f := (Noting.raiseOnceKey x _ _ _).1 f hf
    refine ⟨?_, ?_, fun _ => ?_⟩
    · refine (told _ hbelow).trans ((get_flag_ne _ _ _ belowLow).trans ((get_put_ne _ _ _ _ belowUs).trans ?_))
      exact get_put_same _ _ _
    · have small : min (d.get (R.CUP_BELOW_US c) + 1) 0xFFFF % 2 ^ 16 = min (d.get (R.CUP_BELOW_US c) + 1) 0xFFFF :=
        Nat.mod_eq_of_lt (by omega)
      refine (told _ hus).trans ((get_flag_ne _ _ _ usLow).trans ((get_put_same _ _ _).trans ?_))
      rw [get_put_ne _ _ _ _ belowUs.symm]
      exact small
    · exact (told _ hlow).trans (get_flag_same _ _)

/-- A reading below the floor is flagged. -/
theorem Dev.paceFloor_get (d : Dev) (c : Nat) : (d.paceFloor c true).get (R.CUP_PACE_FLOOR c) = 1 :=
  ((Noting.raiseOnceKey _ _ _ _).1 _ (by
    rw [noteBlock_eq_false]
    simp only [R.CUP_PACE_FLOOR, Fld.key]
    omega)).trans (get_flag_same _ _)

/-- In e cup c shows the reading that count n gives in d, its extremes, and how long it has been below PA. -/
def Dev.PaceRead (d e : Dev) (c n : Nat) : Prop :=
  let v := min 0xFFFF (n * d.get (R.CUP_MON_SCALE c) / 65536)
  let below := v < d.get (R.ADM_PA (c / 8))
  e.get (R.CUP_PACE_NOW c) = v ∧ e.get (R.CUP_PACE_MIN c) = min v (d.get (R.CUP_PACE_MIN c)) ∧
    e.get (R.CUP_PACE_MAX c) = max v (d.get (R.CUP_PACE_MAX c)) ∧
    (below → e.get (R.CUP_BELOW c) = 1 ∧ e.get (R.CUP_PACE_LOW c) = 1 ∧
      e.get (R.CUP_BELOW_US c) = min (d.get (R.CUP_BELOW_US c) + 1) 0xFFFF) ∧
    (¬below → e.get (R.CUP_BELOW c) = 0 ∧ e.get (R.CUP_BELOW_US c) = 0) ∧
    (v < 3072 → e.get (R.CUP_PACE_FLOOR c) = 1)

/-- The fields that a sample of cup c changes. -/
def paceFields (c : Nat) : List Fld :=
  [R.CUP_PACE_NOW c, R.CUP_PACE_MIN c, R.CUP_PACE_MAX c, R.CUP_PACE_FLOOR c] ++ belowFields c

/-- The fields that a sample of cup c reads. -/
def paceInputs (c : Nat) : List Fld :=
  [R.CUP_MON_SCALE c, R.ADM_PA (c / 8), R.CUP_PACE_MIN c, R.CUP_PACE_MAX c, R.CUP_BELOW_US c]

theorem paceFields_cup {c : Nat} {f : Fld} (hf : f ∈ paceFields c) : f.key / 0x4000 = 0x4010 + c % 32 := by
  rcases List.mem_append.1 hf with hf | hf
  · simp only [List.mem_cons, List.not_mem_nil, or_false] at hf
    rcases hf with rfl | rfl | rfl | rfl <;>
      simp only [R.CUP_PACE_NOW, R.CUP_PACE_MIN, R.CUP_PACE_MAX, R.CUP_PACE_FLOOR, Fld.key] <;> omega
  · exact belowFields_cup hf

/-- A sample of a cup changes what it shows alone. -/
theorem Dev.samplePace_only (d : Dev) (c n : Nat) : d.Only (orNote (paceFields c)) notes (d.samplePace c n) := by
  have named : ∀ f ∈ [R.CUP_PACE_NOW c, R.CUP_PACE_MIN c, R.CUP_PACE_MAX c], orNote (paceFields c) f.key = true := fun f hf =>
    orNote_of_mem (List.mem_append_left _ (List.mem_append_left [R.CUP_PACE_FLOOR c] hf))
  simp only [List.forall_mem_cons] at named
  obtain ⟨hnow, hmin, hmax, -⟩ := named
  rw [samplePace_eq]
  have shown (v : Nat) : d.Only (orNote (paceFields c)) notes (d.paceShown c v) :=
    (((Only.refl _ _ d).put hnow).put hmin).put hmax
  exact Only.trans (Only.trans (shown _) ((paceBelow_only _ c _).widen (orNote_mono (List.subset_append_right _ _)) fun _ h => h))
    ((paceFloor_only _ c _).widen (orNote_mono (by simp [paceFields])) fun _ h => h)

/-- The reading and its extremes are not shown where a sample records what lies below PA or below the floor. -/
theorem shownFields_apart (c : Nat) : ∀ f ∈ [R.CUP_PACE_NOW c, R.CUP_PACE_MIN c, R.CUP_PACE_MAX c],
    orNote (R.CUP_PACE_FLOOR c :: belowFields c) f.key = false := by
  intro f hf
  have cup : f.key / 0x4000 = 0x4010 + c % 32 := paceFields_cup (List.mem_append_left _ (List.mem_append_left [_] hf))
  refine orNote_eq_false.2 ⟨untold_of_cup cup, ?_⟩
  simp only [List.mem_cons, List.not_mem_nil, or_false] at hf
  simp only [belowFields, List.forall_mem_cons, List.not_mem_nil, false_imp_iff, implies_true, and_true]
  rcases hf with rfl | rfl | rfl <;>
    simp only [R.CUP_PACE_NOW, R.CUP_PACE_MIN, R.CUP_PACE_MAX, R.CUP_PACE_FLOOR, R.CUP_BELOW, R.CUP_BELOW_US, R.CUP_PACE_LOW,
      Fld.key] <;> omega

/-- What a sample records of a reading below PA stands beside the rest that it shows. -/
theorem belowFields_apart (c : Nat) : ∀ f ∈ belowFields c, orNote [R.CUP_PACE_FLOOR c] f.key = false := by
  intro f hf
  refine orNote_eq_false.2 ⟨untold_of_cup (belowFields_cup hf), ?_⟩
  simp only [belowFields, List.mem_cons, List.not_mem_nil, or_false] at hf
  simp only [List.forall_mem_singleton]
  rcases hf with rfl | rfl | rfl <;>
    simp only [R.CUP_PACE_FLOOR, R.CUP_BELOW, R.CUP_BELOW_US, R.CUP_PACE_LOW, Fld.key] <;> omega

/-- The time below PA is not among the reading and its extremes. -/
theorem Dev.paceShown_belowUs (d : Dev) (c v : Nat) : (d.paceShown c v).get (R.CUP_BELOW_US c) = d.get (R.CUP_BELOW_US c) := by
  unfold paceShown
  rw [get_put_ne, get_put_ne, get_put_ne] <;>
    simp only [R.CUP_PACE_NOW, R.CUP_PACE_MIN, R.CUP_PACE_MAX, R.CUP_BELOW_US, Fld.key] <;> omega

/-- A sample of a cup shows its reading. -/
theorem Dev.samplePace_reads (d : Dev) (c n : Nat) : d.PaceRead (d.samplePace c n) c n := by
  have hv : min 0xFFFF (n * d.get (R.CUP_MON_SCALE c) / 65536) = paceReading (d.get (R.CUP_MON_SCALE c)) n := rfl
  have small := paceReading_lt (d.get (R.CUP_MON_SCALE c)) n
  unfold PaceRead
  rw [samplePace_eq, hv]
  generalize paceReading (d.get (R.CUP_MON_SCALE c)) n = v at small ⊢
  dsimp only
  generalize hb : decide (v < d.get (R.ADM_PA (c / 8))) = b
  have hbelow : v < d.get (R.ADM_PA (c / 8)) ↔ b = true := by rw [← hb, decide_eq_true_eq]
  obtain ⟨hnow, hmin, hmax⟩ := d.paceShown_get (c := c) small
  obtain ⟨hflag, hus, hlow⟩ := (d.paceShown c v).paceBelow_get c b
  have floored (f : Fld) (hf : f ∈ belowFields c) := (paceFloor_only ((d.paceShown c v).paceBelow c b) c (decide (v < 3072))).1 f
    (belowFields_apart c f hf)
  have recorded (f : Fld) (hf : f ∈ [R.CUP_PACE_NOW c, R.CUP_PACE_MIN c, R.CUP_PACE_MAX c]) :
      (((d.paceShown c v).paceBelow c b).paceFloor c (decide (v < 3072))).get f = (d.paceShown c v).get f := by
    obtain ⟨hn, hall⟩ := orNote_eq_false.1 (shownFields_apart c f hf)
    obtain ⟨hfloor, hbelow⟩ := List.forall_mem_cons.1 hall
    exact ((paceFloor_only _ c _).1 f (orNote_eq_false.2 ⟨hn, List.forall_mem_singleton.2 hfloor⟩)).trans
      ((paceBelow_only _ c b).1 f (orNote_eq_false.2 ⟨hn, hbelow⟩))
  simp only [belowFields, List.forall_mem_cons] at floored recorded
  obtain ⟨flagEnd, usEnd, lowEnd, -⟩ := floored
  obtain ⟨nowEnd, minEnd, maxEnd, -⟩ := recorded
  rw [hbelow, nowEnd, minEnd, maxEnd, flagEnd, usEnd, lowEnd, hflag, hus, paceShown_belowUs]
  refine ⟨hnow, hmin, hmax, fun h => ?_, fun h => ?_, fun h => ?_⟩
  · subst h
    exact ⟨rfl, hlow rfl, rfl⟩
  · simp [h]
  · rw [decide_eq_true h]
    exact paceFloor_get _ c

/-! ### The samples of all cups -/

/-- A reading stands where neither what it is taken from nor what it shows has changed. -/
theorem Dev.PaceRead.congr {d d' e e' : Dev} {c n : Nat} (h : d.PaceRead e c n) (hd : ∀ f ∈ paceInputs c, d.get f = d'.get f)
    (he : ∀ f ∈ paceFields c, e'.get f = e.get f) : d'.PaceRead e' c n := by
  simp only [paceInputs, List.forall_mem_cons] at hd
  simp only [paceFields, belowFields, List.cons_append, List.nil_append, List.forall_mem_cons] at he
  obtain ⟨hscale, hpa, hmin, hmax, hus, -⟩ := hd
  obtain ⟨hnow', hmin', hmax', hfloor', hbelow', hus', hlow', -⟩ := he
  unfold PaceRead at h ⊢
  rwa [hnow', hmin', hmax', hfloor', hbelow', hus', hlow', ← hscale, ← hpa, ← hmin, ← hmax, ← hus]

/-- A sample of another cup leaves a cup's fields alone, and PA. -/
theorem paceFields_of_other {c c' : Nat} (hc : c < 32) (hc' : c' < 32) (hne : c ≠ c') :
    ∀ f ∈ paceInputs c ++ paceFields c, orNote (paceFields c') f.key = false := by
  have apart {k : Nat} (hn : noteBlock k = false) (hk : k / 0x4000 ≠ 0x4010 + c' % 32) : orNote (paceFields c') k = false :=
    orNote_eq_false.2 ⟨hn, fun f hf he => hk (he ▸ paceFields_cup hf)⟩
  have cup {k : Nat} (h : k / 0x4000 = 0x4010 + c % 32) : orNote (paceFields c') k = false :=
    apart (untold_of_cup h) (by omega)
  intro f hf
  rcases List.mem_append.1 hf with hf | hf
  · simp only [paceInputs, List.mem_cons, List.not_mem_nil, or_false] at hf
    rcases hf with rfl | rfl | rfl | rfl | rfl
    · exact cup (by simp only [R.CUP_MON_SCALE, Fld.key]; omega)
    · refine apart (noteBlock_eq_false.2 ?_) ?_ <;> simp only [R.ADM_PA, Fld.key] <;> omega
    · exact cup (by simp only [R.CUP_PACE_MIN, Fld.key]; omega)
    · exact cup (by simp only [R.CUP_PACE_MAX, Fld.key]; omega)
    · exact cup (by simp only [R.CUP_BELOW_US, Fld.key]; omega)
  · exact cup (paceFields_cup hf)

/-- The samples of the cups from k on, one count each. -/
def Dev.samplePaces (d : Dev) (counts : List Nat) (k : Nat) : Dev :=
  (counts.zipIdx k).foldl (fun (d : Dev) x => d.samplePace x.2 x.1) d

theorem Dev.samplePaces_cons (d : Dev) (n : Nat) (counts : List Nat) (k : Nat) :
    d.samplePaces (n :: counts) k = (d.samplePace k n).samplePaces counts (k + 1) := rfl

/-- Samples of the cups from k on leave the cups before alone. -/
theorem Dev.samplePaces_before {counts : List Nat} : ∀ {k : Nat} (d : Dev), k + counts.length ≤ 32 → ∀ c < k,
    ∀ f ∈ paceInputs c ++ paceFields c, (d.samplePaces counts k).get f = d.get f := by
  induction counts with
  | nil => intro k d _ c _ f _; rfl
  | cons n counts ih =>
    intro k d hk c hc f hf
    rw [List.length_cons] at hk
    rw [samplePaces_cons, ih _ (by omega) c (by omega) f hf]
    exact (d.samplePace_only k n).1 f (paceFields_of_other (by omega) (by omega) (by omega) f hf)

/-- Every sampled cup shows its reading. -/
theorem Dev.samplePaces_reads {counts : List Nat} : ∀ {k : Nat} (d : Dev), k + counts.length ≤ 32 → ∀ i < counts.length,
    d.PaceRead (d.samplePaces counts k) (k + i) (counts.getD i 0) := by
  induction counts with
  | nil => intro k d _ i hi; exact absurd hi (Nat.not_lt_zero i)
  | cons n counts ih =>
    intro k d hk i hi
    rw [List.length_cons] at hk hi
    rw [samplePaces_cons]
    cases i with
    | zero =>
      refine (d.samplePace_reads k n).congr (fun _ _ => rfl) fun f hf => ?_
      exact samplePaces_before _ (by omega) k (by omega) f (List.mem_append_right _ hf)
    | succ i =>
      have later := ih (k := k + 1) (d.samplePace k n) (by omega) i (by omega)
      rw [show k + 1 + i = k + (i + 1) by omega] at later
      refine later.congr (fun f hf => ?_) fun _ _ => rfl
      exact (d.samplePace_only k n).1 f (paceFields_of_other (by omega) (by omega) (by omega) f (List.mem_append_left _ hf))

/-- Samples of cups stay in the block of the fabric. -/
theorem Dev.samplePaces_only (d : Dev) (counts : List Nat) (k : Nat) : d.Only (inBlocks [4]) notes (d.samplePaces counts k) := by
  refine Dev.Only.foldl (Only.refl _ _ d) (fun e x h => Only.trans h ((e.samplePace_only x.2 x.1).widen (fun a ha => ?_)
    fun _ h => h)) _
  rcases Bool.or_eq_true_iff.1 ha with hn | hf
  · exact inBlocks_of_noteBlock a hn
  · obtain ⟨f, hm, rfl⟩ := regsOf_eq_true.1 hf
    have := paceFields_cup hm
    exact inBlocks_of_mem (List.mem_singleton.2 (by omega))

theorem paceSample_gives {s : State} {counts : List Nat} (hlen : counts.length = 32) :
    (Instr.paceSample counts).gives s fun t =>
      (∀ c < 32, s.dev.PaceRead t.dev c (counts.getD c 0)) ∧ t.hbm = s.hbm ∧ s.Within [4] [] t := by
  have sampled : exec (.paceSample counts) s = .next (s.upd fun d => d.samplePaces (counts.take 32) 0) := rfl
  rw [List.take_of_length_le hlen.le] at sampled
  refine ⟨_, sampled, fun c hc => ?_, rfl, s.dev.samplePaces_only counts 0, rfl⟩
  have read := s.dev.samplePaces_reads (k := 0) (counts := counts) (by omega) c (by omega)
  rwa [Nat.zero_add] at read

/-! ### The loop -/

/-- The loop notes since when every cup has pace to spare. -/
def Dev.spareNoted (d : Dev) : Dev :=
  let spare := d.pacedCups.all d.cupSpare
  { d with pwr := { d.pwr with spareSince := if spare then some (d.pwr.spareSince.getD d.time.now) else none } }

/-- A note of spare pace leaves the rest as it stands. -/
theorem Dev.Only.spareNoted {r : Nat → Bool} {l : List Part} {d e : Dev} (h : d.Only r l e) (hl : Part.pwr ∈ l) :
    d.Only r l e.spareNoted :=
  h.parts rfl fun p hp => by
    cases p with
    | pwr => exact absurd hl hp
    | _ => rfl

/-- Before the trial and during it the loop holds VADM (R835). -/
theorem Dev.paceLoop_of_trial {d : Dev} (h : d.adm? = admTrial ∨ d.pwr.trialDone = false) :
    d.paceLoop = d.spareNoted.putTarget (d.get R.ADM_VADM_MV) := if_pos h

/-- After the trial a short cup steps the target up, where no limit holds it (R835, R836). -/
theorem Dev.paceLoop_of_short {d : Dev} (hadm : d.adm? ≠ admTrial) (hdone : d.pwr.trialDone = true)
    (hshort : d.pacedCups.any d.cupShort = true) (hfree : d.get R.PWR_VC_LIMITED = 0) : d.paceLoop = d.spareNoted.stepUp := by
  have past : ¬(d.adm? = admTrial ∨ d.pwr.trialDone = false) := by simp [hadm, hdone]
  have limited : ¬d.on R.PWR_VC_LIMITED = true := by simp [Dev.on, hfree]
  exact (if_neg past).trans ((if_pos hshort).trans (if_neg limited))

/-- A target put tells the regulator where it changes. -/
theorem Dev.Only.putTarget {r : Nat → Bool} {l : List Part} {d e : Dev} {mv : Nat} (h : d.Only r l e)
    (hf : r R.PWR_VC_TARGET_MV.key = true) (hl : Part.out ∈ l) : d.Only r l (e.putTarget mv) :=
  h.skipIf fun h => (h.put hf).send hl

theorem Dev.putTarget_get {d : Dev} {mv : Nat} (hmv : mv < 2 ^ 10) : (d.putTarget mv).get R.PWR_VC_TARGET_MV = mv := by
  unfold putTarget
  split_ifs with h
  · exact h
  · exact (get_put_same _ _ _).trans (Nat.mod_eq_of_lt hmv)

/-! ### What is sent stays sent -/

/-- Everything sent in d is sent in e. -/
def Dev.SentLe (d e : Dev) : Prop := d.out ⊆ e.out

namespace Dev.SentLe

variable {d e : Dev}

/-- A change that sends nothing. -/
theorem same {x : Dev} (h : d.SentLe e) (hx : x.out = e.out := by rfl) : d.SentLe x := by
  unfold SentLe
  rw [hx]
  exact h

theorem send {m : OutMsg} (h : d.SentLe e) : d.SentLe (e.send m) := fun _ hx => List.mem_cons_of_mem _ (h hx)

theorem ite {c : Prop} {_ : Decidable c} {x y : Dev} (h : d.SentLe x) (k : d.SentLe y) : d.SentLe (if c then x else y) := by
  split_ifs <;> assumption

theorem when {c : Prop} {_ : Decidable c} {x : Dev} (h : d.SentLe e) (hx : d.SentLe e → d.SentLe x) :
    d.SentLe (if c then x else e) := ite (hx h) h

theorem msi {fn vec : Nat} (h : d.SentLe e) : d.SentLe (e.msi fn vec) := fun _ hx => Dev.mem_out_msi (h hx)

theorem bankRecord {r : EvRec} (h : d.SentLe e) : d.SentLe (e.bankRecord r) := ite h (ite h.same h.same)

theorem eringStep {r tail phase : Nat} (h : d.SentLe e) : d.SentLe (e.eringStep r tail phase) := by
  have tailed : d.SentLe (e.put (R.ERING_TAIL r) tail) := h.same
  exact tailed.when fun h => h.same

theorem eringCount {r : Nat} (h : d.SentLe e) : d.SentLe (e.eringCount r) := by
  have since {n : Nat} : d.SentLe (e.mapEv fun v => { v with since := Tab.set v.since r n }) := h.same
  exact ite since.msi since

theorem eringWrite {r : Nat} {rec : EvRec} (h : d.SentLe e) : d.SentLe (e.eringWrite r rec) := by
  unfold Dev.eringWrite
  refine ite h.same (ite h.same (eringCount (eringStep ?_)))
  exact same h.send

theorem deliver {r : EvRec} {b : Bool} (h : d.SentLe e) : d.SentLe (e.deliver r b) :=
  ((when (same h : d.SentLe (e.bump R.EV_DELIVERED 1)) msi).when eringWrite).when bankRecord

theorem raiseOut {r : EvRec} (h : d.SentLe e) : d.SentLe (e.raiseOut r) := by
  unfold Dev.raiseOut
  refine ite h ?_
  split
  · exact h.same
  · exact ite h.deliver h.deliver.same

/-- Raising an event that is not fatal. -/
theorem raise {n : Nat} (h : d.SentLe e) (hn : fatalEvent n = false) : d.SentLe (e.raise n) := by
  have core : d.SentLe (e.raiseCore n 0) := raiseOut (ite (bankRecord h.same) h.same)
  simpa [Dev.raise, Dev.raiseD, hn] using core

end Dev.SentLe

/-! ### A step up -/

/-- Below VADM a step up raises the target by 5 mV, counts it and tells of it (R835). -/
theorem Dev.stepUp_of_room {d : Dev} (h : d.get R.PWR_VC_TARGET_MV + 5 ≤ d.get R.ADM_VADM_MV) :
    d.stepUp = (((d.put R.PWR_VC_TARGET_MV (d.get R.PWR_VC_TARGET_MV + 5)).send
      (.vout (d.get R.PWR_VC_TARGET_MV + 5))).bump R.PWR_VC_RAISE_CNT 1).raise 68 := by
  have room : min (d.get R.PWR_VC_TARGET_MV + 5) (d.get R.ADM_VADM_MV) = d.get R.PWR_VC_TARGET_MV + 5 := Nat.min_eq_left h
  have moves : d.get R.PWR_VC_TARGET_MV + 5 ≠ d.get R.PWR_VC_TARGET_MV := by omega
  simp only [stepUp, room, if_neg moves, putTarget, if_neg moves.symm]

theorem paceLoopTick_holds {s : State} (h : s.dev.adm? = admTrial ∨ s.dev.pwr.trialDone = false) :
    Instr.paceLoopTick.gives s fun t =>
      t.dev.get R.PWR_VC_TARGET_MV = s.dev.get R.ADM_VADM_MV ∧ s.Noting [R.PWR_VC_TARGET_MV] [.pwr] t := by
  have held : exec .paceLoopTick s = .next { s with dev := s.dev.spareNoted.putTarget (s.dev.get R.ADM_VADM_MV) } := by
    rw [← Dev.paceLoop_of_trial h]
    rfl
  refine ⟨_, held, Dev.putTarget_get (Dev.get_lt s.dev R.ADM_VADM_MV), ?_, rfl, rfl⟩
  exact ((Only.refl _ _ _).spareNoted (by decide)).putTarget (orNote_of_mem (List.mem_singleton_self _)) (by decide)

theorem paceLoopTick_stepsUp {s : State} (hadm : s.dev.adm? ≠ admTrial) (hdone : s.dev.pwr.trialDone = true)
    (hshort : s.dev.pacedCups.any s.dev.cupShort = true) (hfree : s.dev.get R.PWR_VC_LIMITED = 0)
    (hroom : s.dev.get R.PWR_VC_TARGET_MV + 5 ≤ s.dev.get R.ADM_VADM_MV) :
    Instr.paceLoopTick.gives s fun t =>
      t.dev.get R.PWR_VC_TARGET_MV = s.dev.get R.PWR_VC_TARGET_MV + 5 ∧
      t.dev.get R.PWR_VC_RAISE_CNT = (s.dev.get R.PWR_VC_RAISE_CNT + 1) % 2 ^ 64 ∧ t.dev.pends 68 = true ∧
      OutMsg.vout (s.dev.get R.PWR_VC_TARGET_MV + 5) ∈ t.dev.out ∧
      s.Noting [R.PWR_VC_TARGET_MV, R.PWR_VC_RAISE_CNT] [.pwr] t := by
  have small : s.dev.get R.PWR_VC_TARGET_MV + 5 < 2 ^ 10 := hroom.trans_lt (Dev.get_lt s.dev R.ADM_VADM_MV)
  have noted : s.dev.Only (orNote [R.PWR_VC_TARGET_MV, R.PWR_VC_RAISE_CNT]) (notes ++ [.pwr]) s.dev.spareNoted :=
    (Only.refl _ _ _).spareNoted (by decide)
  have raises : s.dev.spareNoted.get R.PWR_VC_RAISE_CNT = s.dev.get R.PWR_VC_RAISE_CNT := rfl
  have stepped : exec .paceLoopTick s = .next { s with dev :=
      (((s.dev.spareNoted.put R.PWR_VC_TARGET_MV (s.dev.get R.PWR_VC_TARGET_MV + 5)).send
        (.vout (s.dev.get R.PWR_VC_TARGET_MV + 5))).bump R.PWR_VC_RAISE_CNT 1).raise 68 } := by
    rw [show exec .paceLoopTick s = .next { s with dev := s.dev.paceLoop } from rfl,
      Dev.paceLoop_of_short hadm hdone hshort hfree, Dev.stepUp_of_room (d := s.dev.spareNoted) hroom]
    rfl
  rw [← raises]
  generalize s.dev.get R.PWR_VC_TARGET_MV + 5 = mv at small stepped ⊢
  generalize s.dev.spareNoted = x at noted stepped ⊢
  have told (y : Dev) {f : Fld} (hf : noteBlock f.key = false) : (y.raise 68).get f = y.get f := (Noting.raiseD_any y 68 0).1 f hf
  refine ⟨_, stepped, ?_, ?_, Pending.raised _ _ _ (by decide), ?_, ?_, rfl, rfl⟩
  · refine (told _ (by decide)).trans ((Dev.get_put_ne _ _ _ _ (by decide)).trans ((Dev.get_put_same _ _ _).trans ?_))
    exact Nat.mod_eq_of_lt small
  · refine (told _ (by decide)).trans ((Dev.get_bump_same _ _ _).trans ?_)
    exact congrArg (fun n => (n + 1) % 2 ^ 64) (Dev.get_put_ne x R.PWR_VC_TARGET_MV R.PWR_VC_RAISE_CNT mv (by decide))
  · exact Dev.SentLe.raise (fun _ h => h) (by decide) (List.mem_cons_self ..)
  · exact (((noted.put (orNote_of_mem (by simp))).send (by decide)).bump (orNote_of_mem (by simp))).note
      (Noting.raiseD_any _ _ _) orNote_of_noteBlock

end Sys2Proof.Machine

open Sys2Proof Sys2Proof.Machine

/-- Settles O21: a sample of a cup is followed field by field, and the samples of the other cups leave it alone; the loop is
taken branch by branch. -/
theorem paceMonitorsReadAndTheLoopStepsUp : Obligations.PaceMonitorsReadAndTheLoopStepsUp := by
  unfold Obligations.PaceMonitorsReadAndTheLoopStepsUp
  intro s counts hlen
  exact ⟨paceSample_gives hlen, paceLoopTick_holds, paceLoopTick_stepsUp⟩

end

section
/-! SUPPORT. A pip that fails (R189, R191, R194, R201): where its work goes, which flags are raised, and what its quarter loses. -/

namespace Sys2Proof.Machine

set_option Elab.async false

/-! ### Orphaned entries -/

/-- A change of the pips beside their registers. -/
theorem Dev.Only.setPip {r : Nat → Bool} {l : List Part} {d e : Dev} {x : PipSt} (h : d.Only r l e)
    (hl : Part.pip ∈ l := by decide) : d.Only r l { e with pip := x } :=
  h.parts rfl fun p hp => by
    cases p with
    | pip => exact absurd hl hp
    | _ => rfl

/-- The fields that orphaned entries change: their count, and the states of the pips that they wake. -/
def wakeBlock (k : Nat) : Bool :=
  k == R.FAB_ORPHANED.key || (decide (0x4100 ≤ k / 0x4000 ∧ k / 0x4000 < 0x4200) && decide (k % 0x4000 < 64))

theorem wakeBlock_of_pip {k : Nat} (h : (0x4100 ≤ k / 0x4000 ∧ k / 0x4000 < 0x4200) ∧ k % 0x4000 < 64) : wakeBlock k = true := by
  simp [wakeBlock, h]

/-- From d to e the entries of l have joined the orphan pool of cup c, and parked pips may have begun to steal. -/
structure Dev.Orphaned (c : Nat) (l : List Nat) (d e : Dev) : Prop where
  only : d.Only wakeBlock [.pip] e
  todo : e.pip.todo = d.pip.todo
  pool : Tab.getD e.pip.orphans c [] = Tab.getD d.pip.orphans c [] ++ l
  work : ∀ p, Tab.get? d.pip.work p = none → Tab.get? e.pip.work p = none

/-- A pip whose work is taken out of the table has none, and no other pip gains any. -/
theorem Tab.get?_erase_none {α : Type} (t : Tab α) (k j : Nat) (h : Tab.get? t j = none) : Tab.get? (Tab.erase t k) j = none := by
  by_cases hj : j = k
  · exact hj ▸ Tab.get?_erase_same t k
  · exact (Tab.get?_erase_ne t k j hj).trans h

theorem Dev.Orphaned.beginIdle {c n : Nat} {l : List Nat} {d e : Dev} (h : d.Orphaned c l e) : d.Orphaned c l (e.beginIdle n) := by
  obtain ⟨only, todo, pool, work⟩ := h
  have hattempt : wakeBlock (R.PIP_ATTEMPT n).key = true := wakeBlock_of_pip (by simp only [R.PIP_ATTEMPT, Fld.key]; omega)
  have hstate : wakeBlock (R.PIP_STATE n).key = true := wakeBlock_of_pip (by simp only [R.PIP_STATE, Fld.key]; omega)
  have idle : d.Only wakeBlock [.pip] ((e.putWork n none).put (R.PIP_ATTEMPT n) 0) := only.setPip.put hattempt
  have erased (p : Nat) (hp : Tab.get? d.pip.work p = none) : Tab.get? (Tab.erase e.pip.work n) p = none :=
    Tab.get?_erase_none _ n p (work p hp)
  unfold Dev.beginIdle
  dsimp only
  split
  · exact ⟨idle.put hstate, todo, pool, erased⟩
  · exact ⟨idle.put hstate, todo, pool, erased⟩

theorem Dev.Orphaned.ite {c : Nat} {l : List Nat} {d x y : Dev} {p : Prop} {_ : Decidable p} (h : d.Orphaned c l x)
    (k : d.Orphaned c l y) : d.Orphaned c l (if p then x else y) := by split_ifs <;> assumption

theorem Dev.Orphaned.foldl {α : Type} {c : Nat} {l : List Nat} {d e : Dev} {f : Dev → α → Dev} (h : d.Orphaned c l e)
    (hf : ∀ (e : Dev) (a : α), d.Orphaned c l e → d.Orphaned c l (f e a)) : ∀ xs : List α, d.Orphaned c l (xs.foldl f e) := by
  intro xs
  induction xs generalizing e with
  | nil => exact h
  | cons a xs ih => exact ih (hf e a h)

/-- Orphaned entries lie in the pool of their cup (R191, R217). -/
theorem Dev.orphaned_orphan (d : Dev) (c : Nat) (l : List Nat) : d.Orphaned c l (d.orphan c l) := by
  have pooled : d.Orphaned c l (({ d with pip := { d.pip with
      orphans := Tab.set d.pip.orphans c (Tab.getD d.pip.orphans c [] ++ l) } } : Dev).bump R.FAB_ORPHANED l.length) :=
    ⟨(Dev.Only.setPip (Only.refl _ _ d)).bump (by decide), rfl, Tab.getD_set_same _ _ _ _, fun _ h => h⟩
  by_cases hl : l = []
  · rw [Dev.orphan, if_pos hl]
    exact ⟨Only.refl _ _ d, rfl, by rw [hl, List.append_nil], fun _ h => h⟩
  · rw [Dev.orphan, if_neg hl]
    exact .ite pooled (pooled.foldl (fun e v h => h.foldl (fun e i h => .ite h.beginIdle h) _) _)

/-! ### A pip taken out of work -/

/-- A pip marked as failed, its bit among the active ones of its cup cleared, nothing left for it to do (R189). -/
def Dev.shut (d : Dev) (p : Nat) : Dev :=
  (((d.putPip p pipFailed).put (R.CUP_ACTIVE (cupOf p)) (clrBit (d.get (R.CUP_ACTIVE (cupOf p))) (p % 8))).putTodo p []).putWork p none

/-- What a pip has in progress, and what it has not started. -/
def Dev.leftOf (d : Dev) (p : Nat) : List Nat := (Tab.get? d.pip.work p).toList ++ d.todo p

/-- The fields that change as a pip is taken out of work, its flags included: of the fabric, and neither the availability of its
cup's reserve nor the record of link timeouts. -/
def failBlock (p k : Nat) : Bool :=
  inBlocks [4] k && decide (k ≠ (R.CUP_RES_AVAIL (cupOf p)).key ∧ k ≠ R.FAB_HS_TIMEOUT.key)

theorem failBlock_of_block {p k : Nat} (hb : k / 0x4000000 = 4) (havail : k ≠ (R.CUP_RES_AVAIL (cupOf p)).key)
    (hto : k ≠ R.FAB_HS_TIMEOUT.key) : failBlock p k = true := by
  simp [failBlock, inBlocks, hb, havail, hto]

theorem failBlock_of_noteBlock {p : Nat} (k : Nat) (h : noteBlock k = true) : failBlock p k = true := by
  have hb := noteBlock_eq_true.1 h
  have havail : k ≠ (R.CUP_RES_AVAIL (cupOf p)).key := by simp only [R.CUP_RES_AVAIL, Fld.key]; omega
  have hto : k ≠ R.FAB_HS_TIMEOUT.key := by simp only [R.FAB_HS_TIMEOUT, Fld.key]; omega
  simp [failBlock, inBlocks, h, havail, hto]

/-- The fields that a failed pip's flags are. -/
def faultFields (p : Nat) : List Fld := [R.PIP_HS_TO p, R.PIP_FAULT p, R.CUP_PIP_FAULT (cupOf p)]

/-- From d to e pip p is out of work and its failure told of. -/
structure Dev.PipDown (p : Nat) (handshake : Bool) (d e : Dev) : Prop where
  out : d.PipOut p e
  work : Tab.get? e.pip.work p = none
  pool : Tab.getD e.pip.orphans (cupOf p) [] = Tab.getD d.pip.orphans (cupOf p) [] ++ d.leftOf p
  link : handshake = true → e.get (R.PIP_HS_TO p) = 1
  fault : e.get (R.PIP_FAULT p) = 1
  cupFault : e.get (R.CUP_PIP_FAULT (cupOf p)) = 1
  pends : e.pends (96 + p) = true
  cupPends : e.pends (352 + cupOf p) = true

/-- It stays so where other fields are changed and events are raised. -/
theorem Dev.PipDown.later {p : Nat} {handshake : Bool} {r : Nat → Bool} {d e x : Dev} (h : d.PipDown p handshake e)
    (k : e.Only r notes x) (hr : ∀ f ∈ faultFields p, r f.key = false) (hp : p < 256) (hout : d.PipOut p x) (hpend : e.PendLe x) :
    d.PipDown p handshake x := by
  simp only [faultFields, List.forall_mem_cons] at hr
  obtain ⟨hlink, hfault, hcup, -⟩ := hr
  have hpip : x.pip = e.pip := k.2 .pip (by decide)
  exact ⟨hout, by rw [hpip, h.work], by rw [hpip, h.pool], fun ht => (k.1 _ hlink).trans (h.link ht), (k.1 _ hfault).trans h.fault,
    (k.1 _ hcup).trans h.cupFault, hpend _ (by omega) h.pends, hpend _ (by unfold cupOf; omega) h.cupPends⟩

/-- A field of the fabric that the failed pip's flags are, beside what taking it out of work changes. -/
theorem faultFields_block {p : Nat} {f : Fld} (hf : f ∈ faultFields p) : failBlock p f.key = true ∧ noteBlock f.key = false := by
  simp only [faultFields, List.mem_cons, List.not_mem_nil, or_false] at hf
  rcases hf with rfl | rfl | rfl <;>
    refine ⟨failBlock_of_block ?_ ?_ ?_, noteBlock_eq_false.2 ?_⟩ <;>
    simp only [R.PIP_HS_TO, R.PIP_FAULT, R.CUP_PIP_FAULT, R.CUP_RES_AVAIL, R.FAB_HS_TIMEOUT, Fld.key] <;> omega

/-- The flags of a failed pip lie apart. -/
theorem faultFields_apart (p : Nat) :
    (R.PIP_FAULT p).key ≠ (R.PIP_HS_TO p).key ∧ (R.CUP_PIP_FAULT (cupOf p)).key ≠ (R.PIP_HS_TO p).key ∧
      (R.CUP_PIP_FAULT (cupOf p)).key ≠ (R.PIP_FAULT p).key := by
  simp only [R.PIP_HS_TO, R.PIP_FAULT, R.CUP_PIP_FAULT, Fld.key]
  omega

theorem failBlock_of_wakeBlock {p : Nat} (k : Nat) (h : wakeBlock k = true) : failBlock p k = true := by
  simp only [wakeBlock, Bool.or_eq_true, Bool.and_eq_true, beq_iff_eq, decide_eq_true_eq] at h
  have hk : k = 0x400118 * 64 ∨ (0x4100 ≤ k / 0x4000 ∧ k / 0x4000 < 0x4200) ∧ k % 0x4000 < 64 := h
  refine failBlock_of_block (by omega) ?_ ?_ <;> simp only [R.CUP_RES_AVAIL, R.FAB_HS_TIMEOUT, Fld.key] <;> omega

/-- A pip is taken out of work within its own fields and its cup's. -/
theorem Dev.shut_only (d : Dev) (p : Nat) : d.Only (failBlock p) (notes ++ [.pip]) (d.shut p) := by
  have hstate : failBlock p (R.PIP_STATE p).key = true := by
    refine failBlock_of_block ?_ ?_ ?_ <;> simp only [R.PIP_STATE, R.CUP_RES_AVAIL, R.FAB_HS_TIMEOUT, Fld.key] <;> omega
  have hactive : failBlock p (R.CUP_ACTIVE (cupOf p)).key = true := by
    refine failBlock_of_block ?_ ?_ ?_ <;> simp only [R.CUP_ACTIVE, R.CUP_RES_AVAIL, R.FAB_HS_TIMEOUT, Fld.key] <;> omega
  have hremain : failBlock p (R.PIP_REMAIN p).key = true := by
    refine failBlock_of_block ?_ ?_ ?_ <;> simp only [R.PIP_REMAIN, R.CUP_RES_AVAIL, R.FAB_HS_TIMEOUT, Fld.key] <;> omega
  exact Dev.Only.setPip (Dev.Only.put (Dev.Only.setPip (((Only.refl _ _ d).put hstate).put hactive)) hremain)

/-- In a link timeout the failed pip's record of it. -/
def Dev.linkTold (d : Dev) (p : Nat) (handshake : Bool) : Dev := if handshake then d.flag (R.PIP_HS_TO p) else d

/-- The flags of a failed pip, each with its event, that record first. -/
def Dev.failTold (d : Dev) (p : Nat) (handshake : Bool) : Dev :=
  ((d.linkTold p handshake).pipFlag p (R.PIP_FAULT p)).cupFlag (cupOf p) (R.CUP_PIP_FAULT (cupOf p))

/-- An active pip that fails is taken out of work, its entries orphaned, and flagged. -/
theorem Dev.failPip_eq {d : Dev} {p : Nat} {handshake : Bool} (hactive : d.pipActive p = true) :
    d.failPip p handshake = ((d.shut p).orphan (cupOf p) (d.leftOf p)).failTold p handshake := by
  have hleft : d.leftOf p = (match Tab.get? d.pip.work p with | some k => [k] | none => []) ++ d.todo p := by
    unfold leftOf
    cases Tab.get? d.pip.work p <;> rfl
  unfold failPip
  rw [hactive, hleft]
  rfl

theorem Dev.failTold_only {p : Nat} {handshake : Bool} {d e : Dev} (h : d.Only (failBlock p) (notes ++ [.pip]) e) :
    d.Only (failBlock p) (notes ++ [.pip]) (e.failTold p handshake) := by
  have named : ∀ f ∈ faultFields p, failBlock p f.key = true := fun _ hf => (faultFields_block hf).1
  simp only [faultFields, List.forall_mem_cons] at named
  obtain ⟨hlink, hfault, hcup, -⟩ := named
  have told {e : Dev} {f : Fld} {n : Nat} (h : d.Only (failBlock p) (notes ++ [.pip]) e) (hf : failBlock p f.key = true) :
      d.Only (failBlock p) (notes ++ [.pip]) (e.flagRaise f n) :=
    (h.flag hf).note (Noting.raiseD_any _ _ _) failBlock_of_noteBlock
  unfold failTold linkTold
  exact told (told (h.when fun h => h.flag hlink) hfault) hcup

/-- A field of the pip's faults leaves it failed, and its cup as it was. -/
theorem Dev.PipOut.putFault {p v : Nat} {d e : Dev} {f : Fld} (h : d.PipOut p e) (hf : f ∈ [R.PIP_HS_TO p, R.PIP_FAULT p]) :
    d.PipOut p (e.put f v) := by
  simp only [List.mem_cons, List.not_mem_nil, or_false] at hf
  rcases hf with rfl | rfl <;> refine h.put ?_ ?_ ?_ <;>
    simp only [R.PIP_HS_TO, R.PIP_FAULT, R.PIP_STATE, R.CUP_ACTIVE, Fld.key, List.mem_cons, List.not_mem_nil, or_false] <;> omega

theorem Dev.linkTold_spec {p : Nat} {handshake : Bool} {d e : Dev} (h : d.PipOut p e) :
    d.PipOut p (e.linkTold p handshake) ∧ (e.linkTold p handshake).pip = e.pip ∧
      (handshake = true → (e.linkTold p handshake).get (R.PIP_HS_TO p) = 1) := by
  unfold linkTold
  split_ifs with hlink
  · exact ⟨h.putFault (by simp), rfl, fun _ => get_flag_same _ _⟩
  · exact ⟨h, rfl, fun ht => absurd ht hlink⟩

/-- A pip that is out of work and flagged is told of, and its cup with it. -/
theorem Dev.pipDown_failTold {d x : Dev} {p : Nat} (handshake : Bool) (hp : p < 256) (out : d.PipOut p x)
    (work : Tab.get? x.pip.work p = none)
    (pool : Tab.getD x.pip.orphans (cupOf p) [] = Tab.getD d.pip.orphans (cupOf p) [] ++ d.leftOf p) :
    d.PipDown p handshake (x.failTold p handshake) := by
  have hcup : cupOf p < 32 := by unfold cupOf; omega
  obtain ⟨linked, hpip, link⟩ := linkTold_spec (handshake := handshake) out
  unfold failTold
  generalize x.linkTold p handshake = y at linked hpip link ⊢
  have told := y.flagRaise_only (R.PIP_FAULT p) (96 + p)
  have cupTold := (y.pipFlag p (R.PIP_FAULT p)).flagRaise_only (R.CUP_PIP_FAULT (cupOf p)) (352 + cupOf p)
  have same : ((y.pipFlag p (R.PIP_FAULT p)).cupFlag (cupOf p) (R.CUP_PIP_FAULT (cupOf p))).pip = x.pip :=
    (cupTold.2 .pip (by decide)).trans ((told.2 .pip (by decide)).trans hpip)
  have faulted : d.PipOut p (y.pipFlag p (R.PIP_FAULT p)) := (linked.putFault (by simp)).raiseD
  obtain ⟨linkFault, linkCup, faultCup⟩ := faultFields_apart p
  have named : ∀ f ∈ faultFields p, noteBlock f.key = false := fun _ hf => (faultFields_block hf).2
  simp only [faultFields, List.forall_mem_cons] at named
  obtain ⟨hlink, hfault, hcupFault, -⟩ := named
  refine ⟨faulted.cupFlag (lo := 2) rfl (by omega), by rw [same, work], by rw [same, pool], fun h => ?_, ?_, ?_, ?_, ?_⟩
  · exact (cupTold.1 _ (orNote_eq_false.2 ⟨hlink, by simpa using linkCup⟩)).trans
      ((told.1 _ (orNote_eq_false.2 ⟨hlink, by simpa using linkFault⟩)).trans (link h))
  · exact (cupTold.1 _ (orNote_eq_false.2 ⟨hfault, by simpa using faultCup⟩)).trans (get_flagRaise_same _ _ _ (by omega) hfault)
  · exact get_flagRaise_same _ _ _ (by omega) hcupFault
  · exact Pending.cupFlag (c := cupOf p) (f := R.CUP_PIP_FAULT (cupOf p)) (lo := 2) _ rfl (by omega) (96 + p) (by omega)
      (y.pends_flagRaise (R.PIP_FAULT p) (by omega))
  · exact Dev.pends_flagRaise _ _ (by omega)

/-- A pip that fails is out of work, its entries orphaned, and flagged with its cup (R189, R191, R201). -/
theorem Dev.pipDown_failPip {d : Dev} {p : Nat} (handshake : Bool) (hp : p < 256) (hactive : d.pipActive p = true) :
    d.PipDown p handshake (d.failPip p handshake) ∧ d.Only (failBlock p) (notes ++ [.pip]) (d.failPip p handshake) := by
  obtain ⟨only, -, pool, work⟩ := (d.shut p).orphaned_orphan (cupOf p) (d.leftOf p)
  have out : d.PipOut p ((d.shut p).orphan (cupOf p) (d.leftOf p)) := (d.pipOut_shut p).orphan
  rw [failPip_eq hactive]
  exact ⟨pipDown_failTold handshake hp out (work p (Tab.get?_erase_same _ _)) pool,
    failTold_only (Only.trans (d.shut_only p) (only.widen failBlock_of_wakeBlock (by decide)))⟩

/-! ### What a quarter loses -/

/-- The fields that a shortfall changes. -/
def shortFields : List Fld := [R.ADM_PACE_SHORT, R.ADM_SHED_CNT, R.ADM_STATE]

/-- A shortfall sheds where admission is normal (R158, R159). -/
theorem Dev.short_adm (d : Dev) (h : d.adm? = admNormal) : d.short.adm? = admShedding := by
  have counted : ((d.flagRaise R.ADM_PACE_SHORT 67).bump R.ADM_SHED_CNT 1).adm? = admNormal :=
    (get_put_ne _ _ _ _ (by decide)).trans ((get_flagRaise_ne _ _ _ _ (by decide) (by decide) (by decide)).trans h)
  unfold short
  rw [if_pos counted]
  exact get_put_same _ _ _

theorem Dev.short_only (d : Dev) : d.Only (orNote shortFields) notes d.short := by
  have named : ∀ f ∈ shortFields, orNote shortFields f.key = true := fun _ => orNote_of_mem
  simp only [shortFields, List.forall_mem_cons] at named
  obtain ⟨hshort, hshed, hstate, -⟩ := named
  exact ((((Only.refl _ _ d).flag hshort).note (Noting.raiseD_any _ _ _) orNote_of_noteBlock).bump hshed).when fun h => h.put hstate

/-- The active pips of a quarter are those with a slot that have not failed. -/
theorem Dev.activePips_congr {d e : Dev} (hpip : e.pip = d.pip) (hstate : ∀ p, e.get (R.PIP_STATE p) = d.get (R.PIP_STATE p))
    (q : Nat) : e.activePips q = d.activePips q := by
  have active : e.pipActive = d.pipActive := funext fun p => by simp only [pipActive, slotOf, slotMap, hpip, hstate]
  unfold activePips
  rw [active]

/-- A quarter's count of pips taken anew where one is lost, and told of (R194). -/
def Dev.lossCounted (d : Dev) (q : Nat) : Dev :=
  ((d.put (R.FAB_ACTIVE q) (d.activePips q).length).flagRaise R.ADM_PIP_LOSS 72).put (R.ADM_NPIPS q) (d.activePips q).length

theorem Dev.lossCounted_only (d : Dev) (q : Nat) :
    d.Only (orNote [R.FAB_ACTIVE q, R.ADM_PIP_LOSS, R.ADM_NPIPS q]) notes (d.lossCounted q) := by
  have named : ∀ f ∈ [R.FAB_ACTIVE q, R.ADM_PIP_LOSS, R.ADM_NPIPS q],
      orNote [R.FAB_ACTIVE q, R.ADM_PIP_LOSS, R.ADM_NPIPS q] f.key = true := fun _ => orNote_of_mem
  simp only [List.forall_mem_cons] at named
  obtain ⟨hactive, hloss, hnpips, -⟩ := named
  exact ((((Only.refl _ _ d).put hactive).flag hloss).note (Noting.raiseD_any _ _ _) orNote_of_noteBlock).put hnpips

theorem Dev.lossCounted_get (d : Dev) (q : Nat) :
    (d.lossCounted q).get (R.ADM_NPIPS q) = (d.activePips q).length ∧ (d.lossCounted q).get R.ADM_PIP_LOSS = 1 := by
  have few : (d.activePips q).length < 2 ^ 8 :=
    calc (d.activePips q).length ≤ (List.range 64).length := List.length_filterMap_le _ _
      _ < 2 ^ 8 := by rw [List.length_range]; decide
  have apart : R.ADM_PIP_LOSS.key ≠ (R.ADM_NPIPS q).key := by simp only [R.ADM_PIP_LOSS, R.ADM_NPIPS, Fld.key]; omega
  exact ⟨(get_put_same _ _ _).trans (Nat.mod_eq_of_lt few),
    (get_put_ne _ _ _ _ apart).trans (get_flagRaise_same _ _ _ (by decide) (by decide))⟩

theorem Dev.lossCounted_adm (d : Dev) (q : Nat) : (d.lossCounted q).adm? = d.adm? := by
  refine (lossCounted_only d q).1 R.ADM_STATE (orNote_eq_false.2 ⟨by decide, ?_⟩)
  simp [R.ADM_STATE, R.ADM_PIP_LOSS, R.ADM_NPIPS, R.FAB_ACTIVE, Fld.key]
  omega

/-- The fields that the loss of a pip changes in its quarter and in the admission controller. -/
def lossFields (q : Nat) : List Fld := [R.FAB_ACTIVE q, R.ADM_PIP_LOSS, R.ADM_NPIPS q] ++ shortFields

/-- A quarter that loses a pip counts the ones left, and sheds in normal operation (R194). -/
theorem Dev.pipLoss_spec (d : Dev) (q : Nat) :
    d.Only (orNote (lossFields q)) notes (d.pipLoss q) ∧
      (d.pipLoss q).get (R.ADM_NPIPS q) = (d.activePips q).length ∧ (d.pipLoss q).get R.ADM_PIP_LOSS = 1 ∧
      (d.pipLoss q).pends 72 = true ∧ (d.adm? = admNormal → (d.pipLoss q).adm? = admShedding) := by
  obtain ⟨npips, loss⟩ := d.lossCounted_get q
  have heq : d.pipLoss q = if (d.lossCounted q).adm? = admOff ∨ (d.lossCounted q).adm? = admTrial then d.lossCounted q
    else (d.lossCounted q).short := rfl
  have after : (d.lossCounted q).Only (orNote shortFields) notes (d.pipLoss q) := heq ▸ .ite (Only.refl _ _ _) (short_only _)
  refine ⟨Only.trans ((d.lossCounted_only q).widen (orNote_mono (List.subset_append_left _ _)) fun _ h => h)
    (after.widen (orNote_mono (List.subset_append_right _ _)) fun _ h => h), ?_, ?_, ?_, fun h => ?_⟩
  · refine (after.1 _ (orNote_eq_false.2 ⟨noteBlock_eq_false.2 ?_, ?_⟩)).trans npips
    · simp only [R.ADM_NPIPS, Fld.key]; omega
    · simp [shortFields, R.ADM_NPIPS, R.ADM_PACE_SHORT, R.ADM_SHED_CNT, R.ADM_STATE, Fld.key]; omega
  · exact (after.1 _ (by decide)).trans loss
  · have pends : (d.lossCounted q).pends 72 = true :=
      Pending.put _ _ _ (by simp only [R.ADM_NPIPS, Fld.key]; omega) 72 (by decide) (pends_flagRaise _ _ (by decide))
    exact heq ▸ Pending.ite_of (Pending.refl _) (Pending.short _) 72 (by decide) pends
  · have normal : (d.lossCounted q).adm? = admNormal := (d.lossCounted_adm q).trans h
    rw [heq, if_neg (by rw [normal]; decide)]
    exact short_adm _ normal

/-! ### The failure of a pip -/

/-- The fields that tell of a failed pip for which no reserve stands in. -/
def noneFields (p : Nat) : List Fld := R.CUP_RES_NONE (cupOf p) :: lossFields (pipQuarter p)

/-- Without a reserve a failed pip is told of in its cup, and its quarter loses it. -/
theorem Dev.noneLeft_only (d : Dev) (p : Nat) :
    d.Only (orNote (noneFields p)) notes ((d.cupFlag (cupOf p) (R.CUP_RES_NONE (cupOf p))).pipLoss (pipQuarter p)) :=
  Only.trans ((d.flagRaise_only _ _).widen (orNote_mono (by simp [noneFields])) fun _ h => h)
    ((pipLoss_spec _ _).1.widen (orNote_mono (List.subset_cons_self _ _)) fun _ h => h)

/-- What a failed pip without a reserve leaves (R194). -/
structure Dev.PipLost (p : Nat) (d e : Dev) : Prop where
  none : e.get (R.CUP_RES_NONE (cupOf p)) = 1
  npips : e.get (R.ADM_NPIPS (pipQuarter p)) = (e.activePips (pipQuarter p)).length
  loss : e.get R.ADM_PIP_LOSS = 1
  pends : e.pends 72 = true
  sheds : d.adm? = admNormal → e.adm? = admShedding

theorem Dev.pipLost_noneLeft (d : Dev) {p : Nat} (hp : p < 256) :
    d.PipLost p ((d.cupFlag (cupOf p) (R.CUP_RES_NONE (cupOf p))).pipLoss (pipQuarter p)) := by
  have hevent : 352 + cupOf p < 1024 := by unfold cupOf; omega
  have told := d.flagRaise_only (R.CUP_RES_NONE (cupOf p)) (352 + cupOf p)
  obtain ⟨only, npips, loss, pends, sheds⟩ := (d.cupFlag (cupOf p) (R.CUP_RES_NONE (cupOf p))).pipLoss_spec (pipQuarter p)
  have unlost {f : Fld} (hf : f.key / 0x4000000 = 4) (hne : f.key ≠ (R.FAB_ACTIVE (pipQuarter p)).key) :
      orNote (lossFields (pipQuarter p)) f.key = false := by
    refine orNote_eq_false.2 ⟨noteBlock_eq_false.2 (by omega), ?_⟩
    simp [lossFields, shortFields, R.ADM_PIP_LOSS, R.ADM_NPIPS, R.ADM_PACE_SHORT, R.ADM_SHED_CNT, R.ADM_STATE, Fld.key] at hf hne ⊢
    omega
  have none : (R.CUP_RES_NONE (cupOf p)).key / 0x4000000 = 4 := by simp only [R.CUP_RES_NONE, Fld.key]; omega
  refine ⟨?_, npips.trans (congrArg List.length (activePips_congr (only.2 .pip (by decide)) (fun n => only.1 _ ?_) _)).symm, loss, pends,
    fun h => sheds ((told.1 R.ADM_STATE ?_).trans h)⟩
  · refine (only.1 _ (unlost none ?_)).trans (get_flagRaise_same _ _ _ hevent (noteBlock_eq_false.2 (by omega)))
    simp only [R.CUP_RES_NONE, R.FAB_ACTIVE, Fld.key]; omega
  · refine unlost (PipOut.state_block n) ?_
    simp only [R.PIP_STATE, R.FAB_ACTIVE, Fld.key]; omega
  · refine orNote_eq_false.2 ⟨by decide, ?_⟩
    simp [R.ADM_STATE, R.CUP_RES_NONE, Fld.key]
    omega

/-- The fields that tell of a loss are apart from those of a failed pip. -/
theorem noneFields_apart {p : Nat} {f : Fld} (hf : f ∈ R.FAB_HS_TIMEOUT :: faultFields p) : orNote (noneFields p) f.key = false := by
  simp only [faultFields, List.mem_cons, List.not_mem_nil, or_false] at hf
  refine orNote_eq_false.2 ?_
  simp only [noteBlock_eq_false, noneFields, lossFields, shortFields, List.cons_append, List.nil_append, List.forall_mem_cons,
    List.not_mem_nil, false_implies, implies_true, and_true]
  rcases hf with rfl | rfl | rfl | rfl <;>
    simp only [R.FAB_HS_TIMEOUT, R.PIP_HS_TO, R.PIP_FAULT, R.CUP_PIP_FAULT, R.CUP_RES_NONE, R.FAB_ACTIVE, R.ADM_PIP_LOSS, R.ADM_NPIPS,
      R.ADM_PACE_SHORT, R.ADM_SHED_CNT, R.ADM_STATE, Fld.key] <;>
    omega

/-- An active pip that fails is told of; where its cup has no reserve, its quarter has lost it (R189, R194). -/
theorem Dev.pipFails_spec {d : Dev} {p : Nat} (handshake : Bool) (hp : p < 256) (hactive : d.pipActive p = true) :
    d.PipDown p handshake (d.pipFails p handshake) ∧
      (d.get (R.CUP_RES_AVAIL (cupOf p)) = 0 → d.PipLost p (d.pipFails p handshake)) ∧
      (d.pipFails p handshake).get R.FAB_HS_TIMEOUT = d.get R.FAB_HS_TIMEOUT := by
  obtain ⟨down, only⟩ := pipDown_failPip handshake hp hactive
  have heq : d.pipFails p handshake = if (d.failPip p handshake).on (R.CUP_RES_AVAIL (cupOf p)) then d.failPip p handshake
      else ((d.failPip p handshake).cupFlag (cupOf p) (R.CUP_RES_NONE (cupOf p))).pipLoss (pipQuarter p) := by
    unfold pipFails
    rw [hactive]
    rfl
  have avail := only.1 (R.CUP_RES_AVAIL (cupOf p)) (by simp [failBlock])
  have timeout := only.1 R.FAB_HS_TIMEOUT (by simp [failBlock])
  have adm := only.1 R.ADM_STATE (by simp [failBlock, inBlocks, noteBlock, R.ADM_STATE, Fld.key])
  rw [heq]
  generalize d.failPip p handshake = x at *
  split_ifs with hon
  · exact ⟨down, fun h => absurd hon (by simp [Dev.on, avail, h]), timeout⟩
  · have named : ∀ f ∈ R.FAB_HS_TIMEOUT :: faultFields p, orNote (noneFields p) f.key = false := fun _ => noneFields_apart
    obtain ⟨htimeout, hfaults⟩ := List.forall_mem_cons.1 named
    have lost := x.noneLeft_only p
    obtain ⟨none, npips, loss, pends, sheds⟩ := x.pipLost_noneLeft hp
    have pending : x.PendLe ((x.cupFlag (cupOf p) (R.CUP_RES_NONE (cupOf p))).pipLoss (pipQuarter p)) :=
      Pending.trans (Pending.cupFlag (c := cupOf p) (f := R.CUP_RES_NONE (cupOf p)) (lo := 5) x rfl (by omega)) (Pending.pipLoss _ _)
    have told : d.PipOut p (x.cupFlag (cupOf p) (R.CUP_RES_NONE (cupOf p))) := down.out.cupFlag (lo := 5) rfl (by omega)
    exact ⟨down.later lost hfaults hp told.pipLoss pending,
      fun _ => ⟨none, npips, loss, pends, fun h => sheds (adm.trans h)⟩, (lost.1 _ htimeout).trans timeout⟩

/-! ### Failures of pips and links -/

/-- A unit within its range acts. -/
theorem onUnit_gives {p : Prop} {_ : Decidable p} {i : Instr} {s : State} {f : Dev → Dev} {Q : State → Prop} (hp : p)
    (hexec : exec i s = onUnit (decide p) s f) (hq : Q (s.upd f)) : i.gives s Q :=
  ⟨_, by rw [hexec, onUnit, if_pos (decide_eq_true hp)], hq⟩

theorem pipFail_gives {s : State} {p : Nat} {cause : PipCause} (hp : p < 256) (hactive : s.dev.pipActive p = true) :
    (Instr.pipFail p cause).gives s fun t =>
      s.dev.PipDown p (cause == .handshake) t.dev ∧ (s.dev.get (R.CUP_RES_AVAIL (cupOf p)) = 0 → s.dev.PipLost p t.dev) ∧
      t.hbm = s.hbm ∧ s.Within [3, 4] [.pip] t := by
  obtain ⟨down, lost, -⟩ := Dev.pipFails_spec (cause == .handshake) hp hactive
  exact onUnit_gives hp rfl ⟨down, lost, rfl, down.out.only, rfl⟩

/-- A timeout of a pip's link is recorded, and the pip fails (R201). -/
theorem pipTimeout_gives {s : State} {p : Nat} (hp : p < 256) (hactive : s.dev.pipActive p = true) :
    (Instr.handshakeTimeout (.pip p)).gives s fun t =>
      t.dev.get R.FAB_HS_TIMEOUT = 1 ∧ t.dev.get (R.PIP_HS_TO p) = 1 ∧ t.dev.get (R.PIP_STATE p) = pipFailed ∧
      t.hbm = s.hbm ∧ s.Within [3, 4] [.pip] t := by
  have recorded : s.dev.Only (inBlocks [3, 4]) (notes ++ [.pip]) (s.dev.flag R.FAB_HS_TIMEOUT) :=
    (Only.refl _ _ s.dev).flag (inBlocks_of_mem (by decide))
  have state : (s.dev.flag R.FAB_HS_TIMEOUT).get (R.PIP_STATE p) = s.dev.get (R.PIP_STATE p) :=
    Dev.get_flag_ne _ _ _ (by simp only [R.PIP_STATE, R.FAB_HS_TIMEOUT, Fld.key]; omega)
  have map : (s.dev.flag R.FAB_HS_TIMEOUT).slotOf p = s.dev.slotOf p := rfl
  have active : (s.dev.flag R.FAB_HS_TIMEOUT).pipActive p = true := by
    rw [Dev.pipActive, map, state]
    exact hactive
  obtain ⟨down, -, timeout⟩ := Dev.pipFails_spec true hp active
  exact onUnit_gives hp rfl ⟨timeout.trans (Dev.get_flag_same _ _), down.link rfl, down.out.state, rfl,
    Sys2Proof.Only.trans recorded down.out.only, rfl⟩

/-- A timeout of a cup hub's link is recorded, and a fault of the hub (R201, R226). -/
theorem cupHubTimeout_gives {s : State} {c : Nat} (hc : c < 32) :
    (Instr.handshakeTimeout (.cupHub c)).gives s fun t =>
      t.dev.get R.FAB_HS_TIMEOUT = 1 ∧ t.dev.get (R.CUP_HUB_FAULT c) = 1 ∧ t.dev.pends (352 + c) = true ∧
      s.Noting [R.FAB_HS_TIMEOUT, R.CUP_HUB_FAULT c] [] t := by
  have apart : R.FAB_HS_TIMEOUT.key ≠ (R.CUP_HUB_FAULT c).key := by simp only [R.FAB_HS_TIMEOUT, R.CUP_HUB_FAULT, Fld.key]; omega
  have fault : noteBlock (R.CUP_HUB_FAULT c).key = false := noteBlock_eq_false.2 (by simp only [R.CUP_HUB_FAULT, Fld.key]; omega)
  have told := (s.dev.flag R.FAB_HS_TIMEOUT).flagRaise_only (R.CUP_HUB_FAULT c) (352 + c)
  have recorded : s.dev.Only (orNote [R.FAB_HS_TIMEOUT, R.CUP_HUB_FAULT c]) notes (s.dev.flag R.FAB_HS_TIMEOUT) :=
    (Only.refl _ _ s.dev).flag (orNote_of_mem (by simp))
  refine onUnit_gives hc rfl ⟨(told.1 _ (orNote_eq_false.2 ⟨by decide, by simpa using apart.symm⟩)).trans (Dev.get_flag_same _ _),
    Dev.get_flagRaise_same _ _ _ (by omega) fault, Dev.pends_flagRaise _ _ (by omega), ?_, rfl, rfl⟩
  exact Sys2Proof.Only.trans recorded (told.widen (orNote_mono (by simp)) fun _ h => h)

end Sys2Proof.Machine
end

section
/-! SUPPORT. What the completions of entries and the ends of blit commands leave alone, for every property that does not speak of
the queues and the blitter. -/

namespace Sys2Proof.Machine

set_option Elab.async false

/-- A property that speaks neither of the registers of queues and blitter nor of the parts that a blit command's end changes, and
that stands when events are raised. -/
structure Dev.BlitSafe (P : Dev → Prop) : Prop where
  put : ∀ {e : Dev} {f : Fld} {v : Nat}, P e → f.key / 0x4000000 ∈ [2, 12] → P (e.put f v)
  parts : ∀ {e x : Dev}, P e → x.regs = e.regs → (∀ p, p ∉ blitParts → p.same e x) → P x
  note : ∀ {e x : Dev}, P e → e.Noted x → e.PendLe x → P x

namespace Dev.BlitSafe

variable {P : Dev → Prop} {e : Dev}

theorem raiseD {n y : Nat} (safe : BlitSafe P) (h : P e) : P (e.raiseD n y) :=
  safe.note h (Noting.raiseD_any _ _ _) (Pending.raiseD _ _ _)

theorem raiseOnceD {n y : Nat} (safe : BlitSafe P) (h : P e) : P (e.raiseOnceD n y) :=
  safe.note h (Noting.raiseOnceD_any _ _ _) (Pending.raiseOnceD _ _ _)

theorem send {m : OutMsg} (safe : BlitSafe P) (h : P e) : P (e.send m) :=
  safe.parts h rfl (Dev.Only.send (r := fun _ => false) (Only.refl _ _ e)).2

theorem setQ {x : QSt} (safe : BlitSafe P) (h : P e) : P { e with q := x } :=
  safe.parts h rfl (Dev.Only.setQ (r := fun _ => false) (Only.refl _ _ e)).2

theorem setCh {x : ChanSt} (safe : BlitSafe P) (h : P e) : P { e with ch := x } :=
  safe.parts h rfl (Dev.Only.setCh (r := fun _ => false) (Only.refl _ _ e)).2

theorem setBlt {x : BltSt} (safe : BlitSafe P) (h : P e) : P { e with blt := x } :=
  safe.parts h rfl (Spares.setBlt (.refl e)).2

theorem ite {p : Prop} {_ : Decidable p} {x y : Dev} (h : P x) (k : P y) : P (if p then x else y) := by
  split_ifs <;> assumption

theorem foldl {α : Type} {f : Dev → α → Dev} (hf : ∀ (e : Dev) (a : α), P e → P (f e a)) :
    ∀ (l : List α) {e : Dev}, P e → P (l.foldl f e)
  | [], _, h => h
  | a :: l, e, h => foldl hf l (hf e a h)

/-! ### Completions -/

theorem ringDrop {c : Nat} (safe : BlitSafe P) (h : P e) : P (e.ringDrop c) :=
  safe.put h (by simp only [R.CQ_DROPPED, Fld.key, List.mem_cons, List.not_mem_nil, or_false]; omega)

theorem giveBack {c v : Nat} (safe : BlitSafe P) (h : P e) : P (e.put (R.CQ_RESV c) v) :=
  safe.put h (by simp only [R.CQ_RESV, Fld.key, List.mem_cons, List.not_mem_nil, or_false]; omega)

theorem ringWrite {c : Nat} {m : Compl} (safe : BlitSafe P) (h : P e) : P (e.ringWrite c m) := by
  have sent {o : OutMsg} {v : Nat} : P ((e.send o).put (R.CQ_TAIL c) v) :=
    safe.put (safe.send h) (by simp only [R.CQ_TAIL, Fld.key, List.mem_cons, List.not_mem_nil, or_false]; omega)
  have written : P (e.ringSent c m) :=
    ite (safe.put sent (by simp only [R.CQ_PHASE, Fld.key, List.mem_cons, List.not_mem_nil, or_false]; omega)) sent
  obtain ⟨x, heq | ⟨fn, vec, heq⟩⟩ := e.ringWrite_cases c m
  · exact heq ▸ safe.setQ written
  · exact heq ▸ safe.note (safe.setQ written) (Noting.msi _ _ _) (Pending.told (Telling.msi _ _ _))

theorem postOwed {c : Nat} {m : Compl} (safe : BlitSafe P) (h : P e) : P (e.postOwed c m) := ite (safe.ringDrop h) (safe.ringWrite h)

theorem postAsync {c : Nat} {m : Compl} (safe : BlitSafe P) (h : P e) : P (e.postAsync c m) := by
  have held {q : QSt} {v : Nat} : P (({ e with q := q } : Dev).put (R.CQ_HELD c) v) :=
    safe.put (safe.setQ h) (by simp only [R.CQ_HELD, Fld.key, List.mem_cons, List.not_mem_nil, or_false]; omega)
  exact ite (safe.ringDrop h) (ite (safe.ringWrite h) (ite (safe.ringDrop h) (safe.put held (by decide))))

theorem countStatus {st : Nat} (safe : BlitSafe P) (h : P e) : P (e.countStatus st) :=
  ite (safe.put h (by decide)) (ite (safe.put h (by decide)) (ite (safe.put h (by decide)) h))

theorem complete {q tag handle st rs : Nat} {applied : Option Nat} (safe : BlitSafe P) (h : P e) :
    P (e.complete q tag handle st rs applied) := by
  have out : (qOUT q).key / 0x4000000 ∈ [2, 12] := by
    unfold qOUT; split_ifs <;> simp only [R.SQ_OUT, R.PQ_OUT, Fld.key, List.mem_cons, List.not_mem_nil, or_false] <;> omega
  have state : (qSTATE q).key / 0x4000000 ∈ [2, 12] := by
    unfold qSTATE; split_ifs <;> simp only [R.SQ_STATE, R.PQ_STATE, Fld.key, List.mem_cons, List.not_mem_nil, or_false] <;> omega
  have settled {x : Dev} (hx : P x) : P (x.queueSettle q) := ite (safe.put hx state) hx
  exact settled (safe.put (safe.postOwed (safe.giveBack (safe.countStatus h))) out)

theorem settle {p : Owed → Bool} {st : Nat} {applied : Option Nat} (safe : BlitSafe P) (h : P e) : P (e.settle p st applied) := by
  unfold Dev.settle
  rw [List.partition_eq_filter_filter]
  exact foldl (fun _ _ h => safe.complete h) _ (safe.setQ h)

/-! ### The end of a blit command -/

theorem blitPost {i st : Nat} {cmd : List Byte} (safe : BlitSafe P) (h : P e) : P (e.blitPost i cmd st) := by
  unfold Dev.blitPost
  split
  · exact ite (safe.postOwed (safe.giveBack (safe.countStatus h))) (safe.postAsync (safe.countStatus h))
  · exact h

/-- The registers of a blit channel. -/
theorem putChannel {f : Nat → Fld} {i v : Nat} (safe : BlitSafe P) (h : P e)
    (hf : f ∈ [R.BCH_WAIT, R.BCH_STATE, R.BCH_CONS, R.BCH_ERR]) : P (e.put (f i) v) := by
  refine safe.put h ?_
  simp only [List.mem_cons, List.not_mem_nil, or_false] at hf ⊢
  rcases hf with rfl | rfl | rfl | rfl <;> simp only [R.BCH_WAIT, R.BCH_STATE, R.BCH_CONS, R.BCH_ERR, Fld.key] <;> omega

theorem blitRetire {i : Nat} (safe : BlitSafe P) (h : P e) : P (e.blitRetire i) :=
  safe.put (f := R.BLT_RINGS) (safe.putChannel (f := R.BCH_WAIT) (v := 0)
    (safe.putChannel (f := R.BCH_STATE) (v := 2) (safe.setCh h) (by simp)) (by simp)) (by decide)

theorem blitAdvance {i : Nat} {c : Chan} {cmd : List Byte} (safe : BlitSafe P) (h : P e) : P (e.blitAdvance i c cmd) := by
  have consumed {m : OutMsg} {v : Nat} : P ((e.send m).put (R.BCH_CONS i) v) :=
    safe.putChannel (f := R.BCH_CONS) (safe.send h) (by simp)
  exact ite consumed (safe.send consumed)

theorem blitDone {i st : Nat} {cmd : List Byte} (safe : BlitSafe P) (h : P e) : P (e.blitDone i cmd st) := by
  unfold Dev.blitDone
  split
  · extract_lets oneshot blt taken idle failed told posted
    have hidle : P idle := safe.putChannel (f := R.BCH_WAIT) (safe.setBlt h) (by simp)
    have hfailed : P failed := ite hidle
      (safe.raiseOnceD (safe.put (f := R.BLT_RING_ERR) (v := 1) (safe.putChannel (f := R.BCH_ERR) (v := 1) hidle (by simp)) (by decide)))
    have htold : P told := ite (safe.raiseD hfailed) hfailed
    have hposted : P posted := ite (safe.blitPost htold) htold
    exact ite (safe.blitRetire hposted) (safe.blitAdvance hposted)
  · exact h

theorem blitWaitEnds {i st : Nat} (safe : BlitSafe P) (h : P e) : P (e.blitWaitEnds i st) := by
  unfold Dev.blitWaitEnds
  split
  · split
    · exact ite (safe.blitDone h) h
    · exact h
  · exact h

theorem blitFire {slot : Nat} (safe : BlitSafe P) (h : P e) : P (e.blitFire slot) :=
  foldl (fun _ _ h => ite (safe.blitWaitEnds h) h) _ h

end Dev.BlitSafe

end Sys2Proof.Machine
end

section
/-! SUPPORT. The banker after failures (R190, R801 to R803): the reserve that stands in for a failed pip, the hub that takes its
cup's slots, and the crossbar half that stops the device. -/

namespace Sys2Proof.Machine

set_option Elab.async false

/-! ### A device-level fault -/

/-- From d to e the start-up state stands, and every event that was pending is pending still. -/
structure Dev.Stands (d e : Dev) : Prop where
  state : e.get R.PWR_SU_STATE = d.get R.PWR_SU_STATE
  pends : d.PendLe e

namespace Dev.Stands

variable {d e x : Dev}

theorem refl (d : Dev) : d.Stands d := ⟨rfl, Pending.refl d⟩

theorem trans (h : d.Stands e) (k : e.Stands x) : d.Stands x := ⟨k.state.trans h.state, Pending.trans h.pends k.pends⟩

/-- A field of another block than those of events and power. -/
theorem put {f : Fld} {v : Nat} (h : d.Stands e) (hf : f.key / 0x4000000 ≠ 1 ∧ f.key / 0x4000000 ≠ 16) : d.Stands (e.put f v) := by
  have power : R.PWR_SU_STATE.key / 0x4000000 = 16 := by decide
  exact h.trans ⟨get_put_ne _ _ _ _ fun he => hf.2 (he ▸ power), Pending.put _ _ _ (by omega)⟩

theorem noted (h : d.Stands e) (k : e.Noted x) (hp : e.PendLe x) : d.Stands x := h.trans ⟨k.1 _ (by decide), hp⟩

theorem raiseD {n y : Nat} (h : d.Stands e) : d.Stands (e.raiseD n y) := h.noted (Noting.raiseD_any _ _ _) (Pending.raiseD _ _ _)

theorem ledger {r : LedReq} (h : d.Stands e) : d.Stands (e.ledger r) := h.noted (Noting.ledger _ _) (Pending.ledger _ _)

/-- A change beside the registers. -/
theorem same (h : d.Stands e) (hr : x.regs = e.regs := by rfl) : d.Stands x :=
  h.trans ⟨get_congr hr _, fun _ _ hn => (congrArg (tbit · _) (get_congr hr _)).trans hn⟩

theorem ite {p : Prop} {_ : Decidable p} {y : Dev} (h : d.Stands x) (k : d.Stands y) : d.Stands (if p then x else y) := by
  split_ifs <;> assumption

theorem when {p : Prop} {_ : Decidable p} (h : d.Stands e) (hx : d.Stands e → d.Stands x) : d.Stands (if p then x else e) := ite (hx h) h

theorem foldl {α : Type} {f : Dev → α → Dev} (h : d.Stands e) (hf : ∀ (e : Dev) (a : α), d.Stands e → d.Stands (f e a)) :
    ∀ l : List α, d.Stands (l.foldl f e) := by
  intro l
  induction l generalizing e with
  | nil => exact h
  | cons a l ih => exact ih (hf e a h)

/-- Neither is spoken of by the end of an entry or of a blit command. -/
theorem blitSafe (d : Dev) : BlitSafe d.Stands where
  put h hf := h.put (by simp only [List.mem_cons, List.not_mem_nil, or_false] at hf; omega)
  parts h hr _ := h.same hr
  note h k hp := h.noted k hp

/-! ### What a fault stops -/

theorem undoChange {o : Owed} (h : d.Stands e) : d.Stands (e.undoChange o) := by
  unfold Dev.undoChange
  split
  · exact h.same
  · split
    · exact ite h.same h
    · exact h.same
  · exact h.same
  · exact h.when fun h => (blitSafe d).giveBack h
  · exact h.same
  · exact h

theorem flushBlit (h : d.Stands e) : d.Stands e.flushBlit := by
  unfold Dev.flushBlit
  extract_lets waits waited cur direct done
  have hwaited : d.Stands waited := h.foldl (fun _ _ h => (blitSafe d).blitPost h) _
  have hcur : d.Stands cur := by
    unfold cur
    split
    · exact (blitSafe d).blitPost hwaited
    · exact hwaited
  have hdirect : d.Stands direct := by
    unfold direct
    split
    · exact (((hcur.put (by decide)).put (by decide)).put (by decide)).put (by decide)
    · exact hcur
  have hdone : d.Stands done := hdirect.put (by decide)
  exact hdone.same

theorem flushStarted (h : d.Stands e) : d.Stands e.flushStarted := by
  unfold Dev.flushStarted
  have undone : d.Stands (e.q.owed.reverse.foldl Dev.undoChange e) := h.foldl (fun _ _ h => h.undoChange) _
  exact noted (put ((blitSafe d).settle (same undone.flushBlit)) (by decide)) (Noting.raiseD_any _ _ _) (Pending.raiseD _ _ _)

theorem stopWork (h : d.Stands e) : d.Stands e.stopWork := by
  have stopped {p v : Nat} {e : Dev} (h : d.Stands e) : d.Stands (e.put (R.PIP_STATE p) v) :=
    h.put (by simp only [R.PIP_STATE, Fld.key]; omega)
  unfold Dev.stopWork
  extract_lets pips occ retry
  have hpips : d.Stands pips := h.foldl (fun _ p h => put (h.when stopped) (by simp only [R.PIP_REMAIN, Fld.key]; omega)) _
  have hocc : d.Stands occ := hpips.foldl (fun _ b h => h.put (by simp only [R.PSN_OCC, Fld.key]; omega)) _
  have hretry : d.Stands retry := hocc.foldl (fun _ f h => h.put (by simp only [R.PSN_RETRY_OCC, Fld.key]; omega)) _
  clear_value retry
  exact hretry.same

/-! ### The journal -/

theorem mbxDone {bytes : List Byte} {auth stale : Bool} (h : d.Stands e) : d.Stands (e.mbxDone bytes auth stale) := by
  have resp : d.Stands (e.putResp bytes) := h.foldl (fun _ k h => h.put (by simp only [R.MBX_RESP, Fld.key]; omega)) _
  have shown : d.Stands ((((e.putResp bytes).put R.MBX_RESP_LEN bytes.length).put R.MBX_MBX_STATE 2).flag R.MBX_DONE) :=
    ((resp.put (by decide)).put (by decide)).put (by decide)
  exact ((shown.when fun h => h.put (by decide)).when fun h => h.put (by decide)).noted (Noting.raiseD_any _ _ _) (Pending.raiseD _ _ _)

theorem respond {transport tok : Nat} {dest : Option (Nat × Nat × Nat)} {bytes : List Byte} (h : d.Stands e) :
    d.Stands (e.respond transport tok dest bytes) := by
  unfold Dev.respond
  split
  · exact ite (mbxDone h.same) h
  · split
    · exact h
    · exact h.same

theorem reply? {r : Option Reply} (h : d.Stands e) : d.Stands (e.reply? r) := by
  cases r with
  | some r => exact foldl (respond h.same) (fun _ _ h => h.respond) _
  | none => exact h

theorem commitTxn {t : Txn} (h : d.Stands e) : d.Stands (e.commitTxn t) := by
  have counted {x : BankSt} {v : Nat} :
      d.Stands ((({ e with bank := x } : Dev).bump R.ST_JCOMMITS 1).bump R.ST_MRAM_WR_LINES v) :=
    put (put h.same (by decide)) (by decide)
  exact same (reply? (foldl counted (fun _ _ h => h.ledger) t.entries))

theorem journalRegs (h : d.Stands e) : d.Stands e.journalRegs := (h.put (by decide)).put (by decide)

theorem journalIdle (h : d.Stands e) : d.Stands e.journalIdle := by
  unfold Dev.journalIdle
  refine ite h (journalRegs ?_)
  exact foldl h.same (fun _ _ h => h.commitTxn) _

/-- A device-level fault leaves the device FAULTED unless power fails, and every pending event pending (R848). -/
theorem deviceFault (h : e.get R.PWR_SU_STATE ≠ suPfail) :
    (e.deviceFault suFaulted).get R.PWR_SU_STATE = suFaulted ∧ e.PendLe (e.deviceFault suFaulted) := by
  unfold Dev.deviceFault Dev.deviceStop
  split_ifs with hstopped
  · have faulted : e.get R.PWR_SU_STATE = suFaulted := hstopped.resolve_right h
    obtain ⟨state, pends⟩ := journalIdle (ledger (refl e))
    exact ⟨state.trans faulted, pends⟩
  · have stopped := journalIdle (put (f := R.ADM_STATE) (v := 0)
      (stopWork (flushStarted (raiseD (n := 0) (y := 0) (refl (e.put R.PWR_SU_STATE suFaulted))))) (by decide))
    exact ⟨stopped.state.trans (get_put_same _ _ _), Pending.trans (Pending.put _ _ _ (by decide)) stopped.pends⟩

end Dev.Stands

/-! ### A pip replaced -/

/-- The journal of retired slots changes what the banker keeps, and tells of it (R801). -/
theorem Dev.journal_retire_only (d : Dev) (l : List Nat) : d.Only noteBlock (notes ++ [.bank]) (d.journal { retire := l }) := by
  have kept {x : BankSt} : d.Only noteBlock (notes ++ [.bank]) { d with bank := x } := (Only.refl _ _ d).setBank
  have committed {x y : BankSt} {v : Nat} : d.Only noteBlock (notes ++ [.bank])
      { (({ d with bank := x } : Dev).bump R.ST_JCOMMITS 1).bump R.ST_MRAM_WR_LINES v with bank := y } :=
    Dev.Only.setBank ((kept.bump (by decide)).bump (by decide))
  unfold journal
  refine .ite (Only.refl _ _ d) (.ite committed (Dev.Only.put (Dev.Only.put ?_ (by decide)) (by decide)))
  split <;> exact kept

/-- The count of a quarter's reserves, by the fields of its cups. -/
theorem Dev.Only.reserveRegs {r : Nat → Bool} {l : List Part} {d e : Dev} {q : Nat} (h : d.Only r l e)
    (hr : r (R.FAB_RES_AVAIL q).key = true) : d.Only r l (e.reserveRegs q) := h.put hr

/-- A cup's reserve takes the slot of a failed pip. -/
def Dev.reserveIn (d : Dev) (p m : Nat) : Dev :=
  ((((d.put (R.CUP_SLOT_MAP (cupOf p)) m).put (R.CUP_RES_AVAIL (cupOf p)) 0).put (R.CUP_RES_USED (cupOf p)) 1).reserveRegs
    (cupOf p / 8)).raise 968

/-- The fields of a cup's slots and reserve lie in the fabric, apart from each other and from the count of its quarter. -/
theorem reserveFields_apart (c q : Nat) :
    (∀ f ∈ [R.CUP_SLOT_MAP c, R.CUP_RES_AVAIL c, R.CUP_RES_USED c, R.CUP_RES_FAIL c, R.FAB_RES_AVAIL q], f.key / 0x4000000 = 4) ∧
      [R.CUP_SLOT_MAP c, R.CUP_RES_AVAIL c, R.CUP_RES_USED c, R.CUP_RES_FAIL c, R.FAB_RES_AVAIL q].Pairwise (·.key ≠ ·.key) := by
  simp only [List.forall_mem_cons, List.pairwise_cons, R.CUP_SLOT_MAP, R.CUP_RES_AVAIL, R.CUP_RES_USED, R.CUP_RES_FAIL, R.FAB_RES_AVAIL,
    Fld.key]
  simp
  omega

/-- What a reserve that stands in leaves (R190, R802). -/
theorem Dev.reserveIn_spec (d : Dev) (p m : Nat) :
    d.Only (inBlocks [4]) notes (d.reserveIn p m) ∧ (d.reserveIn p m).get (R.CUP_SLOT_MAP (cupOf p)) = m % 2 ^ 32 ∧
      (d.reserveIn p m).get (R.CUP_RES_AVAIL (cupOf p)) = 0 ∧ (d.reserveIn p m).get (R.CUP_RES_USED (cupOf p)) = 1 ∧
      (d.reserveIn p m).pends 968 = true := by
  obtain ⟨block, apart⟩ := reserveFields_apart (cupOf p) (cupOf p / 8)
  simp only [List.forall_mem_cons, List.pairwise_cons] at block apart
  obtain ⟨hmap, havail, hused, -, hquarter, -⟩ := block
  obtain ⟨⟨mapAvail, mapUsed, -, mapQuarter, -⟩, ⟨availUsed, -, availQuarter, -⟩, ⟨-, usedQuarter, -⟩, -⟩ := apart
  have named {f : Fld} (hf : f.key / 0x4000000 = 4) : inBlocks [4] f.key = true := inBlocks_of_mem (by simp [hf])
  have told {e : Dev} {f : Fld} (hf : f.key / 0x4000000 = 4) : (e.raise 968).get f = e.get f :=
    (Noting.raiseD_any _ _ _).1 f (noteBlock_eq_false.2 (by omega))
  refine ⟨?_, ?_, ?_, ?_, Pending.raised _ _ _ (by decide)⟩
  · exact Dev.Only.note (((((Only.refl _ _ d).put (named hmap)).put (named havail)).put (named hused)).reserveRegs (named hquarter))
      (Noting.raiseD_any _ _ _) inBlocks_of_noteBlock
  · exact (told hmap).trans ((get_put_ne _ _ _ _ mapQuarter).trans ((get_put_ne _ _ _ _ mapUsed).trans
      ((get_put_ne _ _ _ _ mapAvail).trans (get_put_same _ _ _))))
  · exact (told havail).trans ((get_put_ne _ _ _ _ availQuarter).trans ((get_put_ne _ _ _ _ availUsed).trans (get_put_same _ _ _)))
  · exact (told hused).trans ((get_put_ne _ _ _ _ usedQuarter).trans (get_put_same _ _ _))

/-- The slot that logical pip p has in a map of its cup. -/
def slotIn (m p : Nat) : Nat := bits m (4 * (p % 8) + 3) (4 * (p % 8))

/-- A failed pip's place, in the map m of its cup, is taken by the cup's reserve, or by no slot. -/
def Dev.replaced (d : Dev) (p m : Nat) : Dev :=
  if d.on (R.CUP_RES_AVAIL (cupOf p)) then d.reserveIn p (slotPut m (p % 8) (Tab.getD d.pip.reserve (cupOf p) 8))
  else (d.put (R.CUP_SLOT_MAP (cupOf p)) (slotPut m (p % 8) 15)).raise 969

/-- What stands in a failed pip's place (R190, R802, R803). -/
theorem Dev.replaced_spec (d : Dev) (p m : Nat) :
    d.Only (inBlocks [4]) notes (d.replaced p m) ∧
      (d.get (R.CUP_RES_AVAIL (cupOf p)) = 1 →
        (d.replaced p m).get (R.CUP_SLOT_MAP (cupOf p)) = slotPut m (p % 8) (Tab.getD d.pip.reserve (cupOf p) 8) % 2 ^ 32 ∧
        (d.replaced p m).get (R.CUP_RES_AVAIL (cupOf p)) = 0 ∧ (d.replaced p m).get (R.CUP_RES_USED (cupOf p)) = 1 ∧
        (d.replaced p m).pends 968 = true) ∧
      (d.get (R.CUP_RES_AVAIL (cupOf p)) = 0 →
        (d.replaced p m).get (R.CUP_SLOT_MAP (cupOf p)) = slotPut m (p % 8) 15 % 2 ^ 32 ∧ (d.replaced p m).pends 969 = true) := by
  have hmap : (R.CUP_SLOT_MAP (cupOf p)).key / 0x4000000 = 4 := (reserveFields_apart (cupOf p) 0).1 _ (by simp)
  have hon : d.on (R.CUP_RES_AVAIL (cupOf p)) = decide (d.get (R.CUP_RES_AVAIL (cupOf p)) = 1) := rfl
  unfold replaced
  rw [hon]
  split_ifs with havail
  · obtain ⟨only, reserved⟩ := d.reserveIn_spec p (slotPut m (p % 8) (Tab.getD d.pip.reserve (cupOf p) 8))
    exact ⟨only, fun _ => reserved, fun h => by simp [h] at havail⟩
  · have told := Noting.raiseD_any (d.put (R.CUP_SLOT_MAP (cupOf p)) (slotPut m (p % 8) 15)) 969 0
    refine ⟨((Only.refl _ _ d).put (inBlocks_of_mem (by simp [hmap]))).note told inBlocks_of_noteBlock,
      fun h => absurd (decide_eq_true h) havail,
      fun _ => ⟨(told.1 _ (noteBlock_eq_false.2 (by omega))).trans (get_put_same _ _ _), Pending.raised _ _ _ (by decide)⟩⟩

/-- The banker serves the record of a failed pip that has a slot. -/
theorem exec_substitution {s : State} {p : Nat} (hp : p < 256) (hserves : s.dev.bank.restarting = false)
    (hfailed : s.dev.get (R.PIP_STATE p) = pipFailed) (hslot : slotIn (s.dev.get (R.CUP_SLOT_MAP (cupOf p))) p ≠ 15) :
    ∃ l r, exec (.substitution p) s =
      .next { s with dev := ((s.dev.journal { retire := l }).replaced p (s.dev.get (R.CUP_SLOT_MAP (cupOf p)))).ledger r } := by
  have heq : exec (.substitution p) s = execSubstitution p s := rfl
  unfold slotIn at hslot
  refine ⟨[cupOf p * 9 + slotIn (s.dev.get (R.CUP_SLOT_MAP (cupOf p))) p], ?_⟩
  simp only [heq, execSubstitution, onUnit, decide_eq_true hp, State.upd, hserves, hfailed, hslot, Dev.replaced, slotIn, if_true,
    if_false, ne_eq, not_true_eq_false, decide_false, Bool.or_false, Bool.false_eq_true]
  by_cases havail : (s.dev.journal { retire := [cupOf p * 9 + bits (s.dev.get (R.CUP_SLOT_MAP (cupOf p))) (4 * (p % 8) + 3)
      (4 * (p % 8))] }).on (R.CUP_RES_AVAIL (cupOf p)) = true
  · exact ⟨_, by simp only [havail, if_true]; rfl⟩
  · exact ⟨_, by simp only [havail, Bool.false_eq_true, if_false]; rfl⟩

theorem substitution_gives {s : State} {p : Nat} (hp : p < 256) (hserves : s.dev.bank.restarting = false)
    (hfailed : s.dev.get (R.PIP_STATE p) = pipFailed) (hslot : slotIn (s.dev.get (R.CUP_SLOT_MAP (cupOf p))) p ≠ 15) :
    (Instr.substitution p).gives s fun t =>
      (s.dev.get (R.CUP_RES_AVAIL (cupOf p)) = 1 →
        t.dev.get (R.CUP_SLOT_MAP (cupOf p)) =
          slotPut (s.dev.get (R.CUP_SLOT_MAP (cupOf p))) (p % 8) (Tab.getD s.dev.pip.reserve (cupOf p) 8) % 2 ^ 32 ∧
        t.dev.get (R.CUP_RES_AVAIL (cupOf p)) = 0 ∧ t.dev.get (R.CUP_RES_USED (cupOf p)) = 1 ∧ t.dev.pends 968 = true) ∧
      (s.dev.get (R.CUP_RES_AVAIL (cupOf p)) = 0 →
        t.dev.get (R.CUP_SLOT_MAP (cupOf p)) = slotPut (s.dev.get (R.CUP_SLOT_MAP (cupOf p))) (p % 8) 15 % 2 ^ 32 ∧
        t.dev.pends 969 = true) ∧
      t.hbm = s.hbm ∧ s.Within [4] [.bank] t := by
  obtain ⟨l, r, hexec⟩ := exec_substitution hp hserves hfailed hslot
  obtain ⟨block, -⟩ := reserveFields_apart (cupOf p) 0
  simp only [List.forall_mem_cons] at block
  obtain ⟨hmap, havail, hused, -⟩ := block
  have unnoted {f : Fld} (hf : f.key / 0x4000000 = 4) : noteBlock f.key = false := noteBlock_eq_false.2 (by omega)
  have journalled := s.dev.journal_retire_only l
  have avail := journalled.1 _ (unnoted havail)
  have reserve : (s.dev.journal { retire := l }).pip = s.dev.pip := journalled.2 .pip (by decide)
  have only : s.dev.Only (inBlocks [4]) (notes ++ [.bank]) (s.dev.journal { retire := l }) :=
    journalled.widen inBlocks_of_noteBlock fun _ h => h
  obtain ⟨within, taken, gone⟩ := (s.dev.journal { retire := l }).replaced_spec p (s.dev.get (R.CUP_SLOT_MAP (cupOf p)))
  rw [avail, reserve] at taken
  rw [avail] at gone
  refine ⟨_, hexec, ?_⟩
  dsimp only
  generalize (s.dev.journal { retire := l }).replaced p (s.dev.get (R.CUP_SLOT_MAP (cupOf p))) = x at within taken gone ⊢
  have logged := Noting.ledger x r
  have pending := Pending.ledger x r
  refine ⟨fun h => ?_, fun h => ?_, rfl,
    (Sys2Proof.Only.trans only (within.widen (fun _ h => h) (by decide))).note logged inBlocks_of_noteBlock, rfl⟩
  · obtain ⟨map, none, used, pends⟩ := taken h
    exact ⟨(logged.1 _ (unnoted hmap)).trans map, (logged.1 _ (unnoted havail)).trans none, (logged.1 _ (unnoted hused)).trans used,
      pending _ (by decide) pends⟩
  · obtain ⟨map, pends⟩ := gone h
    exact ⟨(logged.1 _ (unnoted hmap)).trans map, pending _ (by decide) pends⟩

/-! ### A hub's cups taken out -/

theorem slotMap_unnoted (c : Nat) : noteBlock (R.CUP_SLOT_MAP c).key = false :=
  noteBlock_eq_false.2 (by have := (reserveFields_apart c 0).1 (R.CUP_SLOT_MAP c) (by simp); omega)

theorem Dev.cupOut_only (d : Dev) (c code : Nat) : d.Only (orNote [R.CUP_SLOT_MAP c]) notes (d.cupOut c code) :=
  ((((Only.refl _ _ d).put (orNote_of_mem (List.mem_singleton_self _))).note (Noting.raiseD_any _ _ _) orNote_of_noteBlock).note
    (Noting.ledger _ _) orNote_of_noteBlock)

/-- A cup taken out has no slot left, and no other cup loses any. -/
theorem Dev.cupOut_map (d : Dev) (c code j : Nat) :
    (d.cupOut c code).get (R.CUP_SLOT_MAP j) =
      if (R.CUP_SLOT_MAP j).key = (R.CUP_SLOT_MAP c).key then 0xFFFFFFFF else d.get (R.CUP_SLOT_MAP j) := by
  have hj := slotMap_unnoted j
  refine ((Noting.ledger _ _).1 _ hj).trans (((Noting.raiseD_any _ _ _).1 _ hj).trans ?_)
  split_ifs with hkey
  · have same : R.CUP_SLOT_MAP j = R.CUP_SLOT_MAP c := by
      have : j % 32 = c % 32 := by simp only [R.CUP_SLOT_MAP, Fld.key] at hkey; omega
      simp only [R.CUP_SLOT_MAP, this]
    rw [same]
    exact (get_put_same _ _ _).trans (Nat.mod_eq_of_lt (b := 2 ^ 32) (by decide))
  · exact get_put_ne _ _ _ _ hkey

theorem Dev.cupOut_pends (d : Dev) (c code : Nat) : (d.cupOut c code).pends 970 = true :=
  Pending.ledger _ _ 970 (by decide) (Pending.raised _ _ _ (by decide))

/-- The cups of a quarter hub taken out one after the other. -/
theorem Dev.cupsOut_map (d : Dev) (b code : Nat) : ∀ n, ∀ i < n,
    ((List.range n).foldl (fun d i => d.cupOut (b + i) code) d).get (R.CUP_SLOT_MAP (b + i)) = 0xFFFFFFFF := by
  intro n
  induction n with
  | zero => exact fun i hi => absurd hi (Nat.not_lt_zero i)
  | succ n ih =>
    intro i hi
    rw [List.range_succ, List.foldl_append, List.foldl_cons, List.foldl_nil, cupOut_map]
    split_ifs with hkey
    · rfl
    · exact ih i (by have : i ≠ n := fun h => hkey (h ▸ rfl); omega)

/-- A fault of a cup hub takes out its cup (R803). -/
theorem hubOut_cup_gives {s : State} {c : Nat} (hc : c < 32) (hserves : s.dev.bank.restarting = false) :
    (Instr.hubOut c false false).gives s fun t =>
      t.dev.get (R.CUP_SLOT_MAP c) = 0xFFFFFFFF ∧ t.dev.pends 970 = true ∧ s.Noting [R.CUP_SLOT_MAP c] [] t := by
  have heq : exec (.hubOut c false false) s = .next { s with dev := s.dev.cupOut c 2 } := by
    show execHubOut c false false s = _
    simp [execHubOut, onUnit, hc, State.upd, hserves]
  exact ⟨_, heq, by simp [Dev.cupOut_map], s.dev.cupOut_pends c 2, s.dev.cupOut_only c 2, rfl, rfl⟩

/-- A fault of a quarter hub takes out its eight cups (R803). -/
theorem hubOut_quarter_gives {s : State} {c : Nat} (hc : c < 32) (hserves : s.dev.bank.restarting = false) :
    (Instr.hubOut c true false).gives s fun t =>
      (∀ i, i < 8 → t.dev.get (R.CUP_SLOT_MAP (8 * (c / 8) + i)) = 0xFFFFFFFF) ∧ t.dev.pends 970 = true ∧
      s.Noting ((List.range 8).map (fun i => R.CUP_SLOT_MAP (8 * (c / 8) + i))) [] t := by
  have heq : exec (.hubOut c true false) s =
      .next { s with dev := (List.range 8).foldl (fun d i => d.cupOut (8 * (c / 8) + i) 3) s.dev } := by
    show execHubOut c true false s = _
    simp [execHubOut, onUnit, hc, State.upd, hserves]
  have pends : ((List.range 8).foldl (fun d i => d.cupOut (8 * (c / 8) + i) 3) s.dev).pends 970 = true := by
    rw [List.range_succ, List.foldl_append, List.foldl_cons, List.foldl_nil]
    exact Dev.cupOut_pends _ _ _
  have map := s.dev.cupsOut_map (8 * (c / 8)) 3 8
  have only : s.dev.Only (orNote ((List.range 8).map fun i => R.CUP_SLOT_MAP (8 * (c / 8) + i))) notes
      ((List.range 8).foldl (fun d i => d.cupOut (8 * (c / 8) + i) 3) s.dev) := by
    refine Sys2Proof.Only.foldl _ _ (fun d i hi => ?_) s.dev
    exact (d.cupOut_only _ 3).widen (orNote_mono (by simpa using ⟨i, by simpa using hi, rfl⟩)) fun _ h => h
  generalize (List.range 8).foldl (fun d i => d.cupOut (8 * (c / 8) + i) 3) s.dev = e at heq map pends only
  exact ⟨_, heq, map, pends, only, rfl, rfl⟩

/-- A fault of a crossbar half is one of the device (R803, R850). -/
theorem hubOut_xbar_gives {s : State} {c : Nat} (hc : c < 32) (hserves : s.dev.bank.restarting = false)
    (hpower : s.dev.get R.PWR_SU_STATE ≠ suPfail) :
    (Instr.hubOut c false true).gives s fun t =>
      t.dev.get R.PWR_SU_STATE = suFaulted ∧ t.dev.pends 6 = true ∧ t.pending = s.pending := by
  have heq : exec (.hubOut c false true) s = .next { s with dev := (s.dev.raise 6).deviceFault suFaulted } := by
    show execHubOut c false true s = _
    simp [execHubOut, onUnit, hc, State.upd, hserves]
  obtain ⟨state, pends⟩ := Dev.Stands.deviceFault (e := s.dev.raise 6) fun h => hpower
    (((Noting.raiseD_any _ _ _).1 R.PWR_SU_STATE (by decide)).symm.trans h)
  exact ⟨_, heq, state, pends 6 (by decide) (Pending.raised _ _ _ (by decide)), rfl⟩

/-! ### The self-test of an idle reserve -/

/-- A reserve that fails its self-test is available no more (R190). -/
theorem reserveSelftestFailed_gives {s : State} {c : Nat} (hc : c < 32) (havail : s.dev.get (R.CUP_RES_AVAIL c) = 1) :
    (Instr.reserveSelftestDone c false).gives s fun t =>
      t.dev.get (R.CUP_RES_AVAIL c) = 0 ∧ t.dev.get (R.CUP_RES_FAIL c) = 1 ∧ t.dev.pends (352 + c) = true ∧
      s.Noting [R.CUP_RES_AVAIL c, R.CUP_RES_FAIL c, R.FAB_RES_AVAIL (c / 8)] [] t := by
  obtain ⟨block, apart⟩ := reserveFields_apart c (c / 8)
  simp only [List.forall_mem_cons, List.pairwise_cons] at block apart
  obtain ⟨-, hres, -, hfail, -⟩ := block
  obtain ⟨-, ⟨-, availFail, availQuarter, -⟩, -⟩ := apart
  have unnoted {f : Fld} (hf : f.key / 0x4000000 = 4) : noteBlock f.key = false := noteBlock_eq_false.2 (by omega)
  have heq : exec (.reserveSelftestDone c false) s = .next { s with
      dev := ((s.dev.put (R.CUP_RES_AVAIL c) 0).reserveRegs (c / 8)).cupFlag c (R.CUP_RES_FAIL c) } := by
    show execReserveSelftestDone c false s = _
    simp [execReserveSelftestDone, onUnit, hc, State.upd, Dev.on, havail]
  have named : ∀ f ∈ [R.CUP_RES_AVAIL c, R.CUP_RES_FAIL c, R.FAB_RES_AVAIL (c / 8)],
      orNote [R.CUP_RES_AVAIL c, R.CUP_RES_FAIL c, R.FAB_RES_AVAIL (c / 8)] f.key = true := fun _ => orNote_of_mem
  simp only [List.forall_mem_cons] at named
  obtain ⟨namedAvail, namedFail, namedQuarter, -⟩ := named
  refine ⟨_, heq, ?_, Dev.get_flagRaise_same _ _ _ (by omega) (unnoted hfail), Dev.pends_flagRaise _ _ (by omega), ?_, rfl, rfl⟩
  · exact (Dev.get_flagRaise_ne _ _ _ _ (by omega) (unnoted hres) availFail).trans
      ((Dev.get_put_ne _ _ _ _ availQuarter).trans (Dev.get_put_same _ _ _))
  · exact ((((Only.refl _ _ s.dev).put namedAvail).reserveRegs namedQuarter).flag namedFail).note (Noting.raiseD_any _ _ _)
      orNote_of_noteBlock

/-- A reserve that passes stays as it is. -/
theorem exec_reserveSelftest_passed {s : State} {c : Nat} (hc : c < 32) : exec (.reserveSelftestDone c true) s = .next s := by
  show execReserveSelftestDone c true s = _
  simp [execReserveSelftestDone, onUnit, hc, State.upd]

end Sys2Proof.Machine
end

section
open Sys2Proof Sys2Proof.Machine

/-- Settles O22: a pip that fails is shut, its entries pooled with its cup, its flags raised, and its quarter's loss counted where
no reserve stands in; the banker then puts the cup's reserve, or no slot, in its place. -/
theorem aFailedPipIsOrphanedAndReplaced : Obligations.AFailedPipIsOrphanedAndReplaced := by
  unfold Obligations.AFailedPipIsOrphanedAndReplaced
  refine ⟨fun s p cause hp hactive => ⟨?_, pipTimeout_gives hp hactive, fun c hc => cupHubTimeout_gives hc⟩,
    fun s p c hp hc hserves => ⟨fun hfailed hslot => substitution_gives hp hserves hfailed hslot, hubOut_cup_gives hc hserves,
      hubOut_quarter_gives hc hserves, hubOut_xbar_gives hc hserves, reserveSelftestFailed_gives hc, exec_reserveSelftest_passed hc⟩⟩
  obtain ⟨t, hexec, down, lost, hhbm, within⟩ := pipFail_gives (cause := cause) hp hactive
  obtain ⟨out, work, pool, -, fault, cupFault, pends, cupPends⟩ := down
  refine ⟨t, hexec, out.state, fault, cupFault, out.active, pends, cupPends, out.todo, work, pool, fun havail => ?_, hhbm, within⟩
  obtain ⟨none, npips, loss, told, sheds⟩ := lost havail
  exact ⟨none, npips, loss, told, sheds⟩
end

section
/-! SUPPORT. Rebuilt plans and steal attempts (R207, R211, R214 to R217). -/

namespace Sys2Proof.Machine

set_option Elab.async false

/-! ### A rebuilt plan -/

/-- A quarter's rebuilt plan is kept for the next window (R211). -/
theorem planRebuildDone_gives {s : State} {q : Nat} (hq : q < 4) (hrebuild : q ∈ s.dev.pip.rebuild) :
    (Instr.planRebuildDone q).gives s fun t =>
      q ∉ t.dev.pip.rebuild ∧ Tab.get? t.dev.pip.nextPlan q = some ((s.dev.rebuilt q).2, (s.dev.rebuilt q).1) ∧
      t.dev.pip.plan = s.dev.pip.plan ∧ s.Only [] [.pip] t := by
  have heq : exec (.planRebuildDone q) s = .next { s with dev := { s.dev with pip := { s.dev.pip with
      rebuild := s.dev.pip.rebuild.filter (· ≠ q)
      nextPlan := Tab.set s.dev.pip.nextPlan q ((s.dev.rebuilt q).2, (s.dev.rebuilt q).1) } } } := by
    show execPlanRebuildDone q s = _
    simp [execPlanRebuildDone, onUnit, hq, State.upd, hrebuild]
  exact ⟨_, heq, by simp, Tab.get?_set_same _ _ _, rfl, (Only.refl _ _ s.dev).setPip, rfl, rfl⟩

/-! ### The next entry -/

/-- The fields of pip p that its work changes. -/
def workFields (p : Nat) : List Fld := [R.PIP_STATE p, R.PIP_REMAIN p, R.PIP_ATTEMPT p]

theorem workFields_block (p : Nat) : ∀ f ∈ workFields p, f.key / 0x4000000 = 4 := by
  simp only [workFields, List.forall_mem_cons, R.PIP_STATE, R.PIP_REMAIN, R.PIP_ATTEMPT, Fld.key]
  simp
  omega

/-- A pip that goes on to its next entry, or to none, changes its own state alone, and leaves the orphan pools. -/
theorem Dev.startNext_spec (d : Dev) (damaged : Nat → Bool) (p : Nat) :
    d.Only (regsOf (workFields p)) [.pip] (d.startNext damaged p) ∧ (d.startNext damaged p).pip.orphans = d.pip.orphans := by
  have named : ∀ f ∈ workFields p, regsOf (workFields p) f.key = true := fun _ => regsOf_of_mem
  simp only [workFields, List.forall_mem_cons] at named
  obtain ⟨hstate, hremain, hattempt, -⟩ := named
  have taken (l : List Nat) : d.Only (regsOf (workFields p)) [.pip] (d.putTodo p l) := Dev.Only.put (Only.refl _ _ d).setPip hremain
  unfold startNext
  split
  · have idle : d.Only (regsOf (workFields p)) [.pip] (((d.putTodo p []).putWork p none).put (R.PIP_ATTEMPT p) 0) :=
      Dev.Only.put (taken []).setPip hattempt
    unfold beginIdle
    dsimp only
    split
    · exact ⟨idle.put hstate, rfl⟩
    · exact ⟨idle.put hstate, rfl⟩
  · exact ⟨Dev.Only.put (taken _).setPip hstate, rfl⟩

/-- The same of a pip that is given entries first. -/
theorem Dev.resume_spec (d : Dev) (damaged : Nat → Bool) (p : Nat) (l : List Nat) :
    d.Only (regsOf (workFields p)) [.pip] ((d.putTodo p l).startNext damaged p) ∧
      ((d.putTodo p l).startNext damaged p).pip.orphans = d.pip.orphans := by
  obtain ⟨only, orphans⟩ := (d.putTodo p l).startNext_spec damaged p
  exact ⟨Sys2Proof.Only.trans (Dev.Only.put (Only.refl _ _ d).setPip (regsOf_of_mem (by simp [workFields]))) only, orphans⟩

/-! ### Steal attempts -/

/-- An idle pip's attempt is made while composing goes on. -/
theorem exec_stealAttempt {s : State} {p : Nat} (hp : p < 256) (hphase : s.dev.sched.phase = .compose) :
    exec (.stealAttempt p) s = .next { s with dev := s.dev.steal s.dev.wanted p } := by
  show execStealAttempt p s = _
  simp [execStealAttempt, onUnit, hp, State.upd, hphase]

/-- An orphan pool left with l. -/
def Dev.pooled (d : Dev) (c : Nat) (l : List Nat) : Dev := { d with pip := { d.pip with orphans := Tab.set d.pip.orphans c l } }

/-- An orphan pool grants its upper half (R215). -/
theorem Dev.grant_pool {d : Dev} {c : Nat} (h : 0 < (Tab.getD d.pip.orphans c []).length) :
    let pool := Tab.getD d.pip.orphans c []
    d.grant c = (pool.drop (pool.length / 2), d.pooled c (pool.take (pool.length / 2))) := by
  unfold grant pooled
  generalize Tab.getD d.pip.orphans c [] = pool at h ⊢
  have keep : pool.length - ceilDiv pool.length 2 = pool.length / 2 := by unfold ceilDiv; omega
  simp only [keep]
  rw [if_pos (by omega)]

/-- With its pool empty and no pip of it that can spare an entry, a cup grants nothing (R215). -/
theorem Dev.grant_none {d : Dev} {c : Nat} (hpool : Tab.getD d.pip.orphans c [] = []) (hrichest : (d.richest c).2 < 2) :
    d.grant c = ([], d) := by
  unfold grant
  simp [hpool, hrichest]

/-- What a pip counts of entries that it took from a cup. -/
def Dev.stolen (d : Dev) (p victim n : Nat) : Dev :=
  (((d.bump R.FAB_STEAL_OK 1).bump (R.CUP_STEAL_IN (cupOf p)) n).bump (R.CUP_STEAL_OUT victim) n).put (R.PIP_ATTEMPT p) 0

/-- The counters of a theft lie in the fabric, apart from each other and from a pip's fields. -/
theorem stealFields_apart (p c v : Nat) :
    (∀ f ∈ [R.FAB_STEAL_OK, R.CUP_STEAL_IN c, R.CUP_STEAL_OUT v] ++ workFields p, f.key / 0x4000000 = 4) ∧
      (∀ f ∈ R.CUP_STEAL_IN c :: R.CUP_STEAL_OUT v :: workFields p, R.FAB_STEAL_OK.key ≠ f.key) ∧
      ∀ f ∈ R.FAB_STEAL_OK :: R.CUP_STEAL_OUT v :: workFields p, (R.CUP_STEAL_IN c).key ≠ f.key := by
  simp only [workFields, List.cons_append, List.nil_append, List.forall_mem_cons, R.FAB_STEAL_OK, R.CUP_STEAL_IN, R.CUP_STEAL_OUT,
    R.PIP_STATE, R.PIP_REMAIN, R.PIP_ATTEMPT, Fld.key]
  simp
  omega

theorem Dev.stolen_spec (d : Dev) (p v n : Nat) :
    d.Only (inBlocks [4]) [] (d.stolen p v n) ∧ (d.stolen p v n).get R.FAB_STEAL_OK = (d.get R.FAB_STEAL_OK + 1) % 2 ^ 64 ∧
      (d.stolen p v n).get (R.CUP_STEAL_IN (cupOf p)) = (d.get (R.CUP_STEAL_IN (cupOf p)) + n) % 2 ^ 64 := by
  obtain ⟨block, ok, gain⟩ := stealFields_apart p (cupOf p) v
  simp only [workFields, List.cons_append, List.nil_append, List.forall_mem_cons] at block ok gain
  obtain ⟨hok, hgain, hloss, -, -, hattempt, -⟩ := block
  obtain ⟨okGain, okLoss, -, -, okAttempt, -⟩ := ok
  obtain ⟨gainOk, gainLoss, -, -, gainAttempt, -⟩ := gain
  have named {f : Fld} (hf : f.key / 0x4000000 = 4) : inBlocks [4] f.key = true := inBlocks_of_mem (by simp [hf])
  refine ⟨((((Only.refl _ _ d).bump (named hok)).bump (named hgain)).bump (named hloss)).put (named hattempt), ?_, ?_⟩
  · exact (get_put_ne _ _ _ _ okAttempt).trans ((get_put_ne _ _ _ _ okLoss).trans ((get_put_ne _ _ _ _ okGain).trans
      (get_put_same _ _ _)))
  · refine (get_put_ne _ _ _ _ gainAttempt).trans ((get_put_ne _ _ _ _ gainLoss).trans ((get_put_same _ _ _).trans ?_))
    exact congrArg (fun v => (v + n) % 2 ^ 64) (get_put_ne _ _ _ _ gainOk)

/-- An attempt that is granted entries ends the idle period (R215). -/
theorem Dev.steal_of_grant {d e : Dev} {damaged : Nat → Bool} {p : Nat} {got : List Nat} (hstate : d.get (R.PIP_STATE p) = pipStealing)
    (hgrant : d.grant (victimOf p (d.get (R.PIP_ATTEMPT p))) = (got, e)) (hgot : got ≠ []) :
    d.steal damaged p =
      ((e.stolen p (victimOf p (d.get (R.PIP_ATTEMPT p))) got.length).putTodo p got).startNext damaged p := by
  unfold steal
  rw [if_neg (by simp [hstate])]
  dsimp only
  rw [hgrant]
  cases got with
  | nil => exact absurd rfl hgot
  | cons k got => rfl

theorem stealAttempt_pool_gives {s : State} {p : Nat} (hp : p < 256) (hphase : s.dev.sched.phase = .compose)
    (hstate : s.dev.get (R.PIP_STATE p) = pipStealing)
    (h : 0 < (Tab.getD s.dev.pip.orphans (victimOf p (s.dev.get (R.PIP_ATTEMPT p))) []).length) :
    let v := victimOf p (s.dev.get (R.PIP_ATTEMPT p))
    let pool := Tab.getD s.dev.pip.orphans v []
    (Instr.stealAttempt p).gives s fun t =>
      Tab.getD t.dev.pip.orphans v [] = pool.take (pool.length / 2) ∧
      t.dev.get R.FAB_STEAL_OK = (s.dev.get R.FAB_STEAL_OK + 1) % 2 ^ 64 ∧
      t.dev.get (R.CUP_STEAL_IN (cupOf p)) = (s.dev.get (R.CUP_STEAL_IN (cupOf p)) + (pool.length + 1) / 2) % 2 ^ 64 ∧
      t.hbm = s.hbm ∧ s.Within [4] [.pip] t := by
  intro v pool
  refine ⟨_, exec_stealAttempt hp hphase, ?_⟩
  obtain ⟨block, okApart, gainApart⟩ := stealFields_apart p (cupOf p) v
  simp only [List.forall_mem_cons, List.forall_mem_append] at block okApart gainApart
  have hpos : 0 < pool.length := h
  have half : (pool.drop (pool.length / 2)).length = (pool.length + 1) / 2 := by rw [List.length_drop]; omega
  rw [Dev.steal_of_grant hstate (Dev.grant_pool h) (List.ne_nil_of_length_pos (by rw [half]; omega)), half]
  obtain ⟨only, ok, gain⟩ := (s.dev.pooled v (pool.take (pool.length / 2))).stolen_spec p v ((pool.length + 1) / 2)
  have orphans : ((s.dev.pooled v (pool.take (pool.length / 2))).stolen p v ((pool.length + 1) / 2)).pip.orphans =
    Tab.set s.dev.pip.orphans v (pool.take (pool.length / 2)) := rfl
  have taken : s.dev.Only (inBlocks [4]) [.pip] ((s.dev.pooled v (pool.take (pool.length / 2))).stolen p v ((pool.length + 1) / 2)) :=
    Sys2Proof.Only.trans (Only.refl _ _ s.dev).setPip (only.widen (fun _ h => h) (by simp))
  generalize (s.dev.pooled v (pool.take (pool.length / 2))).stolen p v ((pool.length + 1) / 2) = x at *
  obtain ⟨resumed, kept⟩ := x.resume_spec s.dev.wanted p (pool.drop (pool.length / 2))
  have untaken {f : Fld} (hf : ∀ g ∈ workFields p, f.key ≠ g.key) : regsOf (workFields p) f.key = false :=
    regsOf_eq_false.2 fun g hg he => hf g hg he.symm
  refine ⟨?_, (resumed.1 _ (untaken okApart.2.2)).trans ok, (resumed.1 _ (untaken gainApart.2.2)).trans gain, rfl, ?_, rfl⟩
  · rw [show (_ : Dev).pip.orphans = _ from kept.trans orphans]
    exact Tab.getD_set_same _ _ _ _
  · refine (Sys2Proof.Only.trans taken (resumed.widen (fun k hk => ?_) fun _ h => h)).widen (fun _ h => h) (by decide)
    obtain ⟨f, hf, rfl⟩ := regsOf_eq_true.1 hk
    exact inBlocks_of_mem (by simp [block.2 f hf])

/-- What a pip records of an attempt in vain. -/
def Dev.missed (d : Dev) (p : Nat) : Dev :=
  { (d.bump R.FAB_STEAL_FAIL 1).put (R.PIP_ATTEMPT p) (d.get (R.PIP_ATTEMPT p) + 1) with
    pip := { d.pip with lfsr := Tab.set d.pip.lfsr p (lfsrStep (Tab.getD d.pip.lfsr p (lfsrSeed p))) } }

/-- An attempt that is granted nothing is counted, and the last one parks the pip (R214). -/
theorem Dev.steal_of_none {d : Dev} {damaged : Nat → Bool} {p : Nat} (hstate : d.get (R.PIP_STATE p) = pipStealing)
    (hgrant : d.grant (victimOf p (d.get (R.PIP_ATTEMPT p))) = ([], d)) :
    d.steal damaged p =
      if (d.missed p).attempts ≤ d.get (R.PIP_ATTEMPT p) + 1 then ((d.missed p).park p).bump R.FAB_PARKS 1 else d.missed p := by
  unfold steal
  rw [if_neg (by simp [hstate])]
  dsimp only
  rw [hgrant]
  rfl

/-- The fields of an attempt in vain. -/
def missFields (p : Nat) : List Fld := [R.FAB_STEAL_FAIL, R.PIP_ATTEMPT p, R.PIP_STATE p, R.FAB_PARKS]

theorem missFields_apart (p : Nat) : (missFields p).Pairwise (·.key ≠ ·.key) ∧ ∀ f ∈ missFields p, R.FAB_STEAL_XCUP.key ≠ f.key := by
  simp only [missFields, List.pairwise_cons, List.forall_mem_cons, R.FAB_STEAL_FAIL, R.PIP_ATTEMPT, R.PIP_STATE, R.FAB_PARKS,
    R.FAB_STEAL_XCUP, Fld.key]
  simp
  omega

theorem stealAttempt_none_gives {s : State} {p : Nat} (hp : p < 256) (hphase : s.dev.sched.phase = .compose)
    (hstate : s.dev.get (R.PIP_STATE p) = pipStealing)
    (hpool : Tab.getD s.dev.pip.orphans (victimOf p (s.dev.get (R.PIP_ATTEMPT p))) [] = [])
    (hrichest : (s.dev.richest (victimOf p (s.dev.get (R.PIP_ATTEMPT p)))).2 < 2) :
    (Instr.stealAttempt p).gives s fun t =>
      t.dev.get R.FAB_STEAL_FAIL = (s.dev.get R.FAB_STEAL_FAIL + 1) % 2 ^ 64 ∧
      t.dev.get (R.PIP_STATE p) =
        (if s.dev.attempts ≤ s.dev.get (R.PIP_ATTEMPT p) + 1 then pipParked else pipStealing) ∧
      t.dev.pip.todo = s.dev.pip.todo ∧ s.Only [R.FAB_STEAL_FAIL, R.PIP_ATTEMPT p, R.PIP_STATE p, R.FAB_PARKS] [.pip] t := by
  refine ⟨_, exec_stealAttempt hp hphase, ?_⟩
  obtain ⟨apart, cross⟩ := missFields_apart p
  have named : ∀ f ∈ missFields p, regsOf (missFields p) f.key = true := fun _ => regsOf_of_mem
  simp only [missFields, List.pairwise_cons, List.forall_mem_cons] at apart cross named
  obtain ⟨⟨failAttempt, failState, failParks, -⟩, ⟨attemptState, -⟩, ⟨stateParks, -⟩, -⟩ := apart
  obtain ⟨crossFail, crossAttempt, -⟩ := cross
  obtain ⟨hfail, hattempt, hstate', hparks, -⟩ := named
  have missed : s.dev.Only (regsOf (missFields p)) [.pip] (s.dev.missed p) :=
    Dev.Only.setPip (((Only.refl _ _ s.dev).bump hfail).put hattempt)
  have counted : (s.dev.missed p).get R.FAB_STEAL_FAIL = (s.dev.get R.FAB_STEAL_FAIL + 1) % 2 ^ 64 :=
    (Dev.get_put_ne _ _ _ _ failAttempt).trans (Dev.get_put_same _ _ _)
  have stands : (s.dev.missed p).get (R.PIP_STATE p) = pipStealing :=
    (Dev.get_put_ne _ _ _ _ attemptState.symm).trans ((Dev.get_put_ne _ _ _ _ failState.symm).trans hstate)
  have attempts : (s.dev.missed p).attempts = s.dev.attempts := by
    have : (s.dev.missed p).get R.FAB_STEAL_XCUP = s.dev.get R.FAB_STEAL_XCUP :=
      (Dev.get_put_ne _ _ _ _ crossAttempt).trans (Dev.get_put_ne _ _ _ _ crossFail)
    unfold Dev.attempts Dev.on
    rw [this]
  rw [Dev.steal_of_none hstate (Dev.grant_none hpool hrichest), attempts]
  have todo : (s.dev.missed p).pip.todo = s.dev.pip.todo := rfl
  generalize s.dev.missed p = x at *
  dsimp only
  split_ifs
  · have parked : s.dev.Only (regsOf (missFields p)) [.pip] ((x.park p).bump R.FAB_PARKS 1) :=
      Dev.Only.bump (Dev.Only.put missed.setPip hstate') hparks
    exact ⟨(Dev.get_put_ne _ _ _ _ failParks).trans ((Dev.get_put_ne _ _ _ _ failState).trans counted),
      (Dev.get_put_ne _ _ _ _ stateParks).trans (Dev.get_put_same _ _ _), todo, parked, rfl, rfl⟩
  · exact ⟨counted, stands, todo, missed, rfl, rfl⟩

end Sys2Proof.Machine
end

section
/-! SUPPORT. A patch composed (R185, R250, R281, R309, R318): what the pip hands on, and what its counting, checks, push lines and
capture write-back leave of it. -/

namespace Sys2Proof.Machine

set_option Elab.async false

/-! ### What a pip has handed on -/

/-- From d to e nothing is handed on or taken, no patch is latched or emitted, and the patches of pip p stand as counted. -/
structure Dev.SameHand (p : Nat) (d e : Dev) : Prop where
  emit : e.comp.emit = d.comp.emit
  latched : e.push.latched = d.push.latched
  emitted : e.push.emitted = d.push.emitted
  count : e.get (R.PIP_PATCH_CNT p) = d.get (R.PIP_PATCH_CNT p)

theorem patchCount_block (p : Nat) : (R.PIP_PATCH_CNT p).key / 0x4000000 = 4 := by simp only [R.PIP_PATCH_CNT, Fld.key]; omega

namespace Dev.SameHand

variable {p : Nat} {d e x : Dev}

theorem refl (d : Dev) : d.SameHand p d := ⟨rfl, rfl, rfl, rfl⟩

theorem trans (h : d.SameHand p e) (k : e.SameHand p x) : d.SameHand p x :=
  ⟨k.emit.trans h.emit, k.latched.trans h.latched, k.emitted.trans h.emitted, k.count.trans h.count⟩

/-- A change of other fields and parts. -/
theorem only {r : Nat → Bool} {l : List Part} (h : d.SameHand p e) (k : e.Only r l x) (hr : r (R.PIP_PATCH_CNT p).key = false)
    (hl : Part.comp ∉ l ∧ Part.push ∉ l := by decide) : d.SameHand p x := by
  have comp : x.comp = e.comp := k.2 .comp hl.1
  have push : x.push = e.push := k.2 .push hl.2
  exact h.trans ⟨by rw [comp], by rw [push], by rw [push], k.1 _ hr⟩

theorem put {f : Fld} {v : Nat} (h : d.SameHand p e) (hf : f.key / 0x4000000 ≠ 4) : d.SameHand p (e.put f v) :=
  h.trans ⟨rfl, rfl, rfl, get_put_ne _ _ _ _ fun he => hf (he ▸ patchCount_block p)⟩

theorem note (h : d.SameHand p e) (k : e.Noted x) : d.SameHand p x :=
  h.only k (noteBlock_eq_false.2 (by rw [patchCount_block]; decide))

theorem flagRaiseOnce {f : Fld} {n : Nat} (h : d.SameHand p e) (hf : f.key / 0x4000000 ≠ 4) : d.SameHand p (e.flagRaiseOnce f n) :=
  (h.put hf).note (Noting.raiseOnceD_any _ _ _)

theorem setComp {c : CompSt} (h : d.SameHand p e) (hc : c.emit = e.comp.emit := by rfl) : d.SameHand p { e with comp := c } :=
  h.trans ⟨hc, rfl, rfl, rfl⟩

theorem setPush {c : PushSt} (h : d.SameHand p e) (hl : c.latched = e.push.latched := by rfl)
    (he : c.emitted = e.push.emitted := by rfl) : d.SameHand p { e with push := c } := h.trans ⟨rfl, hl, he, rfl⟩

theorem modChan {cls i : Nat} {f : Chan → Chan} (h : d.SameHand p e) : d.SameHand p (e.modChan cls i f) :=
  h.trans ⟨rfl, rfl, rfl, rfl⟩

theorem ite {c : Prop} {_ : Decidable c} {y : Dev} (h : d.SameHand p x) (k : d.SameHand p y) : d.SameHand p (if c then x else y) := by
  split_ifs <;> assumption

theorem when {c : Prop} {_ : Decidable c} (h : d.SameHand p e) (hx : d.SameHand p e → d.SameHand p x) :
    d.SameHand p (if c then x else e) := ite (hx h) h

theorem skipIf {c : Prop} {_ : Decidable c} (h : d.SameHand p e) (hx : d.SameHand p e → d.SameHand p x) :
    d.SameHand p (if c then e else x) := ite h (hx h)

theorem foldl {α : Type} {f : Dev → α → Dev} (h : d.SameHand p e) (hf : ∀ (e : Dev) (a : α), d.SameHand p e → d.SameHand p (f e a)) :
    ∀ l : List α, d.SameHand p (l.foldl f e) := by
  intro l
  induction l generalizing e with
  | nil => exact h
  | cons a l ih => exact ih (hf e a h)

/-! ### Counting -/

theorem noteBlended {n : Nat} (h : d.SameHand p e) :
    d.SameHand p (if n ∈ e.comp.blended then e else { e with comp := { e.comp with blended := n :: e.comp.blended } }) :=
  h.skipIf fun h => h.setComp

theorem composeCount {r : Rect} {all culled work : List (Nat × Latch)} {sat : Bool} (h : d.SameHand p e) :
    d.SameHand p (e.composeCount r all culled work sat) := by
  unfold Dev.composeCount
  extract_lets saturated ties shadowed tied culledLpx note gone
  have hsaturated : d.SameHand p saturated := h.when fun h => (h.put (by decide)).flagRaiseOnce (by decide)
  have hshadowed : d.SameHand p shadowed := hsaturated.put (by decide)
  have htied : d.SameHand p tied := ite hsaturated (ite (hshadowed.flagRaiseOnce (by decide)) (hshadowed.put (by decide)))
  have hlpx : d.SameHand p culledLpx := htied.put (by decide)
  have hnote {e : Dev} {n : Nat} (h : d.SameHand p e) : d.SameHand p (note e n) := h.noteBlended
  have hgone : d.SameHand p gone := hlpx.foldl (fun _ _ h => hnote (h.put (by simp only [R.LAY_CULL_CNT, Fld.key]; omega))) _
  exact hgone.foldl (fun _ _ h => hnote (h.put (by simp only [R.LAY_PATCH_CNT, Fld.key]; omega))) _

theorem kamRead {blocks errors : Nat} (h : d.SameHand p e) : d.SameHand p (e.kamRead blocks errors) :=
  skipIf (h.put (by decide)) fun h => ((h.put (by decide)).put (by decide)).note (Noting.raiseOnceD_any _ _ _)

/-! ### Checks -/

theorem markAll {l : List Nat} (h : d.SameHand p e) : d.SameHand p (e.markAll l) :=
  h.foldl (fun _ _ h => h.skipIf fun h => h.setPush) _

theorem checkResult {i v : Nat} (h : d.SameHand p e) : d.SameHand p (e.checkResult i v) := by
  unfold Dev.checkResult
  split
  · exact h
  · exact ite (modChan (setComp h.setComp)) (ite (modChan h.setComp)
      (when (flagRaiseOnce (put (modChan h.setComp) (by decide)) (by decide)) markAll))

theorem checkPatch {i k : Nat} {word : Nat → Nat → Nat} (h : d.SameHand p e) : d.SameHand p (e.checkPatch i k word) := by
  unfold Dev.checkPatch
  split
  · refine ite ?_ h
    dsimp only
    split
    · exact checkResult h.setComp
    · exact h.setComp
  · exact h

theorem checkEmit {k : Nat} {pix : List Pix} (h : d.SameHand p e) : d.SameHand p (e.checkEmit k pix) :=
  h.foldl (fun _ _ h => h.checkPatch) _

/-! ### Push lines -/

/-- Queues and blitter hold none of it. -/
theorem blitSafe (d : Dev) : BlitSafe (d.SameHand p) where
  put h hf := h.put (by simp only [List.mem_cons, List.not_mem_nil, or_false] at hf; omega)
  parts h hr hp := h.only (r := fun _ => false) (l := blitParts) ⟨fun f _ => get_congr hr f, hp⟩ rfl
  note h k _ := h.note k

theorem plShot {i : Nat} (h : d.SameHand p e) : d.SameHand p (e.plShot i) :=
  (blitSafe d).blitFire ((put h.setPush (by simp only [R.PUSH_PL_FIRE_TURN, Fld.key]; omega)).note (Noting.raiseD_any _ _ _))

theorem plFire (h : d.SameHand p e) : d.SameHand p e.plFire := h.skipIf fun h => h.foldl (fun _ _ h => h.when plShot) _

/-! ### The next entry -/

theorem startNext {damaged : Nat → Bool} (h : d.SameHand p e) : d.SameHand p (e.startNext damaged p) := by
  refine h.only (e.startNext_spec damaged p).1 (regsOf_eq_false.2 ?_)
  simp only [workFields, List.forall_mem_cons, R.PIP_PATCH_CNT, R.PIP_STATE, R.PIP_REMAIN, R.PIP_ATTEMPT, Fld.key]
  simp
  omega

end Dev.SameHand

/-! ### Write-back -/

/-- From s to t nothing is handed on, and the queue stands. -/
structure State.SameHand (p : Nat) (s t : State) : Prop where
  dev : s.dev.SameHand p t.dev
  pending : t.pending = s.pending

namespace State.SameHand

variable {p : Nat} {s t : State}

theorem foldl {α : Type} {f : State → α → State} (h : s.SameHand p t)
    (hf : ∀ (t : State) (a : α), s.SameHand p t → s.SameHand p (f t a)) : ∀ l : List α, s.SameHand p (l.foldl f t) := by
  intro l
  induction l generalizing t with
  | nil => exact h
  | cons a l ih => exact ih (hf t a h)

theorem surfPut {u : Surf} {off : Nat} {bs : List Byte} (h : s.SameHand p t) : s.SameHand p (t.surfPut u false off bs).2 := by
  obtain ⟨only, pending⟩ := t.surfPut_only u off bs
  have apart : inBlocks [5] (R.PIP_PATCH_CNT p).key = false := by simp [inBlocks, noteBlock, patchCount_block]
  exact ⟨h.dev.only only apart, pending.trans h.pending⟩

theorem upd {f : Dev → Dev} (h : s.SameHand p t) (hf : s.dev.SameHand p t.dev → s.dev.SameHand p (f t.dev)) : s.SameHand p (t.upd f) :=
  ⟨hf h.dev, h.pending⟩

theorem kamWrite {u : Surf} {b : Nat} {bs : List Byte} (h : s.SameHand p t) : s.SameHand p (t.kamWrite u false b bs).2 := by
  unfold State.kamWrite
  dsimp only
  split
  · exact h.surfPut
  · have counted {t : State} (h : s.SameHand p t) : s.SameHand p (t.upd fun d => d.bump R.MEM_KAM_WRITE 1) :=
      h.upd fun h => h.put (by decide)
    exact counted h.surfPut.surfPut

theorem captureWrite {l : Latch} {k : Nat} {pix : List Pix} (h : s.SameHand p t) : s.SameHand p (t.captureWrite l k pix) := by
  unfold State.captureWrite
  dsimp only
  split
  · exact h
  · split_ifs
    · exact h
    · exact h.foldl (fun _ _ h => h.foldl (fun _ _ h => h.kamWrite.upd fun h => h.put (by decide)) _) _
    · exact h.foldl (fun _ _ h => h.surfPut.upd fun h => h.put (by decide)) _

theorem captureAll {k : Nat} {pix : List Pix} (h : s.SameHand p t) : s.SameHand p (t.captureAll k pix) :=
  h.foldl (fun _ _ h => h.captureWrite) _

end State.SameHand

/-! ### A patch composed -/

/-- The layers that are blended on a patch, in order. -/
def State.blended (s : State) (k : Nat) : List (Nat × Latch) :=
  (s.dev.cullSplit (s.dev.patchRect k) (s.dev.layersOver (s.dev.patchRect k))).2

/-- A fetch for a patch meets poison. -/
def State.meetsPoison (s : State) (k : Nat) : Bool :=
  (s.blended k).any fun x => lKind x.2.record == 0 && s.layerPoisoned x.2 (s.dev.patchRect k)

/-- The pixels of a patch blended, each with whether a lane clipped. -/
def State.blends (s : State) (k : Nat) : List (Pix × Bool) :=
  (s.dev.patchRect k).pixels.map fun x => s.composePixel ((s.blended k).map (·.2)) x.1 x.2

/-- The accumulator pixels of a composed patch. -/
def State.composed (s : State) (k : Nat) : List Pix := (s.blends k).map (·.1)

/-- A patch that meets poison is given up (R250). -/
theorem State.compose_poisoned {s : State} {k : Nat} (h : s.meetsPoison k = true) : s.compose k = (none, s) := by
  unfold compose
  exact if_pos h

/-- Counting reads changes no byte. -/
theorem State.SameHand.kamCount {p : Nat} {s t : State} {l : Latch} {r : Rect} (h : s.SameHand p t ∧ t.hbm = s.hbm) :
    s.SameHand p (t.kamCount l r) ∧ (t.kamCount l r).hbm = s.hbm := by
  obtain ⟨same, hbm⟩ := h
  unfold State.kamCount
  split
  · exact ⟨same, hbm⟩
  · split_ifs
    · exact ⟨same.upd fun h => h.kamRead, hbm⟩
    · exact ⟨same, hbm⟩

/-- What a patch reads of Kamius surfaces is counted, layer by layer. -/
def State.countReads (s : State) (work : List (Nat × Latch)) (r : Rect) : State :=
  work.foldl (fun (s : State) (x : Nat × Latch) => if lKind x.2.record = 0 then s.kamCount x.2 r else s) s

theorem State.SameHand.countReads {p : Nat} {r : Rect} {s : State} :
    ∀ (work : List (Nat × Latch)) {t : State}, s.SameHand p t ∧ t.hbm = s.hbm →
      s.SameHand p (t.countReads work r) ∧ (t.countReads work r).hbm = s.hbm
  | [], _, h => h
  | x :: work, t, h => by
    refine SameHand.countReads work (t := if lKind x.2.record = 0 then t.kamCount x.2 r else t) ?_
    split_ifs
    · exact SameHand.kamCount h
    · exact h

/-- A patch that meets none gives its pixels. -/
theorem State.compose_unpoisoned {s : State} {k : Nat} (h : s.meetsPoison k = false) :
    let r := s.dev.patchRect k
    s.compose k = (some (s.composed k, lpxOf r (s.blended k)), (s.countReads (s.blended k) r).upd fun d =>
      d.composeCount r (s.dev.layersOver r) (s.dev.cullSplit r (s.dev.layersOver r)).1 (s.blended k) ((s.blends k).any (·.2))) := by
  unfold compose
  exact if_neg (Bool.eq_false_iff.1 h)

/-- Composing a patch hands nothing on (R185, R281, R309). -/
theorem State.compose_clean {s : State} {k : Nat} (p : Nat) (h : s.meetsPoison k = false) :
    ∃ lpx t, s.compose k = (some (s.composed k, lpx), t) ∧ s.SameHand p t ∧ t.hbm = s.hbm := by
  obtain ⟨same, hbm⟩ := SameHand.countReads (p := p) (r := s.dev.patchRect k) (s.blended k) (t := s) ⟨⟨.refl _, rfl⟩, rfl⟩
  exact ⟨_, _, compose_unpoisoned h, same.upd fun h => h.composeCount, hbm⟩

/-- A patch handed to the calibration unit of its quarter, and emitted for the push where it is latched; its checks and the push
lines come after. -/
def Dev.handOn (d : Dev) (k : Nat) (pix : List Pix) : Dev :=
  let q := quarterOf (patchSquare k / 64)
  let e := { d with comp := { d.comp with emit := Tab.set d.comp.emit q (Tab.getD d.comp.emit q [] ++ [Emitted.mk k pix]) } }
  if k ∈ e.push.latched ∧ k ∉ e.push.emitted then { e with push := { e.push with emitted := k :: e.push.emitted } } else e

theorem Dev.handOn_spec (d : Dev) (k : Nat) (pix : List Pix) (f : Fld) :
    let q := quarterOf (patchSquare k / 64)
    Tab.getD (d.handOn k pix).comp.emit q [] = Tab.getD d.comp.emit q [] ++ [⟨k, pix⟩] ∧
      (k ∈ d.push.latched → k ∈ (d.handOn k pix).push.emitted) ∧ (d.handOn k pix).get f = d.get f := by
  have added := Tab.getD_set_same d.comp.emit (quarterOf (patchSquare k / 64))
    (Tab.getD d.comp.emit (quarterOf (patchSquare k / 64)) [] ++ [⟨k, pix⟩]) []
  unfold handOn
  dsimp only
  split_ifs with h
  · exact ⟨added, fun _ => List.mem_cons_self .., rfl⟩
  · exact ⟨added, fun hk => not_not.1 fun hn => h ⟨hk, hn⟩, rfl⟩

/-- What a pip counts of a composed patch. -/
def Dev.patchCounted (d : Dev) (p lpx : Nat) : Dev :=
  ((d.bump (R.PIP_PATCH_CNT p) 1).bump (R.PIP_LPX_CNT p) lpx).bump (R.CUP_PATCHES (cupOf p)) 1

theorem Dev.patchCounted_count (d : Dev) (p lpx : Nat) :
    (d.patchCounted p lpx).get (R.PIP_PATCH_CNT p) = (d.get (R.PIP_PATCH_CNT p) + 1) % 2 ^ 64 := by
  refine (get_put_ne _ _ _ _ ?_).trans ((get_put_ne _ _ _ _ ?_).trans (get_put_same _ _ _))
  · simp only [R.PIP_PATCH_CNT, R.CUP_PATCHES, Fld.key]; omega
  · simp only [R.PIP_PATCH_CNT, R.PIP_LPX_CNT, Fld.key]; omega

/-- What a composing pip does with the result of its patch. -/
def patchDone (p k : Nat) (damaged : Bool) : Option (List Pix × Nat) × State → State
  | (none, t) => t.upd fun d => d.startNext d.wanted p
  | (some (pix, lpx), t) =>
    let t := (t.upd fun d => d.patchCounted p lpx).upd fun d => d.emit k pix
    (if damaged then t.captureAll k pix else t).upd fun d => d.startNext d.wanted p

/-- A composing pip finishes its patch (R185). -/
theorem exec_patchComposed {s : State} {p k : Nat} (hp : p < 256) (hwork : Tab.get? s.dev.pip.work p = some k)
    (hstate : s.dev.get (R.PIP_STATE p) = pipComposing) :
    exec (.patchComposed p 0) s = .next (patchDone p k (decide (k ∈ s.dev.push.latched)) (s.compose k)) := by
  have plain : s.upd (fun d => d.pipCorrected p 0) = s := by simp [State.upd, Dev.pipCorrected]
  have heq : exec (.patchComposed p 0) s = execPatchComposed p 0 s := rfl
  rw [heq]
  unfold execPatchComposed
  rw [if_neg (by omega), hwork]
  dsimp only
  rw [if_neg (by simp [hstate]), plain]
  generalize s.compose k = r
  obtain ⟨_ | ⟨pix, lpx⟩, t⟩ := r
  · rfl
  · rfl

/-- What comes after a patch is handed on leaves it so. -/
theorem patchDone_spec (p k : Nat) (damaged : Bool) (pix : List Pix) (lpx : Nat) (t : State) :
    ((t.dev.patchCounted p lpx).handOn k pix).SameHand p (patchDone p k damaged (some (pix, lpx), t)).dev ∧
      (patchDone p k damaged (some (pix, lpx), t)).pending = t.pending ∧
      (damaged = false → (patchDone p k damaged (some (pix, lpx), t)).hbm = t.hbm) := by
  have emitted : ((t.dev.patchCounted p lpx).handOn k pix).SameHand p ((t.dev.patchCounted p lpx).emit k pix) :=
    Dev.SameHand.plFire (Dev.SameHand.checkEmit (.refl _))
  generalize hu : (t.upd fun d => d.patchCounted p lpx).upd (fun d => d.emit k pix) = u
  have udev : u.dev = (t.dev.patchCounted p lpx).emit k pix := hu ▸ rfl
  have upending : u.pending = t.pending := hu ▸ rfl
  have uhbm : u.hbm = t.hbm := hu ▸ rfl
  have heq : patchDone p k damaged (some (pix, lpx), t) =
      (if damaged then u.captureAll k pix else u).upd fun d => d.startNext d.wanted p := hu ▸ rfl
  rw [heq]
  rw [← udev] at emitted
  have start : u.SameHand p u := ⟨.refl _, rfl⟩
  have captured : u.SameHand p (if damaged then u.captureAll k pix else u) := by
    split_ifs
    · exact start.captureAll
    · exact start
  obtain ⟨last, lastPending⟩ := captured.upd (f := fun d => d.startNext d.wanted p) fun h => h.startNext
  refine ⟨emitted.trans last, lastPending.trans upending, fun h => ?_⟩
  rw [h]
  exact uhbm

/-- A patch that meets no poison is handed to the calibration unit of its quarter (R185, R318). -/
theorem patchComposed_gives {s : State} {p k : Nat} (hp : p < 256) (hwork : Tab.get? s.dev.pip.work p = some k)
    (hstate : s.dev.get (R.PIP_STATE p) = pipComposing) (hclean : s.meetsPoison k = false) :
    (Instr.patchComposed p 0).gives s fun t =>
      Tab.getD t.dev.comp.emit (quarterOf (patchSquare k / 64)) [] =
        Tab.getD s.dev.comp.emit (quarterOf (patchSquare k / 64)) [] ++ [⟨k, s.composed k⟩] ∧
      (k ∈ s.dev.push.latched → k ∈ t.dev.push.emitted) ∧
      t.dev.get (R.PIP_PATCH_CNT p) = (s.dev.get (R.PIP_PATCH_CNT p) + 1) % 2 ^ 64 ∧
      (k ∉ s.dev.push.latched → t.hbm = s.hbm) ∧ t.pending = s.pending := by
  obtain ⟨lpx, t, hcompose, ⟨⟨emit, latched, -, count⟩, pending⟩, hbm⟩ := State.compose_clean p hclean
  refine ⟨_, exec_patchComposed hp hwork hstate, ?_⟩
  rw [hcompose]
  obtain ⟨⟨emit', -, emitted', count'⟩, pending', hbm'⟩ :=
    patchDone_spec p k (decide (k ∈ s.dev.push.latched)) (s.composed k) lpx t
  obtain ⟨handed, pushed, counted⟩ := (t.dev.patchCounted p lpx).handOn_spec k (s.composed k) (R.PIP_PATCH_CNT p)
  refine ⟨?_, fun h => ?_, ?_, fun h => (hbm' (decide_eq_false h)).trans hbm, pending'.trans pending⟩
  · rw [emit', handed, ← emit]
    rfl
  · rw [emitted']
    exact pushed (latched ▸ h)
  · rw [count', counted, Dev.patchCounted_count, count]

/-- A patch that meets poison is not handed on: the pip goes on to its next entry (R250). -/
theorem patchPoisoned_gives {s : State} {p k : Nat} (hp : p < 256) (hwork : Tab.get? s.dev.pip.work p = some k)
    (hstate : s.dev.get (R.PIP_STATE p) = pipComposing) (hpoison : s.meetsPoison k = true) :
    (Instr.patchComposed p 0).gives s fun t =>
      t.dev.comp.emit = s.dev.comp.emit ∧ t.dev.push.emitted = s.dev.push.emitted ∧ t.hbm = s.hbm ∧ s.Within [4] [.pip] t := by
  refine ⟨_, exec_patchComposed hp hwork hstate, ?_⟩
  rw [State.compose_poisoned hpoison]
  obtain ⟨emit, -, emitted, -⟩ := Dev.SameHand.startNext (damaged := s.dev.wanted) (Dev.SameHand.refl (p := p) s.dev)
  refine ⟨emit, emitted, rfl, (s.dev.startNext_spec s.dev.wanted p).1.widen (fun k hk => ?_) (by decide), rfl⟩
  obtain ⟨f, hf, rfl⟩ := regsOf_eq_true.1 hk
  exact inBlocks_of_mem (by simp [workFields_block p f hf])

end Sys2Proof.Machine
end

section
open Sys2Proof Sys2Proof.Machine

/-- Settles O23: each class is dealt in slices that differ by one entry at most, every class from where the last one ended; an
attempt takes the upper half of an orphan pool or is counted in vain; and of a composed patch only the handing on itself touches
what is handed on. -/
theorem patchesAreDealtStolenAndComposed : Obligations.PatchesAreDealtStolenAndComposed := by
  unfold Obligations.PatchesAreDealtStolenAndComposed
  refine ⟨⟨fun n classes hn => buildPlan_spec classes hn, fun s q p hq hp => ⟨planRebuildDone_gives hq, fun hphase hstate =>
    ⟨stealAttempt_pool_gives hp hphase hstate, stealAttempt_none_gives hp hphase hstate⟩⟩⟩, fun s p k hp hwork hstate =>
    ⟨fun hclean => ?_, patchPoisoned_gives hp hwork hstate⟩⟩
  obtain ⟨t, hexec, handed, rest⟩ := patchComposed_gives hp hwork hstate hclean
  exact ⟨t, hexec, handed.trans (by rw [State.composed, State.blends, List.map_map]; rfl), rest⟩
end

section
/-! SUPPORT. Chains of writes: the values that the fields of a list have taken, the events told of, and that nothing else has
changed. -/

namespace Sys2Proof.Machine

set_option Elab.async false

/-! ### Bits of a map register -/

theorem putBit_lt {v i w : Nat} (b : Bool) (hv : v < 2 ^ w) (hi : i < w) : putBit v i b < 2 ^ w := by
  cases b with
  | true => exact setBit_lt v i w hv hi
  | false => exact (clrBit_le v i).trans_lt hv

/-- A map register of 32 bits keeps a bit that is put as it is. -/
theorem Dev.putBit_mod (d : Dev) {f : Fld} (i : Nat) (b : Bool) (hf : f.size = 2 ^ 32) :
    putBit (d.get f) (i % 32) b % f.size = putBit (d.get f) (i % 32) b := by
  rw [hf]
  exact Nat.mod_eq_of_lt (putBit_lt b (hf ▸ d.get_lt f) (Nat.mod_lt _ (by decide)))

/-! ### What a chain of writes leaves -/

/-- The fields that a chain of writes may have changed: the ones written, and where it tells of events those of events and the
ledger. -/
def setFrame (tells : Bool) (l : List (Fld × Nat)) (k : Nat) : Bool := (tells && noteBlock k) || regsOf (l.map Prod.fst) k

/-- A field is none of those written, and none of events and the ledger. -/
def Fld.newTo (f : Fld) (l : List (Fld × Nat)) : Prop := noteBlock f.key = false ∧ ∀ p ∈ l, p.1.key ≠ f.key

/-- From d to e the fields of l have taken the values beside them, the events of `told` are pending, and nothing else has changed
but the parts of ps and, where the chain tells of events, what is noted. -/
structure Dev.Sets (tells : Bool) (ps : List Part) (l : List (Fld × Nat)) (told : List Nat) (d e : Dev) : Prop where
  reads : ∀ p ∈ l, e.get p.1 = p.2
  plain : ∀ p ∈ l, noteBlock p.1.key = false
  pends : ∀ n ∈ told, e.pends n = true ∧ n < 1024
  only : d.Only (setFrame tells l) ps e

namespace Dev.Sets

variable {tells : Bool} {ps : List Part} {l : List (Fld × Nat)} {told : List Nat} {d e x : Dev} {f : Fld}

theorem refl (tells : Bool) (ps : List Part) (d : Dev) : d.Sets tells ps [] [] d :=
  ⟨by simp, by simp, by simp, Only.refl _ _ d⟩

/-- A field not written reads as before. -/
theorem get_new (h : d.Sets tells ps l told e) (hf : f.newTo l) : e.get f = d.get f := by
  obtain ⟨hnote, hl⟩ := hf
  refine h.only.1 f ?_
  rw [setFrame, hnote, Bool.and_false, Bool.false_or, regsOf_eq_false]
  exact fun g hg => by
    obtain ⟨p, hp, rfl⟩ := List.mem_map.1 hg
    exact hl p hp

/-- One more field written. -/
theorem put {v w : Nat} (h : d.Sets tells ps l told e) (hf : f.newTo l) (hv : v % f.size = w := by rfl) :
    d.Sets tells ps ((f, w) :: l) told (e.put f v) := by
  obtain ⟨hnote, hl⟩ := hf
  have wider : ∀ k, setFrame tells l k = true → setFrame tells ((f, w) :: l) k = true := by
    intro k hk
    simp only [setFrame, regsOf, List.map_cons, List.any_cons, Bool.or_eq_true] at hk ⊢
    tauto
  have named : setFrame tells ((f, w) :: l) f.key = true := by simp [setFrame, regsOf]
  refine ⟨List.forall_mem_cons.2 ⟨(get_put_same _ _ _).trans hv, fun p hp => ?_⟩, List.forall_mem_cons.2 ⟨hnote, h.plain⟩,
    fun n hn => ?_, Dev.Only.put (h.only.widen wider fun _ hp => hp) named⟩
  · exact (get_put_ne _ _ _ _ (hl p hp)).trans (h.reads p hp)
  · obtain ⟨pends, hlt⟩ := h.pends n hn
    obtain ⟨hev, -⟩ := noteBlock_eq_false.1 hnote
    exact ⟨Pending.put _ _ _ (by omega) n hlt pends, hlt⟩

theorem flag (h : d.Sets tells ps l told e) (hf : f.newTo l) (hv : 1 % f.size = 1 := by rfl) :
    d.Sets tells ps ((f, 1) :: l) told (e.flag f) := h.put hf hv

theorem bump {n : Nat} (h : d.Sets tells ps l told e) (hf : f.newTo l) :
    d.Sets tells ps ((f, (d.get f + n) % f.size) :: l) told (e.bump f n) := h.put hf (by rw [h.get_new hf])

theorem putMap {m : Nat → Fld} {i : Nat} {b : Bool} (h : d.Sets tells ps l told e) (hf : (m (i / 32)).newTo l)
    (hm : (m (i / 32)).size = 2 ^ 32 := by rfl) :
    d.Sets tells ps ((m (i / 32), putBit (d.get (m (i / 32))) (i % 32) b) :: l) told (e.putMap m i b) :=
  h.put hf (by rw [e.putBit_mod i b hm, h.get_new hf])

/-- A change beside the registers, of parts that the chain may change. -/
theorem parts (h : d.Sets tells ps l told e) (hr : x.regs = e.regs) (hp : ∀ p, p ∉ ps → p.same e x) : d.Sets tells ps l told x :=
  ⟨fun p hp => (get_congr hr _).trans (h.reads p hp), h.plain,
    fun n hn => ⟨(congrArg (tbit · _) (get_congr hr _)).trans (h.pends n hn).1, (h.pends n hn).2⟩, h.only.parts hr hp⟩

theorem setMem {y : MemSt} (h : d.Sets tells ps l told e) (hl : Part.mem ∈ ps := by decide) :
    d.Sets tells ps l told { e with mem := y } :=
  h.parts rfl (Dev.Only.setMem (r := fun _ => false) (Only.refl _ _ e) hl).2

/-- A chain that begins after a change beside the registers. -/
theorem after {qs : List Part} (h : x.Sets tells ps l told e) (hr : x.regs = d.regs) (hp : ∀ p, p ∉ qs → p.same d x)
    (hq : ps ⊆ qs) : d.Sets tells qs l told e :=
  ⟨h.reads, h.plain, h.pends, Sys2Proof.Only.trans (Sys2Proof.Only.parts hr hp) (h.only.widen (fun _ hk => hk) hq)⟩

/-- What is noted on the way. -/
theorem note (h : d.Sets true ps l told e) (k : e.Noted x) (pends : e.PendLe x) (hl : notes ⊆ ps := by decide) :
    d.Sets true ps l told x := by
  refine ⟨fun p hp => (k.1 _ (h.plain p hp)).trans (h.reads p hp), h.plain, fun n hn => ?_,
    h.only.note k (fun a ha => by rw [setFrame, ha]; rfl) hl⟩
  obtain ⟨pended, hlt⟩ := h.pends n hn
  exact ⟨pends n hlt pended, hlt⟩

/-- An event raised. -/
theorem raiseD {n y : Nat} (h : d.Sets true ps l told e) (hn : n < 1024) (hl : notes ⊆ ps := by decide) :
    d.Sets true ps l (n :: told) (e.raiseD n y) := by
  have kept := h.note (Noting.raiseD_any e n y) (Pending.raiseD e n y) hl
  exact ⟨kept.reads, kept.plain, List.forall_mem_cons.2 ⟨⟨Pending.raised e n y hn, hn⟩, kept.pends⟩, kept.only⟩

/-- An event raised, with its ledger entry. -/
theorem raiseLedger {n y b : Nat} (h : d.Sets true ps l told e) (hn : n < 1024) (hl : notes ⊆ ps := by decide) :
    d.Sets true ps l (n :: told) (e.raiseLedger n y b) := by
  unfold Dev.raiseLedger
  split_ifs
  · exact h.raiseD hn hl
  · exact (h.raiseD hn hl).note (Noting.ledger _ _) (Pending.ledger _ _) hl

/-- A status bit set with its event. -/
theorem flagRaise {n : Nat} (h : d.Sets true ps l told e) (hf : f.newTo l) (hn : n < 1024) (hv : 1 % f.size = 1 := by rfl)
    (hl : notes ⊆ ps := by decide) : d.Sets true ps ((f, 1) :: l) (n :: told) (e.flagRaise f n) := (h.flag hf hv).raiseD hn hl

/-! ### What a command that ends so leaves -/

theorem told_pends (h : d.Sets tells ps l told e) {n : Nat} (hn : n ∈ told) : e.pends n = true := (h.pends n hn).1

/-- The frame of a command that tells of events. -/
theorem noting {s : State} {L : List Fld} {qs : List Part} (h : s.dev.Sets true (notes ++ qs) l told e)
    (hl : l.map Prod.fst ⊆ L) : s.Noting L qs { s with dev := e } :=
  ⟨h.only.widen (orNote_mono hl) fun _ hp => hp, rfl, rfl⟩

/-- The frame of one that tells of none. -/
theorem changes {s : State} {L : List Fld} (h : s.dev.Sets false ps l told e) (hl : l.map Prod.fst ⊆ L) :
    s.Only L ps { s with dev := e } :=
  ⟨h.only.widen (fun k hk => by
    obtain ⟨f, hf, rfl⟩ := regsOf_eq_true.1 (show regsOf (l.map Prod.fst) k = true from hk)
    exact regsOf_of_mem (hl hf)) fun _ hp => hp, rfl, rfl⟩

end Dev.Sets

end Sys2Proof.Machine
end

section
/-! SUPPORT. The synthesizers (R656 to R673): where their fields lie, and what lock, the loss of reference or lock, a control word
and a write of `SYN_CTL` leave. -/

namespace Sys2Proof.Machine

set_option Elab.async false

/-! ### Where the fields lie -/

/-- Where the fields of synthesizer s are kept, those of the maps that list it, and those that its loss of lock or of range flags. -/
theorem synKeys (s : Nat) :
    (R.SYNS_LOCK_WIN s).key = 0x3C040000 + 0x2000 * (s % 85) ∧ (R.SYNS_LOCK_N s).key = 0x3C040008 + 0x2000 * (s % 85) ∧
    (R.SYNS_REF_MODE s).key = 0x3C040014 + 0x2000 * (s % 85) ∧
    (R.SYNS_HOP_LIVE s).key = 0x3C040016 + 0x2000 * (s % 85) ∧ (R.SYNS_STATE s).key = 0x3C040200 + 0x2000 * (s % 85) ∧
    (R.SYNS_GATED s).key = 0x3C040203 + 0x2000 * (s % 85) ∧ (R.SYNS_CW_8 s).key = 0x3C04020C + 0x2000 * (s % 85) ∧
    (R.SYNS_PEND s).key = 0x3C040218 + 0x2000 * (s % 85) ∧ (R.SYNS_LOCK s).key = 0x3C040400 + 0x2000 * (s % 85) ∧
    (R.SYNS_UNLOCK s).key = 0x3C040401 + 0x2000 * (s % 85) ∧ (R.SYNS_REF_LOST s).key = 0x3C040402 + 0x2000 * (s % 85) ∧
    (R.SYNS_REF_BACK s).key = 0x3C040403 + 0x2000 * (s % 85) ∧ (R.SYNS_RANGE90 s).key = 0x3C040405 + 0x2000 * (s % 85) ∧
    (R.SYNS_UNLOCK_CNT s).key = 0x3C041000 + 0x2000 * (s % 85) ∧
    (R.SYN_LOCKED_MAP (s / 32)).key = 0x3C000400 + 0x100 * (s / 32 % 3) ∧
    (R.SYN_PEND_MAP (s / 32)).key = 0x3C000800 + 0x100 * (s / 32 % 3) ∧
    (R.STK_UNLOCK (s - 73)).key = 0x14040105 + 0x4000 * ((s - 73) % 8) := by
  simp only [R.SYNS_LOCK_WIN, R.SYNS_LOCK_N, R.SYNS_REF_MODE, R.SYNS_HOP_LIVE, R.SYNS_STATE, R.SYNS_GATED, R.SYNS_CW_8, R.SYNS_PEND, R.SYNS_LOCK,
    R.SYNS_UNLOCK, R.SYNS_REF_LOST, R.SYNS_REF_BACK, R.SYNS_RANGE90, R.SYNS_UNLOCK_CNT, R.SYN_LOCKED_MAP, R.SYN_PEND_MAP,
    R.STK_UNLOCK, Fld.key]
  omega

/-! ### State, gate and map bit -/

/-- A synthesizer in this state runs its output and counts as locked (R42, R659, R661, R667). -/
def synRuns (st : Nat) : Bool := st == synLocked || st == synHopping || st == synHoldover

/-- State, gate and map bit of a synthesizer change together. -/
theorem Dev.Sets.putSyn {tells : Bool} {ps : List Part} {d e : Dev} {s st : Nat} (h : d.Sets tells ps [] [] e) (hst : st < 8) :
    d.Sets tells ps [(R.SYN_LOCKED_MAP (s / 32), putBit (d.get (R.SYN_LOCKED_MAP (s / 32))) (s % 32) (synRuns st)),
      (R.SYNS_GATED s, if synRuns st then 0 else 1), (R.SYNS_STATE s, st)] [] (e.putSyn s st) := by
  have state := h.put (f := R.SYNS_STATE s) (v := st) (by simp [Fld.newTo, noteBlock, synKeys]; omega) (Nat.mod_eq_of_lt hst)
  have gated := state.put (f := R.SYNS_GATED s) (v := if synRuns st then 0 else 1) (w := if synRuns st then 0 else 1)
    (by simp [Fld.newTo, noteBlock, synKeys]; omega) (by split_ifs <;> rfl)
  exact gated.putMap (m := R.SYN_LOCKED_MAP) (i := s) (b := synRuns st) (by simp [Fld.newTo, noteBlock, synKeys]; omega)

/-! ### LOCK -/

/-- Lock leaves a synthesizer alone that is OFF or LOCKED. -/
theorem lock_stays {s : State} {syn : Nat} (hsyn : syn < 85)
    (hstate : s.dev.get (R.SYNS_STATE syn) = 0 ∨ s.dev.get (R.SYNS_STATE syn) = 3) : exec (.lock syn) s = .next s := by
  show execLock syn s = _
  simp [execLock, onUnit, hsyn, State.upd, Dev.synState, synOff, synLocked, hstate]

/-- Lock is declared (R658, R667); out of HOLDOVER the reference is back. -/
def Dev.synLocks (d : Dev) (s : Nat) : Dev :=
  if d.get (R.SYNS_STATE s) = 5 then ((d.putSyn s synLocked).synFlag s (R.SYNS_LOCK s)).synFlag s (R.SYNS_REF_BACK s)
  else (d.putSyn s synLocked).synFlag s (R.SYNS_LOCK s)

theorem exec_lock {s : State} {syn : Nat} (hsyn : syn < 85) (hoff : s.dev.get (R.SYNS_STATE syn) ≠ 0)
    (hlocked : s.dev.get (R.SYNS_STATE syn) ≠ 3) : exec (.lock syn) s = .next { s with dev := s.dev.synLocks syn } := by
  show execLock syn s = _
  simp [execLock, onUnit, hsyn, State.upd, Dev.synState, synOff, synLocked, synHoldover, hoff, hlocked]
  rfl

theorem lock_gives {s : State} {syn : Nat} (hsyn : syn < 85) (hoff : s.dev.get (R.SYNS_STATE syn) ≠ 0)
    (hlocked : s.dev.get (R.SYNS_STATE syn) ≠ 3) :
    (Instr.lock syn).gives s fun t =>
      t.dev.get (R.SYNS_STATE syn) = 3 ∧ t.dev.get (R.SYNS_GATED syn) = 0 ∧
      t.dev.get (R.SYN_LOCKED_MAP (syn / 32)) = setBit (s.dev.get (R.SYN_LOCKED_MAP (syn / 32))) (syn % 32) ∧
      t.dev.get (R.SYNS_LOCK syn) = 1 ∧ t.dev.pends (848 + syn) = true ∧
      t.dev.get (R.SYNS_REF_BACK syn) = (if s.dev.get (R.SYNS_STATE syn) = 5 then 1 else s.dev.get (R.SYNS_REF_BACK syn)) ∧
      s.Noting [R.SYNS_STATE syn, R.SYNS_GATED syn, R.SYN_LOCKED_MAP (syn / 32), R.SYNS_LOCK syn, R.SYNS_REF_BACK syn] [] t := by
  have up := (Dev.Sets.refl true notes s.dev).putSyn (s := syn) (st := synLocked) (by decide)
  have locked := up.flagRaise (f := R.SYNS_LOCK syn) (n := 848 + syn) (by simp [Fld.newTo, noteBlock, synKeys]; omega) (by omega)
  refine ⟨_, exec_lock hsyn hoff hlocked, ?_⟩
  unfold Dev.synLocks
  split_ifs with hback
  all_goals dsimp only
  · have back := locked.flagRaise (f := R.SYNS_REF_BACK syn) (n := 848 + syn)
      (by simp [Fld.newTo, noteBlock, synKeys]; omega) (by omega)
    have reads := back.reads
    simp only [List.forall_mem_cons] at reads
    obtain ⟨refBack, lock, map, gated, state, -⟩ := reads
    exact ⟨state, gated, map, lock, back.told_pends (by simp), refBack, back.noting (qs := []) (by simp)⟩
  · have reads := locked.reads
    simp only [List.forall_mem_cons] at reads
    obtain ⟨lock, map, gated, state, -⟩ := reads
    exact ⟨state, gated, map, lock, locked.told_pends (by simp),
      locked.get_new (by simp [Fld.newTo, noteBlock, synKeys]; omega), locked.noting (qs := []) (by simp)⟩

/-! ### The loss of the reference or of lock -/

/-- A hop under way of synthesizer s ends. -/
def Dev.hopEnds (d : Dev) (s : Nat) : Dev := { d with time := { d.time with hops := Tab.erase d.time.hops s } }

theorem Dev.hopEnds_same (d : Dev) (s : Nat) {p : Part} (hp : p ∉ [Part.events, .ledger, .out, .time]) : p.same d (d.hopEnds s) := by
  cases p with
  | time => simp at hp
  | _ => rfl

/-- What follows the end of a hop, by what the whole command changes. -/
theorem Dev.Sets.afterHop {l : List (Fld × Nat)} {told : List Nat} {d e : Dev} {s : Nat}
    (h : (d.hopEnds s).Sets true notes l told e) : d.Sets true (notes ++ [.time]) l told e :=
  h.after rfl (fun _ => d.hopEnds_same s) (by decide)

theorem exec_refLost {s : State} {syn : Nat} (hsyn : syn < 85) (hstate : s.dev.get (R.SYNS_STATE syn) ∈ [2, 3, 4]) :
    exec (.refLost syn) s = .next { s with
      dev := ((s.dev.hopEnds syn).putSyn syn synHoldover).synFlag syn (R.SYNS_REF_LOST syn) } := by
  have runs : s.dev.get (R.SYNS_STATE syn) = 3 ∨ s.dev.get (R.SYNS_STATE syn) = 4 ∨ s.dev.get (R.SYNS_STATE syn) = 2 := by
    simp only [List.mem_cons, List.not_mem_nil, or_false] at hstate
    tauto
  show execRefLost syn s = _
  simp [execRefLost, onUnit, hsyn, State.upd, Dev.synState, synLocked, synHopping, synLocking, runs]
  rfl

/-- A synthesizer that loses its reference holds over (R659). -/
theorem refLost_gives {s : State} {syn : Nat} (hsyn : syn < 85) (hstate : s.dev.get (R.SYNS_STATE syn) ∈ [2, 3, 4]) :
    (Instr.refLost syn).gives s fun t =>
      t.dev.get (R.SYNS_STATE syn) = 5 ∧ t.dev.get (R.SYNS_GATED syn) = 0 ∧
      t.dev.get (R.SYN_LOCKED_MAP (syn / 32)) = setBit (s.dev.get (R.SYN_LOCKED_MAP (syn / 32))) (syn % 32) ∧
      t.dev.get (R.SYNS_REF_LOST syn) = 1 ∧ t.dev.pends (848 + syn) = true ∧
      t.dev.time = { s.dev.time with hops := Tab.erase s.dev.time.hops syn } ∧
      s.Noting [R.SYNS_STATE syn, R.SYNS_GATED syn, R.SYN_LOCKED_MAP (syn / 32), R.SYNS_REF_LOST syn] [.time] t := by
  have held := (Dev.Sets.refl true notes (s.dev.hopEnds syn)).putSyn (s := syn) (st := synHoldover) (by decide)
  have lost := held.flagRaise (f := R.SYNS_REF_LOST syn) (n := 848 + syn) (by simp [Fld.newTo, noteBlock, synKeys]; omega) (by omega)
  have reads := lost.reads
  simp only [List.forall_mem_cons] at reads
  obtain ⟨refLost, map, gated, state, -⟩ := reads
  exact ⟨_, exec_refLost hsyn hstate, state, gated, map, refLost, lost.told_pends (by simp), lost.only.2 .time (by decide),
    lost.afterHop.noting (by simp)⟩

/-- A synthesizer that loses lock is gated, counted and recorded (R659, R660). -/
def Dev.synUnlocks (d : Dev) (s : Nat) : Dev :=
  (((d.hopEnds s).putSyn s synUnlocked).bump (R.SYNS_UNLOCK_CNT s) 1).synFlagLedger s (R.SYNS_UNLOCK s)

/-- The stack that synthesizers 73 to 80 serve is flagged with them (R243). -/
def Dev.unlocks (d : Dev) (s : Nat) : Dev :=
  if 73 ≤ s ∧ s ≤ 80 then (d.synUnlocks s).flagRaise (R.STK_UNLOCK (s - 73)) (384 + (s - 73)) else d.synUnlocks s

theorem exec_unlock {s : State} {syn : Nat} (hsyn : syn < 85) (hstate : s.dev.get (R.SYNS_STATE syn) ∈ [3, 4]) :
    exec (.unlock syn) s = .next { s with dev := s.dev.unlocks syn } := by
  have runs : s.dev.get (R.SYNS_STATE syn) = 3 ∨ s.dev.get (R.SYNS_STATE syn) = 4 := by simpa using hstate
  show execUnlock syn s = _
  simp only [execUnlock, onUnit, hsyn, State.upd, Dev.synState, synLocked, synHopping, runs, decide_true, if_true]
  rfl

/-- What the loss of lock leaves of the synthesizer itself. -/
theorem Dev.synUnlocks_sets (d : Dev) {s : Nat} (hs : s < 85) :
    (d.hopEnds s).Sets true notes
      [(R.SYNS_UNLOCK s, 1), (R.SYNS_UNLOCK_CNT s, (d.get (R.SYNS_UNLOCK_CNT s) + 1) % 2 ^ 64),
        (R.SYN_LOCKED_MAP (s / 32), putBit (d.get (R.SYN_LOCKED_MAP (s / 32))) (s % 32) false), (R.SYNS_GATED s, 1), (R.SYNS_STATE s, 6)]
      [848 + s] (d.synUnlocks s) := by
  have gated := (Dev.Sets.refl true notes (d.hopEnds s)).putSyn (s := s) (st := synUnlocked) (by decide)
  have counted := gated.bump (f := R.SYNS_UNLOCK_CNT s) (n := 1) (by simp [Fld.newTo, noteBlock, synKeys]; omega)
  have flagged := counted.flag (f := R.SYNS_UNLOCK s) (by simp [Fld.newTo, noteBlock, synKeys]; omega)
  exact flagged.raiseLedger (by omega)

theorem unlock_gives {s : State} {syn : Nat} (hsyn : syn < 85) (hstate : s.dev.get (R.SYNS_STATE syn) ∈ [3, 4]) :
    (Instr.unlock syn).gives s fun t =>
      t.dev.get (R.SYNS_STATE syn) = 6 ∧ t.dev.get (R.SYNS_GATED syn) = 1 ∧
      t.dev.get (R.SYN_LOCKED_MAP (syn / 32)) = putBit (s.dev.get (R.SYN_LOCKED_MAP (syn / 32))) (syn % 32) false ∧
      t.dev.get (R.SYNS_UNLOCK syn) = 1 ∧ t.dev.pends (848 + syn) = true ∧
      t.dev.get (R.SYNS_UNLOCK_CNT syn) = (s.dev.get (R.SYNS_UNLOCK_CNT syn) + 1) % 2 ^ 64 ∧
      (∀ k, syn = 73 + k → k < 8 → t.dev.get (R.STK_UNLOCK k) = 1 ∧ t.dev.pends (384 + k) = true) ∧
      t.dev.time = { s.dev.time with hops := Tab.erase s.dev.time.hops syn } ∧
      s.Noting ([R.SYNS_STATE syn, R.SYNS_GATED syn, R.SYN_LOCKED_MAP (syn / 32), R.SYNS_UNLOCK syn, R.SYNS_UNLOCK_CNT syn] ++
        (if 73 ≤ syn ∧ syn ≤ 80 then [R.STK_UNLOCK (syn - 73)] else [])) [.time] t := by
  have unlocked := s.dev.synUnlocks_sets hsyn
  refine ⟨_, exec_unlock hsyn hstate, ?_⟩
  unfold Dev.unlocks
  split_ifs with hstack
  all_goals dsimp only
  · have told := unlocked.flagRaise (f := R.STK_UNLOCK (syn - 73)) (n := 384 + (syn - 73))
      (by simp [Fld.newTo, noteBlock, synKeys]; omega) (by omega)
    have reads := told.reads
    simp only [List.forall_mem_cons] at reads
    obtain ⟨stack, unlock, count, map, gated, state, -⟩ := reads
    refine ⟨state, gated, map, unlock, told.told_pends (by simp), count, fun k hk _ => ?_, told.only.2 .time (by decide),
      told.afterHop.noting (by simp)⟩
    obtain rfl : k = syn - 73 := by omega
    exact ⟨stack, told.told_pends (by simp)⟩
  · have reads := unlocked.reads
    simp only [List.forall_mem_cons] at reads
    obtain ⟨unlock, count, map, gated, state, -⟩ := reads
    exact ⟨state, gated, map, unlock, unlocked.told_pends (by simp), count, fun k hk hlt => absurd ⟨by omega, by omega⟩ hstack,
      unlocked.only.2 .time (by decide), unlocked.afterHop.noting (by simp)⟩

/-! ### The control word -/

theorem range90_inside_gives {s : State} {syn cw : Nat} (hsyn : syn < 85) (hcw : cw < 4096) (hstate : s.dev.get (R.SYNS_STATE syn) = 3)
    (hlo : 205 ≤ cw) (hhi : cw ≤ 3890) :
    (Instr.range90 syn cw).gives s fun t => t.dev.get (R.SYNS_CW_8 syn) = cw ∧ s.Only [R.SYNS_CW_8 syn] [] t := by
  have heq : exec (.range90 syn cw) s = .next { s with dev := s.dev.put (R.SYNS_CW_8 syn) cw } := by
    show execRange90 syn cw s = _
    simp [execRange90, onUnit, hsyn, State.upd, Dev.synState, synLocked, hstate, hlo, hhi]
  exact ⟨_, heq, (Dev.get_put_same _ _ _).trans (Nat.mod_eq_of_lt (b := 2 ^ 12) hcw),
    Only.put _ _ _ (regsOf_of_mem (List.mem_singleton_self _)), rfl, rfl⟩

/-- A control word outside 205 to 3,890 is put and flagged, with its ledger entry (R665, R673). -/
def Dev.rangeFlagged (d : Dev) (s cw : Nat) : Dev := (d.put (R.SYNS_CW_8 s) cw).synFlagLedger s (R.SYNS_RANGE90 s)

/-- Then a reband is marked, or the time base is told of it for synthesizer 0. -/
def Dev.leavesRange (d : Dev) (s cw : Nat) : Dev :=
  if s = 0 then ((d.rangeFlagged s cw).flag R.TB_RANGE90).raiseLedger 829 (2 ^ 8) 14 else (d.rangeFlagged s cw).putRebandPend s true

theorem exec_range90_outside {s : State} {syn cw : Nat} (hsyn : syn < 85) (hstate : s.dev.get (R.SYNS_STATE syn) = 3)
    (hout : cw < 205 ∨ 3890 < cw) :
    exec (.range90 syn cw) s = .next { s with dev := s.dev.leavesRange syn cw } := by
  have outside : ¬(205 ≤ cw ∧ cw ≤ 3890) := by omega
  show execRange90 syn cw s = _
  simp only [execRange90, onUnit, hsyn, State.upd, Dev.synState, synLocked, hstate, if_neg outside, decide_true, if_true, ne_eq,
    not_true_eq_false, if_false]
  rfl

theorem Dev.rangeFlagged_sets (d : Dev) {s cw : Nat} (hs : s < 85) (hcw : cw < 4096) :
    d.Sets true notes [(R.SYNS_RANGE90 s, 1), (R.SYNS_CW_8 s, cw)] [848 + s] (d.rangeFlagged s cw) := by
  have moved := (Dev.Sets.refl true notes d).put (f := R.SYNS_CW_8 s) (v := cw) (by simp [Fld.newTo, noteBlock, synKeys]; omega)
    (Nat.mod_eq_of_lt hcw)
  have flagged := moved.flag (f := R.SYNS_RANGE90 s) (by simp [Fld.newTo, noteBlock, synKeys]; omega)
  exact flagged.raiseLedger (by omega)

/-- Another synthesizer than 0 is marked for a reband (R665). -/
theorem range90_outside_gives {s : State} {syn cw : Nat} (hsyn : syn < 85) (hcw : cw < 4096)
    (hstate : s.dev.get (R.SYNS_STATE syn) = 3) (hout : cw < 205 ∨ 3890 < cw) (hpos : syn ≠ 0) :
    (Instr.range90 syn cw).gives s fun t =>
      t.dev.get (R.SYNS_CW_8 syn) = cw ∧ t.dev.get (R.SYNS_RANGE90 syn) = 1 ∧ t.dev.get (R.SYNS_PEND syn) = 1 ∧
      t.dev.get (R.SYN_PEND_MAP (syn / 32)) = setBit (s.dev.get (R.SYN_PEND_MAP (syn / 32))) (syn % 32) ∧
      t.dev.pends (848 + syn) = true ∧
      s.Noting [R.SYNS_CW_8 syn, R.SYNS_RANGE90 syn, R.SYNS_PEND syn, R.SYN_PEND_MAP (syn / 32)] [] t := by
  have marked := ((s.dev.rangeFlagged_sets hsyn hcw).put (f := R.SYNS_PEND syn) (v := 1)
    (by simp [Fld.newTo, noteBlock, synKeys]; omega)).putMap (m := R.SYN_PEND_MAP) (i := syn) (b := true)
    (by simp [Fld.newTo, noteBlock, synKeys]; omega)
  have heq := exec_range90_outside hsyn hstate hout
  rw [Dev.leavesRange, if_neg hpos] at heq
  have reads := marked.reads
  simp only [List.forall_mem_cons] at reads
  obtain ⟨map, pend, range, word, -⟩ := reads
  exact ⟨_, heq, word, range, pend, map, marked.told_pends (by simp), marked.noting (qs := []) (by simp)⟩

/-- The range of synthesizer 0 is that of the time base (R666). -/
theorem range90_outside_zero_gives {s : State} {cw : Nat} (hcw : cw < 4096) (hstate : s.dev.get (R.SYNS_STATE 0) = 3)
    (hout : cw < 205 ∨ 3890 < cw) :
    (Instr.range90 0 cw).gives s fun t =>
      t.dev.get (R.SYNS_CW_8 0) = cw ∧ t.dev.get (R.SYNS_RANGE90 0) = 1 ∧ t.dev.get R.TB_RANGE90 = 1 ∧
      t.dev.pends 848 = true ∧ t.dev.pends 829 = true ∧
      s.Noting [R.SYNS_CW_8 0, R.SYNS_RANGE90 0, R.TB_RANGE90] [] t := by
  have base : R.TB_RANGE90.key = 0x38000308 := rfl
  have told := ((s.dev.rangeFlagged_sets (s := 0) (by decide) hcw).flag (f := R.TB_RANGE90)
    (by simp [Fld.newTo, noteBlock, synKeys, base])).raiseLedger (n := 829) (y := 2 ^ 8) (b := 14) (by decide)
  have reads := told.reads
  simp only [List.forall_mem_cons] at reads
  obtain ⟨timeBase, range, word, -⟩ := reads
  exact ⟨_, exec_range90_outside (by decide) hstate hout, word, range, timeBase, told.told_pends (by simp), told.told_pends (by simp),
    told.noting (qs := []) (by simp)⟩

/-! ### Writes of `SYN_CTL` -/

/-- The address of `SYN_CTL` of synthesizer s. -/
def synCtlAddr (s : Nat) : Nat := 0xF01000 + 0x80 * s

theorem synCtlAddr_block {s : Nat} (hs : s < 85) : synCtlAddr s / 0x100000 = 15 := by
  unfold synCtlAddr
  omega

/-- A write of `SYN_CTL` whose values are in range (R658, R663). -/
def ctlFits (s v : Nat) : Prop :=
  5 ≤ bits v 6 0 ∧ bits v 6 0 ≤ 100 ∧ 16 ≤ bits v 19 8 ∧ bits v 21 20 ≤ 2 ∧ lockNFits s (bits v 21 20) (bits v 19 8) = true

/-- The lock window, LOCK_N and the hop mode as such a write gives them. -/
def Dev.ctlPut (d : Dev) (s v : Nat) : Dev :=
  ((d.put (R.SYNS_LOCK_WIN s) (bits v 6 0)).put (R.SYNS_LOCK_N s) (bits v 19 8)).put (R.SYNS_HOP_LIVE s) (bit v 22)

theorem Dev.ctlPut_sets (d : Dev) (ps : List Part) (s v : Nat) :
    d.Sets false ps [(R.SYNS_HOP_LIVE s, bit v 22), (R.SYNS_LOCK_N s, bits v 19 8), (R.SYNS_LOCK_WIN s, bits v 6 0)] []
      (d.ctlPut s v) := by
  have window := (Dev.Sets.refl false ps d).put (f := R.SYNS_LOCK_WIN s) (v := bits v 6 0)
    (by simp [Fld.newTo, noteBlock, synKeys]; omega) (Nat.mod_mod _ _)
  have number := window.put (f := R.SYNS_LOCK_N s) (v := bits v 19 8) (by simp [Fld.newTo, noteBlock, synKeys]; omega) (Nat.mod_mod _ _)
  exact number.put (f := R.SYNS_HOP_LIVE s) (v := bit v 22) (by simp [Fld.newTo, noteBlock, synKeys]; omega) (Nat.mod_mod _ _)

/-- The reference mode of a synthesizer is none of these. -/
theorem Dev.ctlPut_refMode (d : Dev) (s v : Nat) : (d.ctlPut s v).refModeOf s = d.refModeOf s := by
  have mode := (d.ctlPut_sets [] s v).get_new (f := R.SYNS_REF_MODE s) (by simp [Fld.newTo, noteBlock, synKeys]; omega)
  rw [refModeOf, mode]
  rfl

/-- Another reference mode waits for a quiet interval (R664, R670). -/
def Dev.ctlTaken (d : Dev) (s v : Nat) : Dev :=
  { d.ctlPut s v with time := if bits v 21 20 = d.refModeOf s then d.time else
    { d.time with refModePend := Tab.set d.time.refModePend s (bits v 21 20) } }

/-- What a write of `SYN_CTL` of a synthesizer that is not the time base's does. -/
theorem Dev.synCtl_cases (d : Dev) {s : Nat} (hs : 1 ≤ s) (v : Nat) :
    (d.get R.SYN_LOCK = 1 → d.synCtl 0 s v = d.lockViol 0 (synCtlAddr s) v) ∧
    (d.get R.SYN_LOCK = 0 → ¬ctlFits s v → d.synCtl 0 s v = d.wrange (synCtlAddr s)) ∧
    (d.get R.SYN_LOCK = 0 → ctlFits s v → d.synCtl 0 s v = d.ctlTaken s v) := by
  have outside : (bits v 6 0 < 5 ∨ 100 < bits v 6 0 ∨ bits v 19 8 < 16 ∨ 2 < bits v 21 20 ∨
      (!lockNFits s (bits v 21 20) (bits v 19 8)) = true) ↔ ¬ctlFits s v := by
    simp only [ctlFits, not_and_or, not_le, Bool.not_eq_true', Bool.not_eq_true]
  have pos : s ≠ 0 := by omega
  refine ⟨fun hlock => ?_, fun hlock hfits => ?_, fun hlock hfits => ?_⟩
  · simp only [synCtl, Dev.on, hlock, beq_self_eq_true, if_true]
    rfl
  · have open_ : d.on R.SYN_LOCK = false := by simp [Dev.on, hlock]
    simp only [synCtl, open_, Bool.false_eq_true, if_false, if_pos (outside.2 hfits)]
    rfl
  · have open_ : d.on R.SYN_LOCK = false := by simp [Dev.on, hlock]
    have taken : d.synCtl 0 s v = if bits v 21 20 = (d.ctlPut s v).refModeOf s then d.ctlPut s v else
        { d.ctlPut s v with time := { d.time with refModePend := Tab.set d.time.refModePend s (bits v 21 20) } } := by
      simp only [synCtl, open_, Bool.false_eq_true, if_false, if_neg (fun h => outside.1 h hfits), pos, false_and]
      rfl
    rw [taken, ctlPut_refMode, ctlTaken]
    split_ifs <;> rfl

theorem exec_refModeWrite {s : State} {syn : Nat} (hsyn : syn < 85) (value : BitVec 32) :
    exec (.refModeWrite syn value) s = .next { s with dev := s.dev.synCtl 0 syn value.toNat } := by
  show execRefModeWrite syn value s = _
  simp [execRefModeWrite, onUnit, hsyn, State.upd]

theorem ctlTaken_gives {s : State} {syn : Nat} {value : BitVec 32} (hpos : 1 ≤ syn) (hsyn : syn < 85)
    (hlock : s.dev.get R.SYN_LOCK = 0) (hfits : ctlFits syn value.toNat) :
    (Instr.refModeWrite syn value).gives s fun t =>
      t.dev.get (R.SYNS_LOCK_WIN syn) = bits value.toNat 6 0 ∧ t.dev.get (R.SYNS_LOCK_N syn) = bits value.toNat 19 8 ∧
      t.dev.get (R.SYNS_HOP_LIVE syn) = bit value.toNat 22 ∧
      t.dev.time = (if bits value.toNat 21 20 = s.dev.refModeOf syn then s.dev.time else
        { s.dev.time with refModePend := Tab.set s.dev.time.refModePend syn (bits value.toNat 21 20) }) ∧
      s.Only [R.SYNS_LOCK_WIN syn, R.SYNS_LOCK_N syn, R.SYNS_HOP_LIVE syn] [.time] t := by
  have heq : exec (.refModeWrite syn value) s = .next { s with dev := s.dev.ctlTaken syn value.toNat } := by
    rw [exec_refModeWrite hsyn, (s.dev.synCtl_cases hpos _).2.2 hlock hfits]
  have taken : s.dev.Sets false [.time] _ [] (s.dev.ctlTaken syn value.toNat) :=
    (s.dev.ctlPut_sets [.time] syn value.toNat).parts rfl fun p hp => by
      cases p with
      | time => simp at hp
      | _ => rfl
  have reads := taken.reads
  simp only [List.forall_mem_cons] at reads
  obtain ⟨live, number, window, -⟩ := reads
  exact ⟨_, heq, window, number, live, rfl, taken.changes (by simp)⟩

/-- A write out of range is discarded and flagged (R733). -/
theorem ctlRange_gives {s : State} {syn : Nat} {value : BitVec 32} (hpos : 1 ≤ syn) (hsyn : syn < 85)
    (hlock : s.dev.get R.SYN_LOCK = 0) (hfits : ¬ctlFits syn value.toNat) :
    (Instr.refModeWrite syn value).gives s fun t =>
      t.dev.get R.SYN_WRANGE = 1 ∧ t.dev.pends 830 = true ∧ s.Noting [R.SYN_WRANGE] [] t := by
  have heq : exec (.refModeWrite syn value) s = .next { s with dev := s.dev.flagRaise R.SYN_WRANGE 830 } := by
    rw [exec_refModeWrite hsyn, (s.dev.synCtl_cases hpos _).2.1 hlock hfits]
    have elsewhere : ¬(0x210000 ≤ synCtlAddr syn ∧ synCtlAddr syn < 0x218000) := by unfold synCtlAddr; omega
    simp only [Dev.wrange, wrangeFld, wrangeEvent, synCtlAddr_block hsyn, if_neg elsewhere]
    rfl
  exact ⟨_, heq, Dev.get_flagRaise_same _ _ _ (by decide) (by decide), Dev.pends_flagRaise _ _ (by decide),
    s.dev.flagRaise_only _ _, rfl, rfl⟩

/-- What a lock violation records, before it is told of (R733, R745). -/
def Dev.violated (d : Dev) (f : Fld) (req a value : Nat) : Dev :=
  let e := ((d.flag f).bump R.GLB_LOCKVIOL_CNT 1).lastReg req a value 1
  let b := a / 0x100000
  { e with ev := { e.ev with viol := Tab.set e.ev.viol b (Tab.getD e.ev.viol b 0 + 1) } }

/-- Then the first one of a block in a turn is told of. -/
theorem Dev.lockViol_cases {d : Dev} {f : Fld} {req a value : Nat} (hf : (statusFlds a).1 = some f) :
    d.lockViol req a value = d.violated f req a value ∨
      ∃ n r, d.lockViol req a value = ((d.violated f req a value).raiseOnceD n (regLoc req a)).ledger r := by
  unfold lockViol
  rw [hf]
  dsimp only [flag?]
  split_ifs
  · exact .inr ⟨_, _, rfl⟩
  · exact .inl rfl

/-- The values that a lock violation records. -/
def Dev.violationValues (d : Dev) (f : Fld) (req a value : Nat) : List (Fld × Nat) :=
  [(R.GLB_LAST_REG_KIND, 1), (R.GLB_LAST_REG_VAL, value % 2 ^ 32), (R.GLB_REQ, req % 2 ^ 6), (R.GLB_BLOCK_18, a / 0x100000 % 2 ^ 5),
    (R.GLB_OFFSET, a % 2 ^ 20), (R.GLB_LOCKVIOL_CNT, (d.get R.GLB_LOCKVIOL_CNT + 1) % 2 ^ 64), (f, 1)]

/-- A lock violation flags its block, counts and keeps the write, and changes nothing else (R733). -/
theorem Dev.lockViol_sets {d : Dev} {f : Fld} {a : Nat} (hf : (statusFlds a).1 = some f) (hone : 1 % f.size = 1)
    (hblock : f.key / 0x4000000 ≠ 0) (hplain : noteBlock f.key = false) (req value : Nat) :
    d.Sets true (notes ++ [.evCfg]) (d.violationValues f req a value) [] (d.lockViol req a value) := by
  have apart {g : Fld} (hg : g.key / 0x4000000 = 0) : f.key ≠ g.key := fun he => hblock (he ▸ hg)
  have flagged := (Dev.Sets.refl true (notes ++ [.evCfg]) d).flag (f := f) ⟨hplain, by simp⟩ hone
  have counted := flagged.bump (f := R.GLB_LOCKVIOL_CNT) (n := 1) ⟨by decide, by simpa using apart (by decide)⟩
  have offset := counted.put (f := R.GLB_OFFSET) (v := a) ⟨by decide, by simpa using ⟨by decide, apart (by decide)⟩⟩
  have block := offset.put (f := R.GLB_BLOCK_18) (v := a / 0x100000) ⟨by decide, by simpa using ⟨by decide, by decide, apart (by decide)⟩⟩
  have requester := block.put (f := R.GLB_REQ) (v := req) ⟨by decide, by simpa using ⟨by decide, by decide, by decide, apart (by decide)⟩⟩
  have kept := requester.put (f := R.GLB_LAST_REG_VAL) (v := value)
    ⟨by decide, by simpa using ⟨by decide, by decide, by decide, by decide, apart (by decide)⟩⟩
  have kind := kept.put (f := R.GLB_LAST_REG_KIND) (v := 1)
    ⟨by decide, by simpa using ⟨by decide, by decide, by decide, by decide, by decide, apart (by decide)⟩⟩
  have violated : d.Sets true (notes ++ [.evCfg]) (d.violationValues f req a value) [] (d.violated f req a value) := kind.parts rfl fun p hp => by
    cases p with
    | evCfg => simp at hp
    | events => simp [notes] at hp
    | _ => rfl
  rcases Dev.lockViol_cases hf with heq | ⟨n, r, heq⟩
  · exact heq ▸ violated
  · rw [heq]
    exact (violated.note (Noting.raiseOnceD_any _ _ _) (Pending.raiseOnceD _ _ _)).note (Noting.ledger _ _) (Pending.ledger _ _)

theorem ctlLocked_gives {s : State} {syn : Nat} {value : BitVec 32} (hpos : 1 ≤ syn) (hsyn : syn < 85)
    (hlock : s.dev.get R.SYN_LOCK = 1) :
    (Instr.refModeWrite syn value).gives s fun t =>
      t.dev.get R.SYN_LOCKVIOL = 1 ∧ t.dev.get R.GLB_LAST_REG_KIND = 1 ∧ t.dev.get R.GLB_LAST_REG_VAL = value.toNat ∧
      t.dev.get R.GLB_LOCKVIOL_CNT = (s.dev.get R.GLB_LOCKVIOL_CNT + 1) % R.GLB_LOCKVIOL_CNT.size ∧
      s.Noting ([R.SYN_LOCKVIOL] ++ violationFields) [.evCfg] t := by
  have hfield : (statusFlds (synCtlAddr syn)).1 = some R.SYN_LOCKVIOL := by simp only [statusFlds, synCtlAddr_block hsyn]
  have violated := s.dev.lockViol_sets hfield rfl (by decide) (by decide) 0 value.toNat
  have reads := violated.reads
  simp only [Dev.violationValues, List.forall_mem_cons] at reads
  obtain ⟨kind, kept, -, -, -, count, flagged, -⟩ := reads
  have heq : exec (.refModeWrite syn value) s = .next { s with dev := s.dev.lockViol 0 (synCtlAddr syn) value.toNat } := by
    rw [exec_refModeWrite hsyn, (s.dev.synCtl_cases hpos _).1 hlock]
  exact ⟨_, heq, flagged, kind, kept.trans (Nat.mod_eq_of_lt value.isLt), count,
    violated.noting (by simp [Dev.violationValues, violationFields])⟩

end Sys2Proof.Machine
end

section
open Sys2Proof Sys2Proof.Machine

/-- Settles O1: each command is a chain of writes to fields that lie apart, so that every field reads what was last put, and a write
of `SYN_CTL` is one of three: refused by the lock, refused by range, or taken. -/
theorem synthesizersLockHoldAndFollowTheirControl : Obligations.SynthesizersLockHoldAndFollowTheirControl := by
  unfold Obligations.SynthesizersLockHoldAndFollowTheirControl
  refine ⟨fun s syn hsyn => ⟨lock_gives hsyn, lock_stays hsyn⟩, fun s syn hsyn => ⟨refLost_gives hsyn, unlock_gives hsyn⟩,
    fun s syn cw hsyn hcw hstate => ⟨range90_inside_gives hsyn hcw hstate, range90_outside_gives hsyn hcw hstate, ?_⟩,
    fun s syn value hpos hsyn => ⟨ctlTaken_gives hpos hsyn, ctlRange_gives hpos hsyn, ctlLocked_gives hpos hsyn⟩⟩
  rintro hout rfl
  exact range90_outside_zero_gives hcw hstate hout
end

section
/-! SUPPORT. Which blocks of registers a device-level fault may touch (R706, R848, R852). -/

namespace Sys2Proof.Machine

set_option Elab.async false

/-- The blocks that a device-level fault touches: events, queues, admission, the fabric, push and present, the snake ports, the
blitter, power, the mailbox and the store. -/
def faultBlocks : List Nat := [1, 2, 3, 4, 8, 9, 12, 16, 17, 18]

/-- From d to e no field of another block has changed. -/
def Dev.KeptByFault (d e : Dev) : Prop := ∀ f : Fld, f.key / 0x4000000 ∉ faultBlocks → e.get f = d.get f

namespace Dev.KeptByFault

variable {d e x : Dev}

theorem refl (d : Dev) : d.KeptByFault d := fun _ _ => rfl

theorem put {f : Fld} {v : Nat} (h : d.KeptByFault e) (hf : f.key / 0x4000000 ∈ faultBlocks) : d.KeptByFault (e.put f v) :=
  fun g hg => (get_put_ne _ _ _ _ fun he => hg (by rw [he]; exact hf)).trans (h g hg)

theorem noted (h : d.KeptByFault e) (k : e.Noted x) : d.KeptByFault x := fun f hf => by
  have told : noteBlock f.key = false := noteBlock_eq_false.2 (by simp only [faultBlocks, List.mem_cons] at hf; omega)
  exact (k.1 f told).trans (h f hf)

theorem raiseD {n y : Nat} (h : d.KeptByFault e) : d.KeptByFault (e.raiseD n y) := h.noted (Noting.raiseD_any _ _ _)

theorem ledger {r : LedReq} (h : d.KeptByFault e) : d.KeptByFault (e.ledger r) := h.noted (Noting.ledger _ _)

/-- A change beside the registers. -/
theorem same (h : d.KeptByFault e) (hr : x.regs = e.regs := by rfl) : d.KeptByFault x :=
  fun f hf => (get_congr hr f).trans (h f hf)

theorem ite {p : Prop} {_ : Decidable p} {y : Dev} (h : d.KeptByFault x) (k : d.KeptByFault y) :
    d.KeptByFault (if p then x else y) := by
  split_ifs <;> assumption

theorem when {p : Prop} {_ : Decidable p} (h : d.KeptByFault e) (hx : d.KeptByFault e → d.KeptByFault x) :
    d.KeptByFault (if p then x else e) := ite (hx h) h

theorem foldl {α : Type} {f : Dev → α → Dev} (h : d.KeptByFault e)
    (hf : ∀ (e : Dev) (a : α), d.KeptByFault e → d.KeptByFault (f e a)) : ∀ l : List α, d.KeptByFault (l.foldl f e) := by
  intro l
  induction l generalizing e with
  | nil => exact h
  | cons a l ih => exact ih (hf e a h)

/-- The ends of entries and of blit commands lie in those blocks. -/
theorem blitSafe (d : Dev) : BlitSafe d.KeptByFault where
  put h hf := h.put (by
    simp only [List.mem_cons, List.not_mem_nil, or_false] at hf
    simp only [faultBlocks, List.mem_cons]
    omega)
  parts h hr _ := h.same hr
  note h k _ := h.noted k

/-! ### Started work is flushed -/

theorem undoChange {o : Owed} (h : d.KeptByFault e) : d.KeptByFault (e.undoChange o) := by
  unfold Dev.undoChange
  split
  · exact h.same
  · split
    · exact ite h.same h
    · exact h.same
  · exact h.same
  · exact h.when fun h => (blitSafe d).giveBack h
  · exact h.same
  · exact h

theorem flushBlit (h : d.KeptByFault e) : d.KeptByFault e.flushBlit := by
  unfold Dev.flushBlit
  extract_lets waits waited cur direct done
  have hwaited : d.KeptByFault waited := h.foldl (fun _ _ h => (blitSafe d).blitPost h) _
  have hcur : d.KeptByFault cur := by
    unfold cur
    split
    · exact (blitSafe d).blitPost hwaited
    · exact hwaited
  have hdirect : d.KeptByFault direct := by
    unfold direct
    split
    · exact (((hcur.put (by decide)).put (by decide)).put (by decide)).put (by decide)
    · exact hcur
  have hdone : d.KeptByFault done := hdirect.put (by decide)
  exact hdone.same

theorem flushStarted (h : d.KeptByFault e) : d.KeptByFault e.flushStarted := by
  unfold Dev.flushStarted
  have undone : d.KeptByFault (e.q.owed.reverse.foldl Dev.undoChange e) := h.foldl (fun _ _ h => h.undoChange) _
  exact raiseD (put ((blitSafe d).settle (same undone.flushBlit)) (by decide))

theorem stopWork (h : d.KeptByFault e) : d.KeptByFault e.stopWork := by
  have stopped {p v : Nat} {e : Dev} (h : d.KeptByFault e) : d.KeptByFault (e.put (R.PIP_STATE p) v) :=
    h.put (by simp only [R.PIP_STATE, Fld.key, faultBlocks, List.mem_cons]; omega)
  unfold Dev.stopWork
  extract_lets pips occ retry
  have hpips : d.KeptByFault pips :=
    h.foldl (fun _ p h => put (h.when stopped) (by simp only [R.PIP_REMAIN, Fld.key, faultBlocks, List.mem_cons]; omega)) _
  have hocc : d.KeptByFault occ :=
    hpips.foldl (fun _ b h => h.put (by simp only [R.PSN_OCC, Fld.key, faultBlocks, List.mem_cons]; omega)) _
  have hretry : d.KeptByFault retry :=
    hocc.foldl (fun _ f h => h.put (by simp only [R.PSN_RETRY_OCC, Fld.key, faultBlocks, List.mem_cons]; omega)) _
  clear_value retry
  exact hretry.same

/-! ### The journal commits -/

theorem mbxDone {bytes : List Byte} {auth stale : Bool} (h : d.KeptByFault e) : d.KeptByFault (e.mbxDone bytes auth stale) := by
  have resp : d.KeptByFault (e.putResp bytes) :=
    h.foldl (fun _ k h => h.put (by simp only [R.MBX_RESP, Fld.key, faultBlocks, List.mem_cons]; omega)) _
  have shown : d.KeptByFault ((((e.putResp bytes).put R.MBX_RESP_LEN bytes.length).put R.MBX_MBX_STATE 2).flag R.MBX_DONE) :=
    ((resp.put (by decide)).put (by decide)).put (by decide)
  exact ((shown.when fun h => h.put (by decide)).when fun h => h.put (by decide)).noted (Noting.raiseD_any _ _ _)

theorem respond {transport tok : Nat} {dest : Option (Nat × Nat × Nat)} {bytes : List Byte} (h : d.KeptByFault e) :
    d.KeptByFault (e.respond transport tok dest bytes) := by
  unfold Dev.respond
  split
  · exact ite (mbxDone h.same) h
  · split
    · exact h
    · exact h.same

theorem commitTxn {t : Txn} (h : d.KeptByFault e) : d.KeptByFault (e.commitTxn t) := by
  have answered {r : Option Reply} {e : Dev} (h : d.KeptByFault e) : d.KeptByFault (e.reply? r) := by
    cases r with
    | some r => exact foldl (respond h.same) (fun _ _ h => h.respond) _
    | none => exact h
  have counted {x : BankSt} {v : Nat} :
      d.KeptByFault ((({ e with bank := x } : Dev).bump R.ST_JCOMMITS 1).bump R.ST_MRAM_WR_LINES v) :=
    put (put h.same (by decide)) (by decide)
  exact same (answered (foldl counted (fun _ _ h => h.ledger) t.entries))

theorem journalIdle (h : d.KeptByFault e) : d.KeptByFault e.journalIdle := by
  unfold Dev.journalIdle
  exact ite h (put (put (foldl h.same (fun _ _ h => h.commitTxn) _) (by decide)) (by decide))

/-- A device-level fault keeps every field of the other blocks. -/
theorem deviceFault {st : Nat} (h : d.KeptByFault e) : d.KeptByFault (e.deviceFault st) := by
  unfold Dev.deviceFault Dev.deviceStop
  refine journalIdle (ite (ledger h) (put (stopWork (flushStarted (raiseD (h.put ?_)))) ?_))
  · decide
  · decide

end Dev.KeptByFault

end Sys2Proof.Machine
end

section
/-! SUPPORT. The HBM stacks (R238 to R243, R251): temperatures, retraining, the fault of a stack without lock, and the scrubber. -/

namespace Sys2Proof.Machine

set_option Elab.async false

/-! ### Where the fields lie -/

/-- Where the fields of stack k are kept. -/
theorem stkKeys (k : Nat) :
    (R.STK_STATE k).key = 0x14040000 + 0x4000 * (k % 8) ∧ (R.STK_DUE k).key = 0x14040003 + 0x4000 * (k % 8) ∧
    (R.STK_FAILS k).key = 0x14040004 + 0x4000 * (k % 8) ∧ (R.STK_TEMP k).key = 0x14040008 + 0x4000 * (k % 8) ∧
    (R.STK_TEMP_TRAIN k).key = 0x14040010 + 0x4000 * (k % 8) ∧ (R.STK_CE k).key = 0x14040100 + 0x4000 * (k % 8) ∧
    (R.STK_UE k).key = 0x14040101 + 0x4000 * (k % 8) ∧ (R.STK_CE_RATE k).key = 0x14040102 + 0x4000 * (k % 8) ∧
    (R.STK_TRAIN_FAIL k).key = 0x14040103 + 0x4000 * (k % 8) ∧ (R.STK_HOT k).key = 0x14040104 + 0x4000 * (k % 8) ∧
    (R.STK_FATAL k).key = 0x14040106 + 0x4000 * (k % 8) ∧ (R.STK_UE_ADDR_LO k).key = 0x14040200 + 0x4000 * (k % 8) ∧
    (R.STK_UE_ADDR_HI k).key = 0x14040300 + 0x4000 * (k % 8) ∧ (R.STK_CE_CNT k).key = 0x14041000 + 0x4000 * (k % 8) ∧
    (R.STK_UE_CNT k).key = 0x14041200 + 0x4000 * (k % 8) ∧ (R.STK_RETRAIN_CNT k).key = 0x14041400 + 0x4000 * (k % 8) ∧
    (R.STK_RD_BYTES k).key = 0x14041600 + 0x4000 * (k % 8) := by
  simp only [R.STK_STATE, R.STK_DUE, R.STK_FAILS, R.STK_TEMP, R.STK_TEMP_TRAIN, R.STK_CE, R.STK_UE, R.STK_CE_RATE, R.STK_TRAIN_FAIL,
    R.STK_HOT, R.STK_FATAL, R.STK_UE_ADDR_LO, R.STK_UE_ADDR_HI, R.STK_CE_CNT, R.STK_UE_CNT, R.STK_RETRAIN_CNT, R.STK_RD_BYTES,
    Fld.key]
  omega

/-! ### A stack that becomes due -/

/-- What a field that was written reads. -/
theorem Dev.Sets.get_of_mem {tells : Bool} {ps : List Part} {l : List (Fld × Nat)} {told : List Nat} {d e : Dev} {f : Fld} {w : Nat}
    (h : d.Sets tells ps l told e) (hf : (f, w) ∈ l) : e.get f = w := h.reads (f, w) hf

/-- A field that holds its value already. -/
theorem Dev.Sets.holds {tells : Bool} {ps : List Part} {l : List (Fld × Nat)} {told : List Nat} {d e : Dev} {f : Fld} {w : Nat}
    (h : d.Sets tells ps l told e) (hf : noteBlock f.key = false) (hw : e.get f = w) : d.Sets tells ps ((f, w) :: l) told e :=
  ⟨List.forall_mem_cons.2 ⟨hw, h.reads⟩, List.forall_mem_cons.2 ⟨hf, h.plain⟩, h.pends, h.only.widen (fun k hk => by
    simp only [setFrame, regsOf, List.map_cons, List.any_cons, Bool.or_eq_true] at hk ⊢
    tauto) fun _ hp => hp⟩

/-- A stack becomes due, or stays due (R239). -/
theorem Dev.Sets.stackDue {tells : Bool} {ps : List Part} {l : List (Fld × Nat)} {told : List Nat} {d e : Dev} {k : Nat}
    (h : d.Sets tells ps l told e) (hf : (R.STK_DUE k).newTo l) (hl : Part.mem ∈ ps := by decide) :
    d.Sets tells ps ((R.STK_DUE k, 1) :: l) told (e.stackDue k) := by
  unfold Dev.stackDue
  split_ifs with hdue
  · exact h.holds hf.1 (by simpa [Dev.on] using hdue)
  · exact (h.put hf).setMem hl

/-! ### Temperatures -/

/-- The two's complement form of a temperature reads back. -/
theorem signed_unsigned {t : Int} (h : -128 ≤ t ∧ t < 128) : signed 8 (unsigned 8 t) = t := by
  simp only [signed, unsigned]
  split_ifs <;> omega

/-- The temperature of a stack as it is shown, and flagged above 95 °C (R238, R244). -/
def Dev.tempShown (d : Dev) (k : Nat) (t : Int) : Dev :=
  if 95 < t then (d.put (R.STK_TEMP k) (unsigned 8 t)).stkFlag k (R.STK_HOT k) else d.put (R.STK_TEMP k) (unsigned 8 t)

/-- A stack that runs is to be trained anew at temperature t: 16 s after its last training, or 10 °C from it (R239). -/
def Dev.dueAt (d : Dev) (k : Nat) (t : Int) : Prop :=
  (d.get (R.STK_STATE k) = stkReady ∨ d.get (R.STK_STATE k) = stkRetrain) ∧
    ((match Tab.get? d.mem.trained k with
      | some at_ => decide (at_ + 16 * perSec ≤ d.time.now)
      | none => false) || decide (10 ≤ (t - signed 8 (d.get (R.STK_TEMP_TRAIN k))).natAbs)) = true

theorem Dev.dueAt_of_drift {d : Dev} {k : Nat} {t : Int} (hready : d.get (R.STK_STATE k) = stkReady)
    (hdrift : 10 ≤ (t - signed 8 (d.get (R.STK_TEMP_TRAIN k))).natAbs) : d.dueAt k t :=
  ⟨.inl hready, Bool.or_eq_true_iff.2 (.inr (decide_eq_true hdrift))⟩

theorem Dev.stackTemp_off {d : Dev} {k : Nat} (h : d.get (R.STK_STATE k) = stkOff) (t : Int) : d.stackTemp k t = d := if_pos h

/-- A temperature is shown, and may make its stack due. -/
theorem Dev.stackTemp_cases {d : Dev} {k : Nat} (h : d.get (R.STK_STATE k) ≠ stkOff) (t : Int) :
    ((d.tempShown k t).dueAt k t ∧ d.stackTemp k t = (d.tempShown k t).stackDue k) ∨
      (¬(d.tempShown k t).dueAt k t ∧ d.stackTemp k t = d.tempShown k t) := by
  have shown : d.stackTemp k t = _ := if_neg h
  by_cases hdue : (d.tempShown k t).dueAt k t
  · exact .inl ⟨hdue, shown.trans (if_pos hdue)⟩
  · exact .inr ⟨hdue, shown.trans (if_neg hdue)⟩

/-- The fields that a temperature of stack k changes. -/
def tempFields (k : Nat) : List Fld := [R.STK_TEMP k, R.STK_HOT k, R.STK_DUE k]

/-- What is shown of a temperature: always the reading, and above 95 °C the flag. -/
theorem Dev.tempShown_sets (d : Dev) {k : Nat} (t : Int) (hk : k < 8) :
    ∃ l told, d.Sets true (notes ++ [.mem]) l told (d.tempShown k t) ∧ (R.STK_TEMP k, unsigned 8 t % 2 ^ 8) ∈ l ∧
      (95 < t → (R.STK_HOT k, 1) ∈ l) ∧ l.map Prod.fst ⊆ [R.STK_TEMP k, R.STK_HOT k] := by
  have put := (Dev.Sets.refl true (notes ++ [.mem]) d).put (f := R.STK_TEMP k) (v := unsigned 8 t)
    (by simp [Fld.newTo, noteBlock, stkKeys]; omega)
  unfold tempShown
  split_ifs with hot
  · have told := put.flagRaise (f := R.STK_HOT k) (n := 384 + k) (by simp [Fld.newTo, noteBlock, stkKeys]; omega) (by omega)
    exact ⟨_, _, told, List.mem_cons_of_mem _ (List.mem_singleton_self _), fun _ => List.mem_cons_self .., by simp⟩
  · exact ⟨_, _, put, List.mem_singleton_self _, fun h => absurd h hot, by simp⟩

/-- The fields of a stack that are not shown of its temperature. -/
theorem newTo_shown {l : List (Fld × Nat)} {k : Nat} {f : Fld} (hl : l.map Prod.fst ⊆ [R.STK_TEMP k, R.STK_HOT k])
    (hf : f ∈ [R.STK_STATE k, R.STK_DUE k, R.STK_TEMP_TRAIN k]) : f.newTo l := by
  have apart : noteBlock f.key = false ∧ (R.STK_TEMP k).key ≠ f.key ∧ (R.STK_HOT k).key ≠ f.key := by
    simp only [List.mem_cons, List.not_mem_nil, or_false] at hf
    rcases hf with rfl | rfl | rfl
    all_goals simp only [noteBlock_eq_false, stkKeys]; omega
  obtain ⟨hn, htemp, hhot⟩ := apart
  refine ⟨hn, fun p hp => ?_⟩
  have := hl (List.mem_map_of_mem hp)
  simp only [List.mem_cons, List.not_mem_nil, or_false] at this
  rcases this with h | h
  · exact h ▸ htemp
  · exact h ▸ hhot

/-- What a temperature of a stack that is not OFF leaves. -/
theorem Dev.stackTemp_sets {d : Dev} {k : Nat} {t : Int} (hk : k < 8) (hstate : d.get (R.STK_STATE k) ≠ stkOff) :
    ∃ l told, d.Sets true (notes ++ [.mem]) l told (d.stackTemp k t) ∧ (R.STK_TEMP k, unsigned 8 t % 2 ^ 8) ∈ l ∧
      (95 < t → (R.STK_HOT k, 1) ∈ l) ∧
      (d.get (R.STK_STATE k) = stkReady → 10 ≤ (t - signed 8 (d.get (R.STK_TEMP_TRAIN k))).natAbs → (R.STK_DUE k, 1) ∈ l) ∧
      l.map Prod.fst ⊆ tempFields k := by
  obtain ⟨l, told, shown, htemp, hhot, hl⟩ := d.tempShown_sets t hk
  have hl' : l.map Prod.fst ⊆ tempFields k := fun f hf => by
    have := hl hf
    simp only [tempFields, List.mem_cons] at this ⊢
    tauto
  rcases Dev.stackTemp_cases hstate t with ⟨-, heq⟩ | ⟨hdue, heq⟩
  · exact ⟨_, _, heq ▸ shown.stackDue (newTo_shown hl (by simp)), List.mem_cons_of_mem _ htemp,
      fun h => List.mem_cons_of_mem _ (hhot h), fun _ _ => List.mem_cons_self ..,
      List.cons_subset.2 ⟨by simp [tempFields], hl'⟩⟩
  · refine ⟨_, _, heq ▸ shown, htemp, hhot, fun hready hdrift => absurd (Dev.dueAt_of_drift ?_ ?_) hdue, hl'⟩
    · exact (shown.get_new (newTo_shown hl (by simp))).trans hready
    · rwa [shown.get_new (newTo_shown hl (by simp))]

/-- A temperature changes what it shows of its stack alone. -/
theorem Dev.stackTemp_only (d : Dev) {k : Nat} (t : Int) (hk : k < 8) :
    d.Only (orNote (tempFields k)) (notes ++ [.mem]) (d.stackTemp k t) := by
  by_cases hstate : d.get (R.STK_STATE k) = stkOff
  · rw [Dev.stackTemp_off hstate]
    exact Only.refl _ _ d
  · obtain ⟨l, told, sets, -, -, -, hl⟩ := Dev.stackTemp_sets (t := t) hk hstate
    exact sets.only.widen (orNote_mono hl) fun _ hp => hp

/-! ### The temperatures of all stacks -/

/-- The temperatures of the stacks from k on, one each. -/
def Dev.stackTemps (d : Dev) (temps : List Int) (k : Nat) : Dev :=
  (temps.zipIdx k).foldl (fun (d : Dev) x => d.stackTemp x.2 x.1) d

theorem Dev.stackTemps_append (d : Dev) (l m : List Int) (k : Nat) :
    d.stackTemps (l ++ m) k = (d.stackTemps l k).stackTemps m (k + l.length) := by
  rw [stackTemps, List.zipIdx_append, List.foldl_append]
  rfl

/-- The temperatures of stacks leave the fields of another stack alone. -/
theorem Dev.stackTemps_other {temps : List Int} : ∀ {k : Nat} (d : Dev), k + temps.length ≤ 8 → ∀ f : Fld,
    (∀ i < temps.length, f.key / 0x4000 ≠ 0x5010 + (k + i)) → f.key / 0x4000000 = 5 → (d.stackTemps temps k).get f = d.get f := by
  induction temps with
  | nil => exact fun _ _ _ _ _ => rfl
  | cons t temps ih =>
    intro k d hk f hf hblock
    rw [List.length_cons] at hk hf
    refine (ih (k := k + 1) (d.stackTemp k t) (by omega) f (fun i hi => ?_) hblock).trans ?_
    · have := hf (i + 1) (by omega)
      omega
    · have own := hf 0 (by omega)
      refine (d.stackTemp_only t (by omega)).1 f (orNote_eq_false.2 ⟨noteBlock_eq_false.2 (by omega), ?_⟩)
      simp only [tempFields, List.forall_mem_cons, stkKeys]
      refine ⟨?_, ?_, ?_, by simp⟩ <;> omega

/-- The temperatures change what is shown of the stacks alone. -/
theorem Dev.stackTemps_only (d : Dev) {temps : List Int} (hlen : temps.length = 8) :
    d.Only (orNote ((List.range 8).map R.STK_TEMP ++ (List.range 8).map R.STK_HOT ++ (List.range 8).map R.STK_DUE))
      (notes ++ [.mem]) (d.stackTemps temps 0) := by
  refine Sys2Proof.Only.foldl _ _ (fun e x hx => ?_) d
  have hk : x.2 < 8 := by
    have := List.snd_lt_of_mem_zipIdx hx
    omega
  refine (e.stackTemp_only x.1 hk).widen (orNote_mono ?_) fun _ hp => hp
  simp only [tempFields, List.cons_subset, List.mem_append, List.mem_map, List.mem_range, List.nil_subset, and_true]
  exact ⟨.inl (.inl ⟨_, hk, rfl⟩), .inl (.inr ⟨_, hk, rfl⟩), .inr ⟨_, hk, rfl⟩⟩

/-- Among the temperatures of all stacks a stack sees its own: a device that agrees on its fields takes its temperature. -/
theorem Dev.stackTemps_own (dev : Dev) {temps : List Int} (hlen : temps.length = 8) {j : Nat} (hj : j < 8) :
    ∃ d : Dev, ∀ f : Fld, f.key / 0x4000 = 0x5010 + j →
      d.get f = dev.get f ∧ (dev.stackTemps temps 0).get f = (d.stackTemp j (temps.getD j 0)).get f := by
  have hlt : j < temps.length := by omega
  have split : temps = temps.take j ++ ([temps.getD j 0] ++ temps.drop (j + 1)) := by
    rw [List.singleton_append, List.getD_eq_getElem _ _ hlt, ← List.drop_eq_getElem_cons hlt, List.take_append_drop]
  have hj' : (temps.take j).length = j := by rw [List.length_take]; omega
  have chain : dev.stackTemps temps 0 =
      ((dev.stackTemps (temps.take j) 0).stackTemp j (temps.getD j 0)).stackTemps (temps.drop (j + 1)) (j + 1) := by
    conv_lhs => rw [split]
    rw [Dev.stackTemps_append, Dev.stackTemps_append, hj', Nat.zero_add]
    rfl
  refine ⟨dev.stackTemps (temps.take j) 0, fun f hf => ⟨?_, ?_⟩⟩
  · exact Dev.stackTemps_other _ (by omega) f (fun i hi => by omega) (by omega)
  · rw [chain]
    exact Dev.stackTemps_other _ (by rw [List.length_drop]; omega) f (fun i hi => by omega) (by omega)

/-- What a stack that is not OFF shows after the temperatures of all stacks. -/
theorem Dev.stackTemps_shows (dev : Dev) {temps : List Int} (hlen : temps.length = 8) {j : Nat} (hj : j < 8)
    (value : -128 ≤ temps.getD j 0 ∧ temps.getD j 0 < 128) (hstate : dev.get (R.STK_STATE j) ≠ stkOff) :
    signed 8 ((dev.stackTemps temps 0).get (R.STK_TEMP j)) = temps.getD j 0 ∧
    (95 < temps.getD j 0 → (dev.stackTemps temps 0).get (R.STK_HOT j) = 1) ∧
    (dev.get (R.STK_STATE j) = stkReady → 10 ≤ (temps.getD j 0 - signed 8 (dev.get (R.STK_TEMP_TRAIN j))).natAbs →
      (dev.stackTemps temps 0).get (R.STK_DUE j) = 1) := by
  obtain ⟨d, own⟩ := dev.stackTemps_own hlen hj
  have state := own (R.STK_STATE j) (by simp only [stkKeys]; omega)
  have train := own (R.STK_TEMP_TRAIN j) (by simp only [stkKeys]; omega)
  have temp := own (R.STK_TEMP j) (by simp only [stkKeys]; omega)
  have hot := own (R.STK_HOT j) (by simp only [stkKeys]; omega)
  have due := own (R.STK_DUE j) (by simp only [stkKeys]; omega)
  rw [← state.1] at hstate ⊢
  rw [← train.1, temp.2, hot.2, due.2]
  generalize temps.getD j 0 = t at value
  obtain ⟨l, told, sets, htemp, hhot, hdue, -⟩ := Dev.stackTemp_sets (t := t) hj hstate
  refine ⟨?_, fun h => sets.get_of_mem (hhot h), fun ready drift => sets.get_of_mem (hdue ready drift)⟩
  have fits : unsigned 8 t < 2 ^ 8 := by unfold unsigned; omega
  rw [sets.get_of_mem htemp, Nat.mod_eq_of_lt fits, signed_unsigned value]

/-- Every stack that is not OFF shows its temperature, and is due where it has drifted by 10 °C. -/
theorem hbmTempRead_gives {s : State} {temps : List Int} (hlen : temps.length = 8)
    (htemps : ∀ x ∈ temps, -128 ≤ x ∧ x < 128) :
    (Instr.hbmTempRead temps).gives s fun t =>
      (∀ j, j < 8 → s.dev.get (R.STK_STATE j) ≠ stkOff →
        signed 8 (t.dev.get (R.STK_TEMP j)) = temps.getD j 0 ∧ (95 < temps.getD j 0 → t.dev.get (R.STK_HOT j) = 1) ∧
        (s.dev.get (R.STK_STATE j) = stkReady → 10 ≤ (temps.getD j 0 - signed 8 (s.dev.get (R.STK_TEMP_TRAIN j))).natAbs →
          t.dev.get (R.STK_DUE j) = 1)) ∧
      s.Noting ((List.range 8).map R.STK_TEMP ++ (List.range 8).map R.STK_HOT ++ (List.range 8).map R.STK_DUE) [.mem] t := by
  have heq : exec (.hbmTempRead temps) s = .next { s with dev := s.dev.stackTemps temps 0 } := by
    show execHbmTempRead temps s = _
    simp only [execHbmTempRead, State.upd, List.take_of_length_le hlen.le]
    rfl
  refine ⟨_, heq, fun j hj hstate => ?_, s.dev.stackTemps_only hlen, rfl, rfl⟩
  have hlt : j < temps.length := by omega
  exact s.dev.stackTemps_shows hlen hj (htemps _ (List.getD_eq_getElem temps 0 hlt ▸ List.getElem_mem hlt)) hstate

/-! ### Retraining -/

/-- What a training leaves. -/
theorem Dev.stackTrained_sets (d : Dev) (k temp : Nat) :
    d.Sets false [.mem] [(R.STK_DUE k, 0), (R.STK_TEMP_TRAIN k, temp % 2 ^ 8), (R.STK_FAILS k, 0), (R.STK_STATE k, stkReady)] []
      (d.stackTrained k temp) := by
  have sets := (Dev.Sets.refl false [.mem] d)
    |>.put (f := R.STK_STATE k) (v := stkReady) (w := stkReady) (by simp [Fld.newTo, noteBlock, stkKeys]; omega)
    |>.put (f := R.STK_FAILS k) (v := 0) (w := 0) (by simp [Fld.newTo, noteBlock, stkKeys]; omega)
    |>.put (f := R.STK_TEMP_TRAIN k) (v := temp) (w := temp % 2 ^ 8) (by simp [Fld.newTo, noteBlock, stkKeys]; omega)
    |>.put (f := R.STK_DUE k) (v := 0) (w := 0) (by simp [Fld.newTo, noteBlock, stkKeys]; omega)
  exact sets.setMem

/-- A retraining that succeeds (R241). -/
theorem retrainDone_true_gives {s : State} {k : Nat} (hk : k < 8) (hstate : s.dev.get (R.STK_STATE k) = stkRetrain) :
    (Instr.retrainDone k true).gives s fun t =>
      t.dev.get (R.STK_STATE k) = stkReady ∧ t.dev.get (R.STK_DUE k) = 0 ∧ t.dev.get (R.STK_FAILS k) = 0 ∧
      t.dev.get (R.STK_RETRAIN_CNT k) = (s.dev.get (R.STK_RETRAIN_CNT k) + 1) % 2 ^ 64 ∧
      Tab.get? t.dev.mem.trained k = some s.dev.time.now ∧
      s.Only [R.STK_STATE k, R.STK_DUE k, R.STK_FAILS k, R.STK_TEMP_TRAIN k, R.STK_RETRAIN_CNT k] [.mem] t := by
  let temp := Tab.getD s.dev.mem.startTemp k (s.dev.get (R.STK_TEMP k))
  have heq : exec (.retrainDone k true) s =
      .next { s with dev := (s.dev.stackTrained k temp).bump (R.STK_RETRAIN_CNT k) 1 } := by
    show execRetrainDone k true s = _
    simp [execRetrainDone, onUnit, State.upd, hk, hstate, temp]
  have sets := (s.dev.stackTrained_sets k temp).bump (f := R.STK_RETRAIN_CNT k) (n := 1)
    (by simp [Fld.newTo, noteBlock, stkKeys]; omega)
  exact ⟨_, heq, sets.get_of_mem (by simp), sets.get_of_mem (by simp),
    sets.get_of_mem (by simp), sets.get_of_mem (List.mem_cons_self ..), Tab.get?_set_same _ _ _,
    sets.changes (by simp)⟩

/-- A retraining that fails is counted, the first two times in a row (R242). -/
theorem retrainDone_false_gives {s : State} {k : Nat} (hk : k < 8) (hstate : s.dev.get (R.STK_STATE k) = stkRetrain)
    (hfails : s.dev.get (R.STK_FAILS k) < 2) :
    (Instr.retrainDone k false).gives s fun t =>
      t.dev.get (R.STK_STATE k) = stkReady ∧ t.dev.get (R.STK_DUE k) = 1 ∧
      t.dev.get (R.STK_FAILS k) = s.dev.get (R.STK_FAILS k) + 1 ∧ t.dev.get (R.STK_TRAIN_FAIL k) = 1 ∧
      t.dev.pends (384 + k) = true ∧
      s.Noting [R.STK_STATE k, R.STK_DUE k, R.STK_FAILS k, R.STK_TRAIN_FAIL k] [.mem] t := by
  let n := s.dev.get (R.STK_FAILS k) + 1
  have heq : exec (.retrainDone k false) s = .next { s with dev :=
      (((s.dev.stkFlag k (R.STK_TRAIN_FAIL k)).put (R.STK_FAILS k) n).put (R.STK_STATE k) stkReady).stackDue k } := by
    show execRetrainDone k false s = _
    simp [execRetrainDone, onUnit, State.upd, hk, hstate, n, show ¬(3 ≤ s.dev.get (R.STK_FAILS k) + 1) by omega]
  have sets := (Dev.Sets.refl true (notes ++ [.mem]) s.dev)
    |>.flagRaise (f := R.STK_TRAIN_FAIL k) (n := 384 + k) (by simp [Fld.newTo, noteBlock, stkKeys]; omega) (by omega)
    |>.put (f := R.STK_FAILS k) (v := n) (w := n) (by simp [Fld.newTo, noteBlock, stkKeys]; omega)
      (Nat.mod_eq_of_lt (show n < 2 ^ 2 by omega))
    |>.put (f := R.STK_STATE k) (v := stkReady) (w := stkReady) (by simp [Fld.newTo, noteBlock, stkKeys]; omega)
    |>.stackDue (k := k) (by simp [Fld.newTo, noteBlock, stkKeys]; omega)
  exact ⟨_, heq, sets.get_of_mem (by simp), sets.get_of_mem (by simp),
    sets.get_of_mem (by simp [n]), sets.get_of_mem (by simp), sets.told_pends (by simp),
    sets.noting (by simp)⟩

/-! ### A stack without lock -/

/-- A stack that stays without lock for 1 ms stops the device (R243, R245). -/
theorem hbmUnlockTimeout_gives {s : State} {k : Nat} (hk : k < 8) (hrun : s.dev.get R.PWR_SU_STATE = suRun)
    (hstate : s.dev.get (R.STK_STATE k) = stkReady) (hsyn : s.dev.synState (73 + k) = synUnlocked) :
    (Instr.hbmUnlockTimeout k).gives s fun t =>
      t.dev.get (R.STK_STATE k) = stkDead ∧ t.dev.get (R.STK_FATAL k) = 1 ∧ t.dev.pends 7 = true ∧
      t.dev.get R.PWR_SU_STATE = suFaulted ∧ t.hbm = s.hbm := by
  have heq : exec (.hbmUnlockTimeout k) s = .next { s with dev := s.dev.stackFatal k } := by
    show execHbmUnlockTimeout k s = _
    simp [execHbmUnlockTimeout, onUnit, State.upd, hk, hstate, hsyn]
  have sets := (Dev.Sets.refl true notes s.dev)
    |>.put (f := R.STK_STATE k) (v := stkDead) (w := stkDead) (by simp [Fld.newTo, noteBlock, stkKeys]; omega)
    |>.flagRaise (f := R.STK_FATAL k) (n := 384 + k) (by simp [Fld.newTo, noteBlock, stkKeys]; omega) (by omega)
    |>.raiseD (n := 7) (y := 0) (by omega)
  have running := sets.get_new (f := R.PWR_SU_STATE)
    (by simp [Fld.newTo, noteBlock, stkKeys, show R.PWR_SU_STATE.key = 0x1000014 * 64 from rfl]; omega)
  generalize hdead : Dev.raiseD _ 7 0 = dead at sets running
  have fault : s.dev.stackFatal k = dead.deviceFault suFaulted := by rw [← hdead]; rfl
  have kept := (Dev.KeptByFault.refl dead).deviceFault (st := suFaulted)
  obtain ⟨faulted, pends⟩ := Dev.Stands.deviceFault (e := dead) (by rw [running, hrun]; decide)
  refine ⟨_, heq, ?_⟩
  rw [fault]
  refine ⟨(kept _ ?_).trans (sets.get_of_mem (by simp)), (kept _ ?_).trans (sets.get_of_mem (by simp)),
    pends 7 (by decide) (sets.told_pends (by simp)), faulted, rfl⟩
  · simp only [stkKeys, faultBlocks, List.mem_cons, List.not_mem_nil, or_false]; omega
  · simp only [stkKeys, faultBlocks, List.mem_cons, List.not_mem_nil, or_false]; omega

/-! ### The scrubber -/

theorem scrubDone_gives {s : State} (hon : s.dev.get R.MEM_SCRUB_EN = 1) :
    Instr.scrubDone.gives s fun t =>
      t.dev.get R.MEM_SCRUB_DONE = 1 ∧ t.dev.pends 393 = true ∧ s.Noting [R.MEM_SCRUB_DONE] [] t := by
  have heq : exec .scrubDone s = .next { s with dev := s.dev.flagRaise R.MEM_SCRUB_DONE 393 } := by
    show execScrubDone s = _
    simp [execScrubDone, State.upd, Dev.on, hon]
  have sets := (Dev.Sets.refl true (notes ++ []) s.dev).flagRaise (f := R.MEM_SCRUB_DONE) (n := 393) (by simp [Fld.newTo]; decide)
    (by omega)
  exact ⟨_, heq, sets.get_of_mem (by simp), sets.told_pends (by simp), sets.noting (by simp)⟩

end Sys2Proof.Machine
end

section

open Sys2Proof Sys2Proof.Machine

/-- Settles O24: a chain of writes for each way that a stack goes, and a fault that leaves the registers of the stacks. -/
theorem stacksRetrainOrFail : Obligations.StacksRetrainOrFail := by
  unfold Obligations.StacksRetrainOrFail
  exact fun s k temps hk hlen htemps => ⟨hbmTempRead_gives hlen htemps, retrainDone_true_gives hk, retrainDone_false_gives hk,
    hbmUnlockTimeout_gives hk, scrubDone_gives⟩

end

section
/-! SUPPORT. What a read of HBM leaves (R228, R247 to R250): the bytes counted, the errors of its stack, the poison of its flit. -/

namespace Sys2Proof.Machine

set_option Elab.async false

/-! ### Events under keys of their own -/

theorem Pending.raiseOnceKey (d : Dev) (key e x : Nat) : d.PendLe (d.raiseOnceKey key e x) := by
  unfold Dev.raiseOnceKey
  split_ifs
  · exact Pending.refl d
  · exact Pending.raiseD { d with ev := { d.ev with once := key :: d.ev.once } } e x

/-- An event noted at most once per turn under a key of its own. -/
theorem Dev.Sets.raiseOnceKey {ps : List Part} {l : List (Fld × Nat)} {told : List Nat} {d e : Dev} {key n y : Nat}
    (h : d.Sets true ps l told e) (hl : notes ⊆ ps := by decide) : d.Sets true ps l told (e.raiseOnceKey key n y) :=
  h.note (Noting.raiseOnceKey _ _ _ _) (Pending.raiseOnceKey _ _ _ _) hl

/-! ### Addresses -/

theorem stackOf_lt {a : Nat} (h : a < hbmBytes) : stackOf a < 8 := by
  unfold stackOf stackBytes
  unfold hbmBytes stackBytes at h
  omega

/-- The upper word of the address of a flit fits its register. -/
theorem flitHigh_lt {a : Nat} (h : a < hbmBytes) : flitOf a * 32 / 2 ^ 32 < 2 ^ 7 := by
  unfold flitOf
  unfold hbmBytes stackBytes at h
  omega

/-! ### The read itself -/

/-- A read that returns: its bytes are counted, and its error is taken (R228, R248, R249). -/
def Dev.flitRead (d : Dev) (a : Nat) : EccResult → Dev
  | .clean => d.bump (R.STK_RD_BYTES (stackOf a)) 32
  | .corrected => (d.bump (R.STK_RD_BYTES (stackOf a)) 32).corrected (stackOf a)
  | .uncorrectable => (d.bump (R.STK_RD_BYTES (stackOf a)) 32).uncorrected a

/-- The count of bytes read leaves the fields beside the memory block. -/
theorem Dev.get_bump_rdBytes {d : Dev} {k n : Nat} {f : Fld} (hf : f.key / 0x4000000 ≠ 5) :
    (d.bump (R.STK_RD_BYTES k) n).get f = d.get f :=
  get_put_ne _ _ _ _ fun h => hf (by rw [h]; simp only [stkKeys]; omega)

section

variable {s : State} {a : Nat} {reader : HbmReader} {ecc : EccResult} (hreader : readerOk reader = true) (ha : a < hbmBytes)
  (hready : s.dev.get (R.STK_STATE (stackOf a)) = stkReady ∨ s.dev.get (R.STK_STATE (stackOf a)) = stkRetrain)

include hreader ha hready

/-- Its reader takes the poison, where the flit is poisoned. -/
theorem exec_hbmReadReturn :
    exec (.hbmReadReturn a ecc reader) s =
      .next (if flitOf a ∈ (s.dev.flitRead a ecc).mem.poison
        then ({ s with dev := s.dev.flitRead a ecc } : State).poisonTo a reader
        else { s with dev := s.dev.flitRead a ecc }) := by
  show execHbmReadReturn a ecc reader s = _
  unfold execHbmReadReturn
  rw [if_neg (by simp [hreader]), if_neg (by omega)]
  dsimp only
  rw [if_neg (by tauto)]
  cases ecc <;> rfl

theorem exec_hbmReadReturn_poisoned (hpoison : flitOf a ∈ (s.dev.flitRead a ecc).mem.poison) :
    exec (.hbmReadReturn a ecc reader) s = .next (({ s with dev := s.dev.flitRead a ecc } : State).poisonTo a reader) :=
  (exec_hbmReadReturn hreader ha hready).trans (congrArg _ (if_pos hpoison))

theorem exec_hbmReadReturn_sound (hpoison : flitOf a ∉ (s.dev.flitRead a ecc).mem.poison) :
    exec (.hbmReadReturn a ecc reader) s = .next { s with dev := s.dev.flitRead a ecc } :=
  (exec_hbmReadReturn hreader ha hready).trans (congrArg _ (if_neg hpoison))

end

/-- A read beyond the stacks stops the model. -/
theorem hbmReadReturn_beyond {s : State} {a : Nat} {ecc : EccResult} {reader : HbmReader} (hreader : readerOk reader = true)
    (ha : hbmBytes ≤ a) : exec (.hbmReadReturn a ecc reader) s = .fault (.hbmAddress a) := by
  show execHbmReadReturn a ecc reader s = _
  simp [execHbmReadReturn, hreader, ha]

/-! ### A corrected error -/

/-- What a read with a corrected error leaves (R248). -/
theorem Dev.corrected_sets (d : Dev) (k : Nat) :
    ∃ l, d.Sets true (notes ++ [.mem]) l [] ((d.bump (R.STK_RD_BYTES k) 32).corrected k) ∧
      (R.STK_CE_CNT k, (d.get (R.STK_CE_CNT k) + 1) % (R.STK_CE_CNT k).size) ∈ l ∧ (R.STK_CE k, 1) ∈ l ∧
      l.map Prod.fst ⊆ [R.STK_RD_BYTES k, R.STK_CE_CNT k, R.STK_CE k, R.STK_CE_RATE k] := by
  unfold corrected
  extract_lets errors mem held counted
  have hheld : d.Sets true (notes ++ [.mem]) [(R.STK_RD_BYTES k, (d.get (R.STK_RD_BYTES k) + 32) % 2 ^ 64)] [] held :=
    ((Dev.Sets.refl true (notes ++ [.mem]) d).bump (by simp [Fld.newTo, noteBlock, stkKeys]; omega)).setMem
  have hcounted := hheld
    |>.bump (f := R.STK_CE_CNT k) (n := 1) (by simp [Fld.newTo, noteBlock, stkKeys]; omega)
    |>.flag (f := R.STK_CE k) (by simp [Fld.newTo, noteBlock, stkKeys]; omega)
    |>.raiseOnceKey (key := 500000 + 2 * k) (n := 384 + k) (y := 1)
  split_ifs
  · exact ⟨_, (hcounted.flag (f := R.STK_CE_RATE k) (by simp [Fld.newTo, noteBlock, stkKeys]; omega)).raiseOnceKey, by simp,
      by simp, by simp⟩
  · exact ⟨_, hcounted, by simp, by simp, by simp⟩

theorem Dev.raiseOnceKey_mem (d : Dev) (key e x : Nat) : (d.raiseOnceKey key e x).mem = d.mem :=
  (Noting.raiseOnceKey d key e x).2 .mem (by decide)

/-- A corrected error poisons nothing. -/
theorem Dev.corrected_poison (d : Dev) (k : Nat) : (d.corrected k).mem.poison = d.mem.poison := by
  unfold corrected
  extract_lets errors mem held counted
  have noted : counted.mem.poison = held.mem.poison := congrArg MemSt.poison (raiseOnceKey_mem _ _ _ _)
  have hcounted : counted.mem.poison = d.mem.poison := noted
  split_ifs
  · exact (congrArg MemSt.poison (raiseOnceKey_mem (counted.flag (R.STK_CE_RATE k)) _ _ _)).trans hcounted
  · exact hcounted

/-! ### An uncorrectable error -/

/-- What a read with an uncorrectable error leaves while its stack has had fewer than 16 within a second (R249, R250). -/
theorem Dev.uncorrected_sets (d : Dev) {a k : Nat} (ha : a < hbmBytes) (hka : stackOf a = k)
    (hfew : (Tab.getD d.mem.ues k []).length < 16) :
    d.Sets true (notes ++ [.mem]) [(R.STK_UE k, 1), (R.STK_UE_CNT k, (d.get (R.STK_UE_CNT k) + 1) % 2 ^ 64),
        (R.STK_UE_ADDR_HI k, flitOf a * 32 / 2 ^ 32), (R.STK_UE_ADDR_LO k, flitOf a * 32 % 2 ^ 32),
        (R.STK_RD_BYTES k, (d.get (R.STK_RD_BYTES k) + 32) % 2 ^ 64)] [384 + k]
        ((d.bump (R.STK_RD_BYTES k) 32).uncorrected a) ∧
      flitOf a ∈ ((d.bump (R.STK_RD_BYTES k) 32).uncorrected a).mem.poison := by
  have hk : k < 8 := hka ▸ stackOf_lt ha
  have high : flitOf a * 32 / 2 ^ 32 < 2 ^ 7 := flitHigh_lt ha
  unfold uncorrected
  rw [hka]
  extract_lets stack errors f mem held logged told
  have few : ¬16 < errors.length := by
    have := List.length_filter_le (fun t => decide (d.time.now < t + perSec)) (Tab.getD d.mem.ues k [])
    have cons : errors.length = (List.filter (fun t => decide (d.time.now < t + perSec)) (Tab.getD d.mem.ues k [])).length + 1 :=
      List.length_cons
    omega
  rw [if_neg few]
  have hheld : d.Sets true (notes ++ [.mem]) [(R.STK_RD_BYTES k, (d.get (R.STK_RD_BYTES k) + 32) % 2 ^ 64)] [] held :=
    ((Dev.Sets.refl true (notes ++ [.mem]) d).bump (by simp [Fld.newTo, noteBlock, stkKeys]; omega)).setMem
  have hlogged := hheld
    |>.put (f := R.STK_UE_ADDR_LO k) (by simp [Fld.newTo, noteBlock, stkKeys]; omega) (Nat.mod_mod (f * 32) (2 ^ 32))
    |>.put (f := R.STK_UE_ADDR_HI k) (by simp [Fld.newTo, noteBlock, stkKeys]; omega) (Nat.mod_eq_of_lt high)
    |>.bump (f := R.STK_UE_CNT k) (n := 1) (by simp [Fld.newTo, noteBlock, stkKeys]; omega)
  refine ⟨hlogged.flagRaise (by simp [Fld.newTo, noteBlock, stkKeys]; omega) (by omega), ?_⟩
  have poison : told.mem.poison = if f ∈ d.mem.poison then d.mem.poison else f :: d.mem.poison :=
    congrArg MemSt.poison ((logged.flagRaise_only (R.STK_UE k) (384 + k)).2 .mem (by decide))
  rw [poison]
  split_ifs with h
  · exact h
  · exact List.mem_cons_self ..

/-! ### A fetch that meets poison -/

/-- A pip with no entry left steals, where stealing is enabled (R214). -/
theorem Dev.startNext_steals {d : Dev} {p : Nat} (wanted : Nat → Bool) (htodo : d.todo p = [])
    (hsteal : d.get R.FAB_STEAL_EN = 1) :
    (d.startNext wanted p).get (R.PIP_STATE p) = pipStealing ∧ Tab.get? (d.startNext wanted p).pip.work p = none := by
  have next : d.startNext wanted p = (d.putTodo p []).beginIdle p := by unfold startNext; rw [htodo]; rfl
  have on : ((((d.putTodo p []).putWork p none).put (R.PIP_ATTEMPT p) 0).on R.FAB_STEAL_EN) = true := by
    have attempt : R.FAB_STEAL_EN.key ≠ (R.PIP_ATTEMPT p).key := by simp only [R.PIP_ATTEMPT, R.FAB_STEAL_EN, Fld.key]; omega
    have remain : R.FAB_STEAL_EN.key ≠ (R.PIP_REMAIN p).key := by simp only [R.PIP_REMAIN, R.FAB_STEAL_EN, Fld.key]; omega
    exact beq_iff_eq.2 ((get_put_ne _ _ _ _ attempt).trans ((get_put_ne _ _ _ _ remain).trans hsteal))
  rw [next, beginIdle, if_pos on]
  exact ⟨get_put_same _ _ _, Tab.get?_erase_same _ _⟩

/-! ### The reads of the statement -/

section

variable {s : State} {a : Nat} {reader : HbmReader} (hreader : readerOk reader = true) (ha : a < hbmBytes)
  (hready : s.dev.get (R.STK_STATE (stackOf a)) = stkReady ∨ s.dev.get (R.STK_STATE (stackOf a)) = stkRetrain)

include hreader ha hready

theorem hbmReadReturn_clean_gives (hpoison : flitOf a ∉ s.dev.mem.poison) :
    (Instr.hbmReadReturn a .clean reader).gives s fun t =>
      t.dev.get (R.STK_RD_BYTES (stackOf a)) = (s.dev.get (R.STK_RD_BYTES (stackOf a)) + 32) % 2 ^ 64 ∧
      s.Only [R.STK_RD_BYTES (stackOf a)] [] t := by
  have heq := exec_hbmReadReturn_sound (ecc := .clean) hreader ha hready hpoison
  have sets := (Dev.Sets.refl false [] s.dev).bump (f := R.STK_RD_BYTES (stackOf a)) (n := 32)
    (by simp [Fld.newTo, noteBlock, stkKeys]; omega)
  exact ⟨_, heq, sets.get_of_mem (List.mem_cons_self ..), sets.changes (by simp)⟩

theorem hbmReadReturn_corrected_gives (hpoison : flitOf a ∉ s.dev.mem.poison) :
    (Instr.hbmReadReturn a .corrected reader).gives s fun t =>
      t.dev.get (R.STK_CE_CNT (stackOf a)) = (s.dev.get (R.STK_CE_CNT (stackOf a)) + 1) % 2 ^ 64 ∧
      t.dev.get (R.STK_CE (stackOf a)) = 1 ∧ t.dev.mem.poison = s.dev.mem.poison ∧
      s.Noting [R.STK_RD_BYTES (stackOf a), R.STK_CE_CNT (stackOf a), R.STK_CE (stackOf a),
        R.STK_CE_RATE (stackOf a)] [.mem] t := by
  have poison : (s.dev.flitRead a .corrected).mem.poison = s.dev.mem.poison := Dev.corrected_poison _ _
  have heq := exec_hbmReadReturn_sound (ecc := .corrected) hreader ha hready (poison ▸ hpoison)
  obtain ⟨l, sets, hcount, hflag, hl⟩ := s.dev.corrected_sets (stackOf a)
  exact ⟨_, heq, sets.get_of_mem hcount, sets.get_of_mem hflag, poison, sets.noting hl⟩

end

theorem hbmReadReturn_uncorrectable_gives {s : State} {a : Nat} (ha : a < hbmBytes)
    (hready : s.dev.get (R.STK_STATE (stackOf a)) = stkReady ∨ s.dev.get (R.STK_STATE (stackOf a)) = stkRetrain)
    (hfew : (Tab.getD s.dev.mem.ues (stackOf a) []).length < 16) :
    (Instr.hbmReadReturn a .uncorrectable .scrubber).gives s fun t =>
      flitOf a ∈ t.dev.mem.poison ∧
      t.dev.get (R.STK_UE_CNT (stackOf a)) = (s.dev.get (R.STK_UE_CNT (stackOf a)) + 1) % 2 ^ 64 ∧
      t.dev.get (R.STK_UE_ADDR_LO (stackOf a)) + t.dev.get (R.STK_UE_ADDR_HI (stackOf a)) * 2 ^ 32 = flitOf a * 32 ∧
      t.dev.get (R.STK_UE (stackOf a)) = 1 ∧ t.dev.pends (384 + stackOf a) = true ∧
      s.Noting [R.STK_RD_BYTES (stackOf a), R.STK_UE_CNT (stackOf a), R.STK_UE_ADDR_LO (stackOf a), R.STK_UE_ADDR_HI (stackOf a),
        R.STK_UE (stackOf a)] [.mem] t := by
  obtain ⟨sets, poison⟩ := s.dev.uncorrected_sets ha rfl hfew
  have heq := exec_hbmReadReturn_poisoned (reader := .scrubber) (ecc := .uncorrectable) rfl ha hready poison
  refine ⟨_, heq, poison, sets.get_of_mem (by simp), ?_, sets.get_of_mem (by simp), sets.told_pends (by simp),
    sets.noting (by simp)⟩
  have low := sets.get_of_mem (f := R.STK_UE_ADDR_LO (stackOf a)) (w := flitOf a * 32 % 2 ^ 32) (by simp)
  have high := sets.get_of_mem (f := R.STK_UE_ADDR_HI (stackOf a)) (w := flitOf a * 32 / 2 ^ 32) (by simp)
  show Dev.get (Dev.uncorrected _ a) _ + Dev.get (Dev.uncorrected _ a) _ * 2 ^ 32 = _
  rw [low, high]
  omega

/-- A pip that composes and meets poison goes on, with no entry left to stealing (R214, R250). -/
theorem hbmReadReturn_pip_gives {s : State} {a p : Nat} (hp : p < 256) (ha : a < hbmBytes)
    (hready : s.dev.get (R.STK_STATE (stackOf a)) = stkReady ∨ s.dev.get (R.STK_STATE (stackOf a)) = stkRetrain)
    (hpoison : flitOf a ∈ s.dev.mem.poison) (hstate : s.dev.get (R.PIP_STATE p) = pipComposing) (htodo : s.dev.todo p = [])
    (hsteal : s.dev.get R.FAB_STEAL_EN = 1) :
    (Instr.hbmReadReturn a .clean (.pip p)).gives s fun t =>
      t.dev.get (R.PIP_STATE p) = pipStealing ∧ Tab.get? t.dev.pip.work p = none ∧ t.hbm = s.hbm := by
  let e := s.dev.bump (R.STK_RD_BYTES (stackOf a)) 32
  have heq := exec_hbmReadReturn_poisoned (reader := .pip p) (ecc := .clean) (decide_eq_true hp) ha hready hpoison
  have composing : e.get (R.PIP_STATE p) = pipComposing := (Dev.get_bump_rdBytes (by
    simp only [R.PIP_STATE, Fld.key]; omega)).trans hstate
  have steal : e.get R.FAB_STEAL_EN = 1 := (Dev.get_bump_rdBytes (by decide)).trans hsteal
  have next : ({ s with dev := e } : State).poisonTo a (.pip p) = { s with dev := e.startNext e.wanted p } := by
    simp only [State.poisonTo, State.upd]
    rw [if_pos composing]
  obtain ⟨state, work⟩ := Dev.startNext_steals (d := e) e.wanted htodo steal
  exact ⟨_, heq.trans (congrArg _ next), state, work, rfl⟩

end Sys2Proof.Machine
end

section

open Sys2Proof Sys2Proof.Machine

/-- Settles O25: one equation for a read that returns, and what each kind of error leaves. -/
theorem hbmReadsCorrectOrPoison : Obligations.HbmReadsCorrectOrPoison := by
  unfold Obligations.HbmReadsCorrectOrPoison
  exact fun s a p reader hreader hp => ⟨hbmReadReturn_beyond hreader, hbmReadReturn_clean_gives hreader,
    hbmReadReturn_corrected_gives hreader, hbmReadReturn_uncorrectable_gives, hbmReadReturn_pip_gives hp⟩

end
